-- ==== Sys2Proof/Word.lean ====
section
/-! DEFINITION. The word types of the MP-9664 and the two shapes in which its state is held: a table of
records by number, and bytes by address. -/

namespace Sys2Proof

/-- One byte. -/
abbrev Byte := BitVec 8

/-- One 32-bit register word (BAR0 registers are 32 bits wide, R280). -/
abbrev Word := BitVec 32

/-- A media channel number, 0-95 (R6). -/
abbrev Chan := Fin 96

/-- A die number within its channel, 0-7 (Table 0.3). -/
abbrev DieNo := Fin 8

/-- A media leaf address (Table 2.3). -/
abbrev MediaAddr := BitVec 36

/-- A host byte address into the memory window (R162). -/
abbrev HostAddr := BitVec 46

/-- A command packet, 64 bytes; packet byte n is bits [8n+7:8n] (R322, R329). -/
abbrev Packet := BitVec 512

/-- Records by number: an unlisted number has its owner's default. -/
abbrev Tab (α : Type) := List (Nat × α)

/-- Bytes by address, in canonical form (`Memory.wf` in Machine/Tab.lean). -/
abbrev Memory := List (Nat × Byte)

end Sys2Proof
end

