-- ==== Sys2Proof/Syntax.lean ====
section
/-! DEFINITION. The commands of the MP-9664 as a block: one constructor of `Instr` for each row of
spec/opcode_table.json, in the table's order. An operand is what arrives with the command: a packet, an
address, data, a conversion, or the physical outcome of an event (a decode, a verify), which the spec leaves
to the medium, the board or the host (log 1). -/

namespace Sys2Proof

/-- Where a command packet came from: a queue pair (R322) or the service port (R347). -/
inductive Port where
  | sq (q : Fin 1024)
  | svc
  deriving DecidableEq, Repr

/-- What a read of host memory by the device answers: its bytes, or a failure (Unsupported Request, Completer
Abort, poisoned data or a timeout, R328, R340). -/
inductive HostRead where
  | bytes (b : List Byte)
  | failed
  deriving DecidableEq, Repr

/-- Who waits for a read of host memory that times out: the SQ fetch, the command of a pair with a CID, or a harness push
(R317, R328, R340). -/
inductive HostReader where
  | sqFetch
  | command (q : Fin 1024) (cid : BitVec 16)
  | readBack
  deriving DecidableEq, Repr

/-- Storage faults that an access meets on its way: a directory line that fails its CRC (R172), and sectors of its line that
read with erroneous bytes, with how many of their 72 (R244, R245). `struck` are sectors of resident lines, by leaf, in which the code
has met more errors than it corrects since the last access; whoever reads one next meets it. -/
structure AccessEv where
  dirCrc : Bool
  sectors : List (Fin 64 × Nat)
  struck : List (BitVec 34 × Fin 64) := []
  deriving DecidableEq, Repr

/-- How a codeword decode ends (R53, R134): it decodes with a count of corrected bits, it fails, or the raw
bits class it as erased. `learn` holds up[k] - down[k] for k = 1-15 (R121). -/
inductive DecodeOut where
  | good (corrected : Nat) (learn : List Int)
  | bad
  | erased
  deriving DecidableEq, Repr

/-- What a read of a directory line finds: the patrol's (R178), or one of the map updater's between two of the patrol (R172, R173). -/
inductive LineRead where
  | good
  | bad
  | badToUpdater
  deriving DecidableEq, Repr

/-- How the rebuild of a directory line goes (R175): whether the welt and the journal index give the line, and whether it reads back with
a good CRC. -/
structure LineRebuild where
  weltOk : Bool
  readBack : Bool
  deriving DecidableEq, Repr

/-- What the mount's reads of the medium give: the welts whose header and footer decode and whose every page some copy gives, and the
journal page copies (2 × JSEQ + copy) that do not decode. -/
structure MountReads where
  welts : List Nat
  unread : List Nat
  deriving DecidableEq, Repr

/-- A part that fails its digest in the copy of a boot position, by its index in the manifest; `profile` when it stands in the profile blocks. -/
structure BadPart where
  pos : Fin 4
  part : Byte
  profile : Bool
  deriving DecidableEq, Repr

/-- What a boot attempt reads: whether some position gave every part with its digest, and the parts that failed theirs (R389). -/
structure BootParts where
  ok : Bool
  bad : List BadPart
  deriving DecidableEq, Repr

/-- The operand of a report whose content the block itself keeps: the state holds what the reads or the count of the event gave, so
nothing arrives with it. -/
abbrev Kept := Unit

/-- The cause of a host-port reset, with the codes of event HOST_PORT_RESET (Table 13.8). -/
inductive ResetCause where
  | flr | hotReset | dlDown | perst
  deriving DecidableEq, Repr

/-- A store operation that an AON reset cuts short (R398, R404): the items that had ended, and whether the
next one was torn. -/
structure StoreCut where
  erase : Bool
  items : List (BitVec 16 × List Byte)
  opened : Bool
  done : Nat
  deriving DecidableEq, Repr

/-- What one metadata copy of a line decodes to during a tag rebuild (R246): host leaf and context, with the
LOCKED and WT bits. -/
structure MetaCopy where
  leaf : BitVec 34
  ctx : BitVec 12
  locked : Bool
  wt : Bool
  deriving DecidableEq, Repr

/-- How the four sectors of one metadata copy read during a tag rebuild (R246): they decode to what is stored, or to another word,
or one of them does not decode. -/
inductive CopyRead where
  | stored
  | other (m : MetaCopy)
  | lost
  deriving DecidableEq, Repr

/-- The latency fields of a sample entry (R445), in FABRIC_CLK cycles, with the birth cycle count. -/
structure SampleTimes where
  birth : Word
  queue : Word
  arb : Word
  die : Word
  xfer : Word
  decode : Word
  host : Word
  deriving DecidableEq, Repr

/-- The commands: one constructor for each row of spec/opcode_table.json. -/
inductive Instr where
  -- command packets (rows 0-56)
  | identify (port : Port) (pkt : Packet)
  | getState (port : Port) (pkt : Packet)
  | getHealth (port : Port) (pkt : Packet)
  | setWalltime (port : Port) (pkt : Packet)
  | enterMaintenance (port : Port) (pkt : Packet)
  | leaveMaintenance (port : Port) (pkt : Packet)
  | prepareShelfDown (port : Port) (pkt : Packet)
  | abort (port : Port) (pkt : Packet)
  | ctxCreate (port : Port) (pkt : Packet)
  | ctxModify (port : Port) (pkt : Packet)
  | ctxDelete (port : Port) (pkt : Packet)
  | ctxQuery (port : Port) (pkt : Packet)
  | keyLoad (port : Port) (pkt : Packet) (blob : HostRead)
  | keyDestroy (port : Port) (pkt : Packet)
  | cacheRangeClean (port : Port) (pkt : Packet)
  | cacheRangeInvalidate (port : Port) (pkt : Packet)
  | cacheRangeDiscard (port : Port) (pkt : Packet)
  | cacheRangeLock (port : Port) (pkt : Packet)
  | cacheRangeUnlock (port : Port) (pkt : Packet)
  | cacheRangePrefetch (port : Port) (pkt : Packet)
  | cacheEnable (port : Port) (pkt : Packet)
  | cacheDisable (port : Port) (pkt : Packet)
  | cacheStatus (port : Port) (pkt : Packet)
  | unmapRange (port : Port) (pkt : Packet)
  | zeroRange (port : Port) (pkt : Packet)
  | mapQuery (port : Port) (pkt : Packet)
  | pinSegments (port : Port) (pkt : Packet)
  | unpinSegments (port : Port) (pkt : Packet)
  | getHoles (port : Port) (pkt : Packet)
  | clearReadOnly (port : Port) (pkt : Packet)
  | scrubNow (port : Port) (pkt : Packet)
  | burnishNow (port : Port) (pkt : Packet)
  | refreshNow (port : Port) (pkt : Packet)
  | retireUnit (port : Port) (pkt : Packet)
  | restoreUnit (port : Port) (pkt : Packet)
  | mediaReport (port : Port) (pkt : Packet)
  | retentionReport (port : Port) (pkt : Packet)
  | powerStatus (port : Port) (pkt : Packet)
  | holdupMeasure (port : Port) (pkt : Packet)
  | setLimits (port : Port) (pkt : Packet)
  | boardGet (port : Port) (pkt : Packet)
  | boardSet (port : Port) (pkt : Packet) (data : HostRead)
  | boardCommit (port : Port) (pkt : Packet)
  | paramGet (port : Port) (pkt : Packet)
  | paramSet (port : Port) (pkt : Packet)
  | counterConfig (port : Port) (pkt : Packet)
  | counterRead (port : Port) (pkt : Packet)
  | sampleConfig (port : Port) (pkt : Packet)
  | eventRead (port : Port) (pkt : Packet)
  | eventClear (port : Port) (pkt : Packet)
  | imageStage (port : Port) (pkt : Packet) (chunk : HostRead)
  | imageStatus (port : Port) (pkt : Packet)
  | imageActivate (port : Port) (pkt : Packet)
  | imageDiscard (port : Port) (pkt : Packet)
  | harnessJoin (port : Port) (pkt : Packet)
  | harnessLeave (port : Port) (pkt : Packet)
  | harnessQuery (port : Port) (pkt : Packet)
  -- queues (rows 57-63)
  | sqTailDoorbell (q : Fin 1024) (v : Word)
  | cqHeadDoorbell (q : Fin 1024) (v : Word)
  | queueEnable (q : Fin 1024) (v : Word)
  | queueDisable (q : Fin 1024) (v : Word)
  | sqFetch (read : Option Packet)
  | completionPost (q : Fin 1024)
  | coalesceTimeout (q : Fin 1024)
  -- register commands (rows 64-93)
  | retrainAll (v : Word)
  | retrain (ch : Chan) (v : Word)
  | reseed
  | customChange (ch : Chan) (custom : Bool)
  | reassess (v : Word) (reads : Kept)
  | learnClear (v : Word)
  | weltNow (v : Word)
  | dirPeek (index : BitVec 22) (crcOk : Bool)
  | cacheCtrlEnable (v : Word)
  | cacheCtrlDisable (v : Word)
  | rangeGoClean (v : Word)
  | rangeGoInvalidate (v : Word)
  | rangeGoDiscard (v : Word)
  | rangeGoLock (v : Word)
  | rangeGoUnlock (v : Word)
  | rangeGoPrefetch (v : Word)
  | measure
  | offReq
  | fifoFlush (v : Word)
  | slotSnap (v : Word)
  | slotClear (v : Word)
  | cntClear (v : Word)
  | sampleRingClear (v : Word)
  | sampleTailWrite (v : Word)
  | counterLoRead (k : Fin 16)
  | ageLoRead (ch : Chan) (d : DieNo)
  | claim (t : Fin 64)
  | eoi (t : Fin 64) (v : Word)
  | softSet (v : Word)
  | registerWrite (off : BitVec 26) (v : Word)
  -- host link and memory window (rows 94-115)
  | linkTraining (rate : Nat) (width : Nat) (flit : Bool) (cxl : Bool)
  | hostPortReset (cause : ResetCause)
  | aspmL1Entry
  | pmStateChange (d3hot : Bool)
  | memoryWindowRead (addr : HostAddr) (len : Nat) (tag : BitVec 14) (ev : AccessEv)
  | memoryWindowWrite (addr : HostAddr) (data : List Byte) (ep : Bool) (ev : AccessEv)
  | zeroLengthRead (addr : HostAddr) (tag : BitVec 14)
  | bar0BadAccess (write : Bool) (tag : BitVec 14)
  | readWatchdog (slot : BitVec 16)
  | tackLate (slot : BitVec 16)
  | cxlMemRd (hpa : BitVec 64) (tag : BitVec 14) (ev : AccessEv)
  | cxlMemWr (hpa : BitVec 64) (data : List Byte) (poison : Bool) (ev : AccessEv)
  | cxlMemSpecRd (hpa : BitVec 64) (taken : Bool)
  | hdmDecoderCommit (i : Fin 4) (dpaBase : BitVec 64) (size : BitVec 64) (ways : Nat) (gran : Nat)
  | cxlGpf
  | gpfLate (ms : Word)
  | cxlIdentifyMemoryDevice
  | cxlGetHealthInfo
  | cxlGetPoisonList (dpa : BitVec 64) (len : BitVec 64)
  | cxlSetTimestamp (ns : BitVec 64)
  | cxlGetEventRecords (log : Fin 4)
  | cxlClearEventRecords (log : Fin 4) (count : Nat)
  -- service port (rows 116-128)
  | svcRequest (body : List Byte) (pecOk : Bool)
  | svcData (body : List Byte) (pecOk : Bool)
  | setEndpointId (eid : Byte)
  | getEndpointId
  | getMctpVersionSupport
  | getMessageTypeSupport
  | getVendorDefinedMessageSupport
  | entdaa (addr : BitVec 7) (pecOk : Bool)
  | setdasa (addr : BitVec 7) (pecOk : Bool)
  | rstdaa
  | fifoTimeout
  | imageVerify (good : BitVec 4)
  | activationPauseLimit
  -- power, thermal and timers (rows 129-158)
  | onRequest (darkSeconds : Nat)
  | shelfEnLow
  | adcConversion (mv : BitVec 16)
  | railTimeout
  | powerDown
  | channelStartTimeout (ch : Chan)
  | measurementTimeout
  | measurementPeriod
  | measurementDrainDone
  | drainTimeout
  | energyEstimate
  | pfw
  | pfwRearm
  | aonSwitch (mv : BitVec 16)
  | aonReturn
  | aonReset (cut : Option StoreCut) (evt : Option Bool)
  | aonBoot
  | pllLost
  | pllHoldoverExpiry
  | cinchAcceptEnd
  | cinchWritebackComplete
  | cinchParityComplete
  | cinchJournalComplete
  | cinchDeltaCommitted
  | cinchBudgetExpiry
  | critLockoutEnd
  | thermalSample (sensors : List Int) (diode : Int) (dram0 : Int) (dram1 : Int)
  | dramRefresh (stack : Fin 2)
  | thermalAgeTick
  | tempPoll
  -- arbitration and sequencer (rows 159-170)
  | arbDraw (ch : Chan) (withdraws : Bool)
  | housekeepingWindow (ch : Chan) (temp : BitVec 16)
  | senseIssue (ch : Chan) (d : DieNo) (guardOver : Bool)
  | loadComplete (ch : Chan) (crcOk : Bool)
  | xferComplete (ch : Chan) (crcOk : Bool) (hist : List Nat)
  | decodeDone (slot : BitVec 16) (out : DecodeOut)
  | stitchRebuild (slot : BitVec 16) (lost : Kept)
  | dieTimeout (ch : Chan) (d : DieNo) (withinHour : Kept)
  | alertAsserted (ch : Chan) (reports : Byte) (internal : Byte)
  | alertStuck (ch : Chan)
  | alertStuckEnd (ch : Chan)
  | retrainDone (ch : Chan) (ok : Bool) (trim : Word) (deskew : Word) (ck : Nat) (temps : List (BitVec 16))
  -- AMC2 die frames (rows 171-192)
  | amc2Reset (ch : Chan) (d : DieNo)
  | amc2Identify (ch : Chan) (d : DieNo) (mod : BitVec 6)
  | amc2Status (ch : Chan) (d : DieNo) (mod : BitVec 6)
  | amc2StatusScan (ch : Chan) (mod : BitVec 6)
  | amc2GetTemp (ch : Chan) (d : DieNo) (mod : BitVec 6) (temp : BitVec 16)
  | amc2TrainRdPattern (ch : Chan) (d : DieNo) (mod : BitVec 6)
  | amc2TrainWrStore (ch : Chan) (d : DieNo) (mod : BitVec 6) (data : List Byte)
  | amc2TrainRdStore (ch : Chan) (d : DieNo) (mod : BitVec 6)
  | amc2TrainConfig (ch : Chan) (d : DieNo) (mod : BitVec 6) (word : BitVec 12)
  | amc2SetRef (ch : Chan) (d : DieNo) (mod : BitVec 6) (words : List (BitVec 12))
  | amc2ReadPageSense (ch : Chan) (d : DieNo) (mod : BitVec 6) (c1 c2 : BitVec 12)
  | amc2ReadPageXfer (ch : Chan) (d : DieNo) (mod : BitVec 6) (c1 : BitVec 12)
  | amc2ReadSoftSense (ch : Chan) (d : DieNo) (mod : BitVec 6) (c1 c2 c3 : BitVec 12)
  | amc2ReadSoftXfer (ch : Chan) (d : DieNo) (mod : BitVec 6) (c1 : BitVec 12)
  | amc2ReadHistSense (ch : Chan) (d : DieNo) (mod : BitVec 6) (c1 c2 : BitVec 12)
  | amc2ReadHistXfer (ch : Chan) (d : DieNo) (mod : BitVec 6) (c1 : BitVec 12)
  | amc2ProgramLoad (ch : Chan) (d : DieNo) (mod : BitVec 6) (c1 c2 c3 : BitVec 12) (data : List Byte) (crc : Word)
  | amc2ProgramStart (ch : Chan) (d : DieNo) (mod : BitVec 6) (c1 c2 c3 : BitVec 12)
  | amc2Erase (ch : Chan) (d : DieNo) (mod : BitVec 6) (c1 : BitVec 12)
  | amc2Suspend (ch : Chan) (d : DieNo) (mod : BitVec 6)
  | amc2Resume (ch : Chan) (d : DieNo) (mod : BitVec 6)
  | amc2FrameAbort (ch : Chan) (d : DieNo)
  -- die and block-life events (rows 193-211)
  | dieSenseEnd (ch : Chan) (d : DieNo)
  | dieProgramEnd (ch : Chan) (d : DieNo) (fail : Bool)
  | dieEraseEnd (ch : Chan) (d : DieNo) (fail : Bool)
  | dieSuspendEnd (ch : Chan) (d : DieNo)
  | dieResetEnd (ch : Chan) (d : DieNo)
  | diePor (ch : Chan) (d : DieNo)
  | stitchForm (copy : Bool)
  | memberProgram (stitch : Fin 48) (member : Fin 16)
  | padTimeout (stitch : Fin 48) (member : Fin 16)
  | parityRowProgram (stitch : Fin 48)
  | burnishMember (stitch : Fin 48) (member : Fin 16)
  | burnishResult (stitch : Fin 48) (member : Fin 16) (badPlanes corrMax : Kept)
  | skiverVictimSelect
  | skiverCopyProgram
  | victimErase
  | refreshJob
  | scrubPatrol (dieBlock : BitVec 20) (corrected step : Kept)
  | systemCopyRefresh
  | wearSnapshot
  -- translation, journal and welts (rows 212-221)
  | segReadDone (seg : BitVec 22) (badPrimary badMirror : Kept)
  | segWrite (seg : BitVec 22)
  | leafMapAppend
  | jrnWindowExpiry
  | journalRingErase (stream : Fin 8) (block : Fin 4)
  | weltStart
  | weltPeriodExpiry
  | weltDone
  | dirLineRebuild (line : BitVec 19) (out : LineRebuild)
  | dirPatrol (line : BitVec 19) (found : LineRead)
  -- boot and mount (rows 222-229)
  | bootAttempt (parts : BootParts)
  | bootReady
  | bootAttemptTimeout
  | mountWeltChoice (reads : MountReads)
  | brandPass1 (reads : Kept)
  | journalReplay
  | directoryWrite
  | brandPass2Die (die : Fin 768)
  -- cache engine (rows 230-235)
  | writebackStart
  | wbAgeExpiry
  | allocationRetry
  | tagRebuild (set : BitVec 18) (way : Fin 16) (copies : List CopyRead)
  | rangeEngineLeaf
  | cacheDrainDone
  -- harness and shutdown (rows 236-239)
  | harnessPush
  | harnessPushReadback (r : HostRead)
  | harnessLeaderRead
  | cleanShutdown
  -- events, counters and trace (rows 240-250)
  | eventGrant
  | opSecondsTick
  | opSecondsSave
  | evtOverflowSave
  | counterOverflow (k : Fin 16) (inc : Nat)
  | sampleEntryWrite (times : SampleTimes)
  | sampleWriteTimeout
  | traceFrameSend
  | traceTime (cycles : BitVec 64)
  | completionTimeout (who : HostReader)
  | evtWinRead (off : BitVec 24)
  -- host errors and the rest (rows 251-255)
  | ecrcError
  | malformedTlp
  | unsupportedFeatureRequest (tag : BitVec 14)
  | mailboxUnsupportedOpcode (opcode : BitVec 16)
  | otherMessageType (ty : Byte)
  deriving DecidableEq, Repr

end Sys2Proof
end

