-- ==== Sys2Proof/Decode.lean ====
section
/-! DEFINITION. The commands that a word spells. No row of spec/opcode_table.json gives bits (the block takes commands with
operands, and fetches nothing), so no word spells a command to the host's question. The frames of the AMC2 bus do have an
encoding of their own, in CA words (R54-R58, Tables 2.7 and 2.8): `frameCommand` reads it. -/

namespace Sys2Proof

/-- The rows of the table that give bits, as (bits, pattern, command). There are none. -/
def bitRows : List (Nat × Nat × Instr) := []

/-- The command that an `nbits`-bit word spells by the table's bits, if a row gives it. -/
def decodeTableWord (nbits w : Nat) : Option Instr :=
  (bitRows.find? (fun r => r.1 == nbits && r.2.1 == w)).map (fun r => r.2.2)

/-- The opcode of a frame: bits [11:6] of C0 (R54). -/
def frameOpcode (c0 : BitVec 12) : BitVec 6 := c0.extractLsb' 6 6

/-- The MOD field of a frame: bits [5:0] of C0 (R54). -/
def frameMod (c0 : BitVec 12) : BitVec 6 := c0.extractLsb' 0 6

/-- The training commands by mode, bits [1:0] of MOD (Table 2.8). -/
def trainCommand (ch : Chan) (d : DieNo) (mod : BitVec 6) (rest : List (BitVec 12)) (data : List Byte) : Instr :=
  if mod.extractLsb' 0 2 = 0 then .amc2TrainRdPattern ch d mod
  else if mod.extractLsb' 0 2 = 1 then .amc2TrainWrStore ch d mod data
  else if mod.extractLsb' 0 2 = 2 then .amc2TrainRdStore ch d mod
  else match rest with
    | c1 :: _ => .amc2TrainConfig ch d mod c1
    | [] => .amc2FrameAbort ch d

/-- The command that a frame of CA words, C0 first, stands for on die `d` of a channel (Tables 2.7, 2.8). `data` and `crc` are what
the controller sends on DQ, `temp` what GET_TEMP measures. Opcode 0x00 is an idle CA. A reserved opcode, and a frame with too few
words, is a frame that the die discards with CMD_ERR (R44, R56). -/
def frameCommand (ch : Chan) (d : DieNo) (frame : List (BitVec 12)) (data : List Byte) (crc : Word) (temp : BitVec 16) : Option Instr :=
  match frame with
  | [] => none
  | c0 :: rest =>
    let mod := frameMod c0
    let sel := mod.extractLsb' 0 2
    match (frameOpcode c0).toNat, rest with
    | 0x00, _ => none
    | 0x01, _ => some (.amc2Identify ch d mod)
    | 0x02, _ => some (if mod.getLsbD 1 then .amc2StatusScan ch mod else .amc2Status ch d mod)
    | 0x03, _ => some (.amc2GetTemp ch d mod temp)
    | 0x04, rest => some (trainCommand ch d mod rest data)
    | 0x08, rest => some (if rest.length < 15 then .amc2FrameAbort ch d else .amc2SetRef ch d mod (rest.take 15))
    | 0x10, c1 :: more => some (if sel = 1 then .amc2ReadPageXfer ch d mod c1
        else match more with | c2 :: _ => .amc2ReadPageSense ch d mod c1 c2 | [] => .amc2FrameAbort ch d)
    | 0x11, c1 :: more => some (if sel = 1 then .amc2ReadSoftXfer ch d mod c1
        else match more with | c2 :: c3 :: _ => .amc2ReadSoftSense ch d mod c1 c2 c3 | _ => .amc2FrameAbort ch d)
    | 0x12, c1 :: more => some (if sel = 1 then .amc2ReadHistXfer ch d mod c1
        else match more with | c2 :: _ => .amc2ReadHistSense ch d mod c1 c2 | [] => .amc2FrameAbort ch d)
    | 0x20, c1 :: c2 :: c3 :: _ => some (if sel = 1 then .amc2ProgramStart ch d mod c1 c2 c3 else .amc2ProgramLoad ch d mod c1 c2 c3 data crc)
    | 0x21, c1 :: _ => some (.amc2Erase ch d mod c1)
    | 0x28, _ => some (.amc2Suspend ch d mod)
    | 0x29, _ => some (.amc2Resume ch d mod)
    | 0x3F, _ => some (.amc2Reset ch d)
    | _, _ => some (.amc2FrameAbort ch d)

end Sys2Proof
end

