-- ==== Sys2Proof/Machine/Tab.lean ====
section
/-! DEFINITION. Tables of records by number, and bytes by address in canonical form. -/

namespace Sys2Proof

variable {α : Type}

/-- The record listed at `k`. -/
def Tab.find (t : Tab α) (k : Nat) : Option α :=
  match t with
  | [] => none
  | (i, a) :: r => if i = k then some a else Tab.find r k

/-- The record at `k`, or the owner's default `d`. -/
def Tab.get (t : Tab α) (k : Nat) (d : α) : α := (Tab.find t k).getD d

/-- `t` with the record `a` at `k`; listed numbers stay in rising order. -/
def Tab.put (t : Tab α) (k : Nat) (a : α) : Tab α :=
  match t with
  | [] => [(k, a)]
  | (i, b) :: r =>
    if k < i then (k, a) :: (i, b) :: r
    else if k = i then (k, a) :: r
    else (i, b) :: Tab.put r k a

/-- `t` without a record at `k`. -/
def Tab.del (t : Tab α) (k : Nat) : Tab α :=
  match t with
  | [] => []
  | (i, b) :: r => if i = k then Tab.del r k else (i, b) :: Tab.del r k

/-- `t` with `f` applied to its record at `k`. -/
def Tab.upd (t : Tab α) (k : Nat) (d : α) (f : α → α) : Tab α := Tab.put t k (f (Tab.get t k d))

/-- `t` with `f` applied to its record at `k`, if it lists one. -/
def Tab.change (t : Tab α) (k : Nat) (f : α → α) : Tab α :=
  match Tab.find t k with
  | some a => Tab.put t k (f a)
  | none => t

/-- The byte at `a`: the listed one, or what an unlisted address reads as. -/
def Memory.read (dflt : Byte) (m : Memory) (a : Nat) : Byte := Tab.get m a dflt

/-- `m` with byte `b` at `a`. A byte equal to what an unlisted address reads as is not listed. -/
def Memory.write (dflt : Byte) (m : Memory) (a : Nat) (b : Byte) : Memory :=
  if b = dflt then Tab.del m a else Tab.put m a b

/-- The canonical form: addresses strictly rising, and no entry equal to what an unlisted address reads as. -/
def Memory.wf (dflt : Byte) (m : Memory) : Bool :=
  match m with
  | [] => true
  | (i, b) :: r => b != dflt && (match r with | [] => true | (j, _) :: _ => decide (i < j)) && Memory.wf dflt r

/-- `m` with the bytes of `bs` from address `a` upward. -/
def Memory.writeBytes (dflt : Byte) (m : Memory) (a : Nat) (bs : List Byte) : Memory :=
  match bs with
  | [] => m
  | b :: r => Memory.writeBytes dflt (Memory.write dflt m a b) (a + 1) r

/-- The `n` bytes of `m` from address `a` upward. -/
def Memory.readBytes (dflt : Byte) (m : Memory) (a n : Nat) : List Byte :=
  match n with
  | 0 => []
  | k + 1 => Memory.read dflt m a :: Memory.readBytes dflt m (a + 1) k

/-- `m` with `n` bytes from `a` upward set to what an unlisted address reads as. -/
def Memory.clear (m : Memory) (a n : Nat) : Memory :=
  m.filter (fun p => decide (p.1 < a) || decide (a + n ≤ p.1))

end Sys2Proof
end

