-- ==== Sys2Proof/Machine/Bits.lean ====
section
/-! DEFINITION. Little-endian bytes, bit fields of words and packets, CRC-32C, medians. Everything a command or
a record carries is little-endian (R27, R51, R322). -/

namespace Sys2Proof

/-- The low `n` bytes of `v`, low byte first. -/
def le (n v : Nat) : List Byte :=
  match n with
  | 0 => []
  | k + 1 => BitVec.ofNat 8 v :: le k (v / 256)

/-- The number whose bytes are `bs`, low byte first. -/
def ofLe (bs : List Byte) : Nat :=
  match bs with
  | [] => 0
  | b :: r => b.toNat + 256 * ofLe r

/-- `n` bytes of a record, as a number. -/
def recField (b : List Byte) (off n : Nat) : Nat := ofLe ((b.drop off).take n)

/-- `n` zero bytes. -/
def zeros (n : Nat) : List Byte := List.replicate n 0

/-- `n` bytes of a read: what came, or 0 beyond it. -/
def fit (n : Nat) (bs : List Byte) : List Byte := (bs ++ zeros (n - bs.length)).take n

/-- A signed number as its low `n` bytes in two's complement. -/
def leInt (n : Nat) (v : Int) : List Byte := le n (v % (2 ^ (8 * n) : Int)).toNat

/-- The signed 8-bit value of a byte. -/
def sbyte (b : Byte) : Int := b.toInt

/-- Bits [lo + w - 1 : lo] of a number. -/
def bits (v lo w : Nat) : Nat := v / 2 ^ lo % 2 ^ w

/-- Bit `i` of a number. -/
def bit (v i : Nat) : Bool := v / 2 ^ i % 2 == 1

/-- 1 or 0. -/
def flag (b : Bool) : Nat := if b then 1 else 0

/-- `v` with bits [lo + w - 1 : lo] replaced by `x`. -/
def setBits (v lo w x : Nat) : Nat := v - bits v lo w * 2 ^ lo + (x % 2 ^ w) * 2 ^ lo

/-- Packet byte offset `off`, `n` bytes, as a number (R329). -/
def Packet.u (p : Packet) (off n : Nat) : Nat := p.toNat / 2 ^ (8 * off) % 2 ^ (8 * n)

/-- The bytes of a packet. -/
def Packet.bytes (p : Packet) : List Byte := le 64 p.toNat

/-- The bits of a number as flags, `n` of them from bit 0. -/
def bitList (v n : Nat) : List Bool := (List.range n).map (fun i => bit v i)

/-- The number whose bit `i` is the i-th flag. -/
def ofBits (bs : List Bool) : Nat :=
  match bs with
  | [] => 0
  | b :: r => flag b + 2 * ofBits r

/-- One bit step of CRC-32C, reflected. -/
def crcBit (c : Nat) : Nat := if c % 2 = 1 then (c / 2) ^^^ 0x82F63B78 else c / 2

/-- CRC-32C after one more byte. -/
def crcByte (c : Nat) (b : Byte) : Nat :=
  crcBit (crcBit (crcBit (crcBit (crcBit (crcBit (crcBit (crcBit (c ^^^ b.toNat))))))))

/-- CRC-32C of a list of bytes. -/
def crc32c (bs : List Byte) : Nat := (bs.foldl crcByte 0xFFFFFFFF) ^^^ 0xFFFFFFFF

/-- A list with `x` inserted before the first element above it. -/
def insertBy {α : Type} (lt : α → α → Bool) (x : α) (l : List α) : List α :=
  match l with
  | [] => [x]
  | y :: r => if lt x y then x :: y :: r else y :: insertBy lt x r

/-- A list in rising order; equal elements keep their order. -/
def sortBy {α : Type} (lt : α → α → Bool) (l : List α) : List α :=
  match l with
  | [] => []
  | x :: r => insertBy (fun a b => !lt b a) x (sortBy lt r)

/-- The median of a list; of two middle values the lower (R7, R125). 0 for an empty list. -/
def median (l : List Nat) : Nat := (sortBy (fun a b => decide (a < b)) l).getD ((l.length - 1) / 2) 0

/-- The median of signed values, the lower of two middle ones. -/
def medianInt (l : List Int) : Int := (sortBy (fun a b => decide (a < b)) l).getD ((l.length - 1) / 2) 0

/-- The largest of a list, 0 when it is empty. -/
def maximum (l : List Nat) : Nat := l.foldl Nat.max 0

/-- The sum of a list. -/
def total (l : List Nat) : Nat := l.foldl (· + ·) 0

/-- `v` raised by `k`, held at `top`. -/
def satAdd (top v k : Nat) : Nat := Nat.min top (v + k)

/-- `v` held between `lo` and `hi`. -/
def clamp (lo hi v : Nat) : Nat := if v < lo then lo else if hi < v then hi else v

/-- A signed value held between two limits. -/
def clampInt (lo hi v : Int) : Int := if v < lo then lo else if hi < v then hi else v

/-- Rounds n / d to the nearest integer, halves away from zero (R117). -/
def rnd (n : Int) (d : Nat) : Int :=
  if 0 ≤ n then (2 * n + d) / (2 * d) else -((2 * (-n) + d) / (2 * d))

/-- Rounds n / d upward. -/
def ceilDiv (n d : Nat) : Nat := (n + d - 1) / d

end Sys2Proof
end

