-- ==== Sys2Proof/Config.lean ====
section
/-! DEFINITION. What one device or its medium fixes and the spec does not: constants without a body. A claim
that mentions one holds whatever its value is (logs 10, 11, 12, 13). Those with an argument `n` are free values:
the machine applies them to its counter `nonce`, which it then advances. -/

namespace Sys2Proof

/-- Byte `i` of a codeword that reads as any value (R69, R72) and yet decodes, at nonce `n`. DESIGN CHOICE (log 11): the spec gives
no value. -/
opaque Config.rawByte (n i : Nat) : Byte

/-- The DAC code at which the sensing of stamp `n` finds cell `i` (73,728 × plane + cell) of a page, when its level is `level`
(none: a page that reads as any value). DESIGN CHOICE (log 11): the spec gives no cell's code; the hard bits, the confidence and
the histograms of R64 are functions of it. -/
opaque Config.cellCode (n i : Nat) (level : Option Nat) : BitVec 10

/-- Byte `i` of a leaf's data as stored under key slot `key` (Table 2.5; R307). DESIGN CHOICE (log 12): the keys are no bytes of the
state. -/
opaque Config.enciphered (key leaf : Nat) (data : Memory) (i : Nat) : Byte

/-- The data of a codeword deciphered: byte `i`, under the key of a context, of a leaf whose stored bytes are given (R308). No rule
gives the cipher. -/
opaque Config.deciphered (key leaf : Nat) (stored : List Byte) (i : Nat) : Byte

/-- Byte `i` of the LDPC parity of the 4,160 bytes before it (R50, R52): the base matrix is a part of the medium profile that the
spec does not give. DESIGN CHOICE (log 12). -/
opaque Config.ldpcParity (bytes : List Byte) (i : Nat) : Byte

/-- The opcode that a header shows for an engine tack that touches a line without reading the medium (CLEAN, INVALIDATE, DISCARD,
UNLOCK, UNMAP_RANGE, ZERO_RANGE). Table 1.4 gives none: a free value (log 67). -/
opaque Config.lineOpcode : BitVec 6

/-- The power of x that is the first root of the sector code's generator (R244): no rule gives it. A free value (log 68). -/
opaque Config.rsFirstRoot : Byte

/-- The 8-bit check of a dirty-list entry (R250) over its other 56 bits: no rule gives the code. A free value (log 68). -/
opaque Config.dirtyCheck (entry : Nat) : Byte

/-- The requester ID of the host's requests (PCI Express): the host assigns it. A free value (log 69). -/
opaque Config.requesterId : BitVec 16

/-- Revision ID of configuration space (PCI Express); no rule gives it. A free value (log 69). -/
opaque Config.revisionId : Byte

/-- A value the spec states as undefined or does not state, by the nonce at which it was taken. DESIGN CHOICE
(log 10). -/
opaque Config.free (n : Nat) : Word

/-- Whether plane-block `k` fails the erase that RESTORE_UNIT gives it (R229), at nonce `n`. DESIGN CHOICE (log 30). -/
opaque Config.restoreFails (n k : Nat) : Bool

/-- Serial number byte `i` of die `d` (Table 2.10, SERIAL). DESIGN CHOICE (log 12). -/
opaque Config.dieSerial (d i : Nat) : Byte

/-- Figure `i` that die `d` reports in IDENTIFY (Table 2.10): TR_MAX to TSUSP_MAX, ENDURANCE, then CLASS, PROTOCOL, BITS_PER_CELL,
PLANES, BLOCKS, PAGES, PAGE_BYTES and SUSP_LIMIT. DESIGN CHOICE (log 12). -/
opaque Config.dieFigure (d i : Nat) : BitVec 16

/-- MAKER of die `d` (Table 2.10). DESIGN CHOICE (log 12). -/
opaque Config.dieMaker (d : Nat) : BitVec 16

/-- Serial number of the device (Table 10.9). DESIGN CHOICE (log 12). -/
opaque Config.deviceSerial : BitVec 128

/-- Aglith's assigned PCI Vendor ID (R452, R270). DESIGN CHOICE (log 12). -/
opaque Config.vendorId : BitVec 16

/-- The security-version floor in fuses (Table 16.10, FUSE_FLOOR). DESIGN CHOICE (log 12). -/
opaque Config.fuseFloor : BitVec 16

/-- Whether SHA-384 of a header's PUBKEY is the key hash fused at manufacture (Table 16.4, KEY). DESIGN CHOICE (log 12). -/
opaque Config.keyMatches (pubkey : List Byte) : Bool

/-- Whether SIGNATURE of a header verifies under its PUBKEY (Table 16.4, SIGNATURE). DESIGN CHOICE (log 12). -/
opaque Config.signatureOk (header : List Byte) : Bool

/-- IMAGE_VERSION, ROLLBACK and the medium profile's version of the image that slot A holds from manufacture. DESIGN CHOICE
(log 12). -/
opaque Config.factoryVersion : BitVec 64
opaque Config.factoryRollback : BitVec 16
opaque Config.factoryProfile : BitVec 64

/-- Die-pages of the image and of the profile that the medium holds from manufacture, and byte `i` of that profile with its header (R387,
R467). DESIGN CHOICE (log 12). -/
opaque Config.factoryPages : BitVec 16
opaque Config.factoryProfilePages : BitVec 16
opaque Config.factoryProfileByte (i : Nat) : Byte

/-- Scalar `i` of medium profile version `v` (Tables 4.1, 4.2): 0-5 factors, 6-8 class edges, 9 and 10 deltas, 11 offset
limit, 12 refresh age, 13 read limit. DESIGN CHOICE (log 13). -/
opaque Config.profileScalar (v i : Nat) : Word

/-- Base threshold B[c][b][k] of medium profile version `v` (Table 4.2). DESIGN CHOICE (log 13). -/
opaque Config.baseThreshold (v c b k : Nat) : BitVec 10

/-- Slope S[c][b][k] of medium profile version `v`, in 1/16 code per octave (Table 4.2). DESIGN CHOICE (log 13). -/
opaque Config.slope (v c b k : Nat) : BitVec 8

/-- Band offset O[n][k] of medium profile version `v` (Table 4.2). DESIGN CHOICE (log 13). -/
opaque Config.bandOffset (v n k : Nat) : BitVec 8

/-- Brand centre P[j] of medium profile version `v` (Table 4.2). DESIGN CHOICE (log 13). -/
opaque Config.brandCentre (v j : Nat) : BitVec 10

/-- Brand slope D[j] of medium profile version `v` (Table 4.2). DESIGN CHOICE (log 13). -/
opaque Config.brandSlope (v j : Nat) : BitVec 8

/-- Whether level `j` is in the fit mask of medium profile version `v` (Table 4.2). DESIGN CHOICE (log 13). -/
opaque Config.fitMask (v j : Nat) : Bool

/-- Whether the 72 WRAPPED bytes of a key blob pass the integrity check of the AES key wrap under a KEK (R309, R310). DESIGN CHOICE
(log 12). -/
opaque Config.unwraps (kek wrapped : List Byte) : Bool

/-- Whether K1 and K2 of a wrapped context key are equal (R310). DESIGN CHOICE (log 12). -/
opaque Config.sameHalves (kek wrapped : List Byte) : Bool

/-- The KEK that a wrapped KEK holds (R310). DESIGN CHOICE (log 12). -/
opaque Config.unwrapKek (kek wrapped : List Byte) : List Byte

/-- A context key as the parameter store holds it, wrapped under the device's storage key (R311). DESIGN CHOICE (log 12). -/
opaque Config.storedKey (kek wrapped : List Byte) : List Byte

/-- What the 3-bit WIDTH field of the host-port DVSEC shows for a link of 8 lanes, which it cannot hold (Table 8.11). DESIGN CHOICE
(log 46). -/
opaque Config.wideWidth : BitVec 3

end Sys2Proof
end

