-- ==== Sys2Proof/Machine/State.lean ====
section
/-! DEFINITION. The state of the MP-9664 as a block: every piece of state the spec gives it, as plain data, the
queue of waiting commands, and `State.reset`. Tables list only what differs from their owner's default, which
stands beside the accessor that reads them (Machine/Ops.lean). -/

namespace Sys2Proof.Machine

/-- No command of this block stops the machine: a bad request is answered by a status code, a completion status
or an error flag (Tables 8.8, 10.6). The one constructor is never raised. -/
inductive Fault where
  /-- Raised by no command; it keeps the type inhabited. Safe. -/
  | none
  deriving DecidableEq, Repr

/-- Why a command has no meaning here. -/
inductive Refusal where
  /-- Raised by a dispatch arm whose command has no meaning yet. Safe. -/
  | notModelled (mnemonic : String)
  deriving DecidableEq, Repr


/-! ### What leaves the device -/

/-- Completion statuses of a host read (Table 8.8). -/
inductive CplStatus where
  | success | poisoned | unsupported | abort
  deriving DecidableEq, Repr

/-- Return codes of the CXL mailbox that R293 names. -/
inductive MailboxStatus where
  | success | busy | unsupported
  deriving DecidableEq, Repr

/-- What leaves the device, in the order in which it leaves. Nothing reads it back (log 9). -/
inductive Out where
  /-- A completion entry of a pair, with the bus address it is written at (R330). -/
  | completion (q addr : Nat) (entry : List Byte)
  /-- A completion to the service agent (R451-R455). -/
  | service (bytes : List Byte)
  /-- A result block or another write to host memory. -/
  | hostWrite (addr : Nat) (bytes : List Byte)
  /-- An MSI-X message (R423). -/
  | msix (vector : Nat)
  /-- A completion on the host link (Table 8.8). -/
  | cpl (tag : Nat) (st : CplStatus) (bytes : List Byte)
  /-- Data that answers a CXL.mem read: with Poison or not, and with its MetaField (R292). -/
  | cxlData (tag : Nat) (poison : Bool) (metaField : String) (bytes : List Byte)
  /-- A PCIe or CXL message, by name. -/
  | message (name : String) (arg : Nat)
  /-- What a die sends on DQ. -/
  | amc2 (ch d : Nat) (bytes : List Byte)
  /-- A frame of the trace port (R447). -/
  | trace (bytes : List Byte)
  /-- What a register read with an effect of its own returns (R420, R441, R161, R416). -/
  | regRead (off : Nat) (v : Nat)
  /-- An answer of the CXL mailbox: named fields, then records (R293-R295, log 45). -/
  | mailbox (st : MailboxStatus) (fields : List (String × Int)) (records : List (List Byte))
  /-- A level driven on a pin. -/
  | pin (name : String) (level : Bool)
  deriving DecidableEq, Repr

/-! ### Device state (01_architecture.md) -/

/-- DEV_STATE values (Table 1.13). -/
inductive DevState where
  | standby | powering | held | mounting | serving | maintenance | cinch | poweringDown | fault
  deriving DecidableEq, Repr

/-- The DEV block: the current and previous state and the count of transitions (Table 1.13), the unit ID, and
the flags that are state of their own (Table 1.14): READ_ONLY, SPACE_LOW, HOLDUP_DEGRADED. -/
structure Dev where
  state : DevState
  prev : DevState
  seq : BitVec 8
  unitId : BitVec 14
  readOnly : Bool
  spaceLow : Bool
  degraded : Bool
  deriving DecidableEq, Repr

/-! ### Tacks (R13-R21) -/

/-- Tack operation codes (Table 1.4). `lineOp` is an engine tack that touches a line only, for which the table has no code (log 67). -/
inductive TackOp where
  | hostRead | hostWrite | sectorFill | leafWriteback | segRead | segWrite | skvRead | skvProgram
  | burnishRead | scrubRead | refreshRead | refreshProgram | parityProgram | parityRead | erase
  | brandHist | brandWrite | weltWrite | weltRead | journalWrite | journalRead | prefetch | diagRead
  | bootRead | imageWrite | lineOp
  deriving DecidableEq, Repr

/-- Where a tack comes from: a context, or an engine of Table 1.3. -/
inductive Origin where
  | ctx (c : BitVec 12)
  | engine (e : BitVec 12)
  deriving DecidableEq, Repr

/-- Rein requesters in ticket-index order (Table 3.1). -/
inductive Rein where
  | hr1 | hr2 | map | wb | cin | skv | brn | drf | wlt | dia
  deriving DecidableEq, Repr

/-! ### Media, dies and channels (02_media_channels.md) -/

/-- The kinds of codeword (Table 2.6). -/
inductive CwKind where
  | hostData | mapSegment | welt | journal | firmware | bootRecord | brandRow | parity
  deriving DecidableEq, Repr

/-- A tack trailer (Table 2.6); DATA_CRC is a function of the data and stands in no field. -/
structure Trailer where
  leaf : BitVec 64
  ctx : BitVec 12
  kind : CwKind
  gen : BitVec 16
  progAge : Word
  addr : MediaAddr
  seq : Nat
  deriving DecidableEq, Repr

/-- A codeword on the medium: written with its data (in clear, with the key generation that enciphered it,
log 12) and trailer; written with raw bytes that came over the bus from elsewhere; a slot of row `row` of a brand group, which carries no codeword
(R123); or reading as any value (R69, R72). An unlisted codeword is erased. -/
inductive Cell where
  | written (data : Memory) (key : Option Nat) (trailer : Trailer)
  | raw (bytes : List Byte)
  | brand (row : Nat)
  | anyValue
  deriving DecidableEq, Repr

/-- The kinds of sense (Table 2.7). -/
inductive SenseKind where
  | page | soft | hist
  deriving DecidableEq, Repr

/-- A sense of one page of the planes of a mask (Table 2.8). -/
structure Sense where
  kind : SenseKind
  planes : BitVec 4
  block : Nat
  page : Nat
  delta : Nat
  deriving DecidableEq, Repr

/-- A completed sense: what its planes' slots held (keyed 8p + s; an unlisted slot is erased), the reference sets it sensed at by
plane, and the stamp of the cells' levels (log 11). What R63 sends is a function of these. -/
structure Sensed where
  sense : Sense
  cells : Tab Cell
  sets : Tab (List Nat)
  stamp : Nat
  deriving DecidableEq, Repr

/-- A program or an erase that a die runs or holds. -/
structure ArrayOp where
  erase : Bool
  planes : BitVec 4
  block : Nat
  page : Nat
  tmode : Nat
  deriving DecidableEq, Repr

/-- Die states (Table 2.13); `off` is a die without power or held in RESET_N. -/
inductive DieState where
  | por | rst | idle | sense | prog | erase | suspending | susp | off
  deriving DecidableEq, Repr

/-- A class G4 die as R59-R72 describe it. `op` is the program or erase that runs or is held. `bufs` is keyed 8p + s. -/
structure Die where
  st : DieState
  op : Option ArrayOp
  sense : Option Sense
  qSense : Option Sense
  qResume : Bool
  done : Option Sensed
  status1 : BitVec 8
  suspCount : Nat
  loadMap : BitVec 32
  loadAt : Option (Nat × Nat)
  bufs : Tab Cell
  refs : Tab (List Nat)
  odt : BitVec 2
  drive : BitVec 2
  fast : Bool
  index : BitVec 3
  trainBuf : List Byte
  tempHigh : Bool
  internal : Bool
  deriving DecidableEq, Repr

/-- What the controller keeps for a die: presence, the last observed state and temperature (Table 2.26) with the
polls since that temperature was read (R111), the program or erase the sequencer counts as running on it and its tack (R492), whether its STATUS is still to be
read, the timeout and INTERNAL history of the hour (R78, R83) in operating seconds, and whether the die is being initialised anew
after a reset (R78), with the reference sets it held then. -/
structure DieCtl where
  present : Bool
  online : Bool
  hot : Bool
  temp : Int
  readPolls : Option Nat
  seen : BitVec 4
  running : Option Nat
  awaiting : Bool
  outcome : Option Bool
  timedOutAt : Option Nat
  internalAt : Option Nat
  reinit : Option (Tab (List Nat))
  retired : Bool
  lost : Bool
  tempAtTraining : Option Int
  deriving DecidableEq, Repr

/-- The lifetime counts of a die's health record (Table 1.10). -/
structure Life where
  programs : Nat
  erases : Nat
  corrected : Nat
  ladder : Nat
  uncorrectable : Nat
  sequence : Nat
  deriving DecidableEq, Repr

/-- A housekeeping item of R492 that waits for a window. -/
inductive HkItem where
  | statusClear (d : Nat)
  | poll (d : Nat)
  | alertScan
  | rvalidScan
  | ardyScan
  | getTemp (d : Nat)
  deriving DecidableEq, Repr

/-- CH_STATE (Table 2.22). -/
inductive ChState where
  | off | reset | init | training | ready | retraining | offline | fault
  deriving DecidableEq, Repr

/-- A channel sequencer: state, CA mode, ALERT_N, the housekeeping items waiting with their ages in windows,
the conversion counts at its last bus CRC errors, the newest first (R81), the retraining attempt and whether one waits for the data
phase to end (R82), and the conversion count of the last one that a temperature asked for (R81). The converter's conversions,
50 µs apart (R353), are the clock. -/
structure Channel where
  st : ChState
  fast : Bool
  alertLow : Bool
  alertStuck : Bool
  hk : List (HkItem × Nat)
  crcErrors : List Nat
  retrainTry : Nat
  retrainWant : Bool
  tempTrain : Option Nat
  deriving DecidableEq, Repr


/-! ### Rein arbiters (03_channel_arbitration.md) -/

/-- The slot a channel is in (R67, R96): empty, empty though requests with no tickets were present (Table 3.2), dead,
or a data phase. -/
inductive SlotKind where
  | empty | starved | dead | data
  deriving DecidableEq, Repr

/-- A rein arbiter: LFSR (R92), loss counts and last hints by requester code (R95, R97), the draws since the
last guarded win up to 15 (R98), LAST_WINNER, the tack that owns the data phase and the winner that waits
for it to end, whether the draw of the running data slot has been made, the overrides (R99, R102) and the count of
suspensions of the L1 bound (R38). -/
structure Arb where
  lfsr : Word
  reseed : Bool
  losses : Tab Nat
  hints : Tab Nat
  sinceGuard : Nat
  lastWinner : Nat
  slot : SlotKind
  grant : Option Nat
  next : Option Nat
  nextSlot : SlotKind
  drawn : Bool
  skvRaised : Bool
  drfOvr : Bool
  unbound : Bool
  boundOff : Bool
  suspensions : Nat
  deriving DecidableEq, Repr

/-! ### Drift, thermal age and reading (04_drift_reading.md) -/

/-- The brand reads of a die under way (R125): the rows of its newest group still to be asked for, those whose BRAND_HIST runs, and
the histograms read. -/
structure BrandRun where
  toRead : List Nat
  waiting : List Nat
  rows : List (List Nat)
  deriving DecidableEq, Repr

/-- The drift state of one die. `counter`, `holding`, `cBrand`, `cLast` and `uApplied` are in 1/256 tick
(R109, R127), `holding` being the additions of R109 since power-up; `groups` counts the brand groups programmed since the last erase of block 1,039 (R49); `bandAt` is the
band at the last addition, and `measured` the brand age A of the last assessment (R127). -/
structure DieAge where
  counter : Nat
  holding : Nat
  restored : Bool
  groups : Nat
  cBrand : Nat
  cLast : Nat
  uApplied : Nat
  unpow : Nat
  provisional : Bool
  clamped : Bool
  assumed : Bool
  reassessed : Bool
  stale : Bool
  readable : Bool
  factor : Nat
  band : Nat
  bandAt : Nat
  measured : Option Nat
  brandState : BitVec 2
  brandRun : Option BrandRun
  deriving DecidableEq, Repr

/-- A learned-offset group (R120, R121): 15 offsets, 15 accumulators, decodes since the last update. -/
structure Learned where
  g : List Int
  e : List Int
  n : Nat
  deriving DecidableEq, Repr

/-- The scalar parts of a medium profile (Table 4.2); its tables are Config functions of `version`. -/
structure Profile where
  version : Nat
  factors : List Nat
  edges : List Nat
  delta5 : Nat
  delta6 : Nat
  ofsLimit : Nat
  refreshAge : Nat
  readLimit : Nat
  deriving DecidableEq, Repr

/-- A hole-list record (Table 4.4). -/
structure Hole where
  first : Nat
  count : Nat
  ctx : BitVec 12
  reason : Byte
  media : MediaAddr
  seconds : Nat
  unit : Word
  deriving DecidableEq, Repr

/-- The drift block: dies by channel × 8 + die, learned groups, the profile in force, the hole list, and what
the last mount knew of the dark time (R128), and the codewords that wait for one of the 24 decoders, in order of arrival
(R139). -/
structure Drift where
  dies : Tab DieAge
  learned : Tab Learned
  profile : Profile
  profileLoaded : Bool
  holes : List Hole
  holeFull : Bool
  fullSeconds : Nat
  listGen : Nat
  assessing : Bool
  reassessing : Bool
  pass1Done : Bool
  reassessQ : List Nat
  lastE : Option Nat
  darkSeconds : Option Nat
  storedWall : Option Nat
  wallUsed : Bool
  aonUsed : Bool
  brandMedian : Nat
  brandSpread : Nat
  ageLatch : Tab Nat
  decodeQ : List Nat
  deriving DecidableEq, Repr

/-! ### Tacks at work -/

/-- How far a media read has come: queued for its die, its sense running, ready for a data phase (R73), its
codeword at a decoder or waiting for one (R139), waiting for the other members of its stitch (R138). -/
inductive ReadPhase where
  | queued | sensing | ready | decoding | stitch
  deriving DecidableEq, Repr

/-- One media read (R134-R146): where, its ladder step and what step 4 found, its CRC repeats (R77), whether
the read started without a predicted age (R146), whether it has waited for a program or erase of its die to end (R140),
and the trailer its codeword must carry (R51). `rest` are the codewords that a SEG_READ reads after this one (R181). `members` are
the positions of its stitch row that step 7 has still to ask for, and `lost` those whose reads failed (R138). -/
structure MediaRead where
  addr : MediaAddr
  phase : ReadPhase
  hist : Bool
  histTaken : Option (List Nat)
  noAge : Bool
  repeats : Nat
  waited : Bool
  ctx : BitVec 12
  leaf : BitVec 34
  rest : List MediaAddr
  members : List Nat
  lost : BitVec 18
  deriving DecidableEq, Repr

/-- A host request, or the piece of it in one leaf that a tack serves (R281-R289): its tag and the bytes asked for, or
the bytes written. `poison` marks a read already answered with poison, `outside` one that an activation pause has held (R149). `posted` is
false for a write of the device's own; the pieces of a write share `id` and the address `whole` of their request. -/
structure HostReq where
  write : Bool
  addr : HostAddr
  len : Nat
  tag : BitVec 14
  data : List Byte
  poison : Bool
  cxl : Bool
  ev : AccessEv
  outside : Bool := false
  posted : Bool := true
  id : Nat := 0
  whole : HostAddr := 0
  deriving DecidableEq, Repr

/-- One codeword of a page program (R76): its data, key generation and trailer leaf. -/
structure PageCw where
  data : Memory
  key : Option Nat
  leaf : BitVec 64
  ctx : BitVec 12
  kind : CwKind
  gen : BitVec 16
  deriving DecidableEq, Repr

/-- A leaf that a stream offers for a member program (R210): its data with the key generation that enciphered it, SUB of
its LEAF_MAP (0 write-back, 1 skiver, 2 refresh), the address and generation a copy came from, the LEAF_WRITEBACK that
offers it, and whether a flush waits on it. -/
structure Offer where
  leaf : Nat
  ctx : BitVec 12
  data : Memory
  key : Option Nat
  sub : Nat
  source : Option (MediaAddr × BitVec 16)
  tack : Option Nat
  flush : Bool
  deriving DecidableEq, Repr

/-- What a page program is for, and so what follows from its end: leaves of a stitch member's stream, a parity row,
segment images, a journal page, a page of a welt image, a row of a brand group, a page of a firmware copy or a boot record at a boot
position, a page of a copy being renewed; or the erase of a die-block, or of a plane-block of the system band. `second` names the mirror, or Q. -/
inductive ProgFor where
  | leaves (stitch member : Nat)
  | parity (stitch : Nat) (row : Nat) (second : Bool)
  | segments (ids : List Nat) (second : Bool)
  | journal (jseq : Nat) (second : Bool)
  | welt (page : Nat) (second : Bool)
  | brand (die row : Nat)
  | image (pos page : Nat)
  | boot (pos : Nat)
  | renew (page : Nat)
  | erase (db : Nat)
  | eraseSystem (db : Nat)
  deriving DecidableEq, Repr

/-- A page program of a die-block page (R76): its codewords and the leaves they carry by slot 8p + s, the groups of one block index each that are
still to program, in ascending order (R207), the LOADs done, whether START of the first group was sent, whether
one was rejected, whether its next LOAD is encoded and held (R89, R95), and PROG_AGE and PROG_SEQ as the first codeword fixed them
(R113). -/
structure Program where
  die : Nat
  page : Nat
  cws : Tab PageCw
  offers : Tab Offer
  groups : List (Nat × List Nat)
  loaded : BitVec 32
  started : Bool
  rejected : Bool
  encoded : Bool
  stamp : Option (Nat × Nat)
  what : ProgFor
  deriving DecidableEq, Repr

/-- What a tack waits for: nothing (it is at its media read or program), an earlier tack of its leaf (R21), earlier
completions of its request (R281), the rebuild of a directory line, a segment, a
way of its set, the write-back of the victim in a way, fills of its line, the activation pause, the commit of
write-through writes, or the program and the map switch of its leaf. -/
inductive TackWait where
  | none | leaf | order | dirLine (line : Nat) | segment (seg : Nat) | way | victim (key : Nat) | fill | pause | commit | program
  | switch
  deriving DecidableEq, Repr

/-- A tack slot in use (R13-R18). `serial` orders births (R21); `rein` is the requester
it stands for outside CINCH (R14); `parent` is the tack a CHILD serves; `outside` marks a read outside the conditions of
R149. -/
structure Tack where
  draining : Bool
  serial : Nat
  origin : Origin
  unit : BitVec 14
  op : TackOp
  cls : BitVec 2
  rein : Option Rein
  deadline : Nat
  leaf : BitVec 34
  retry : Nat
  flags : BitVec 24
  req : Option HostReq
  rd : Option MediaRead
  pg : Option Program
  wait : TackWait
  parent : Option Nat
  losses : Nat
  senses : Nat
  media : MediaAddr
  owner : Option Nat
  outside : Bool
  deriving DecidableEq, Repr

/-! ### Block life (06_block_life.md) -/

/-- Plane-block states (Table 6.1). -/
inductive PbSt where
  | free | erasePending | opened | closed | burnished | map | victim | retired | system | reserve
  deriving DecidableEq, Repr

/-- A plane-block record (Table 6.1). `flags` has PARITY, REMAPPED, REFRESH_QUEUED, FORCED, COPY_STREAM, SEALED,
BURNISH_FAIL in bits 0-6; `member` is 16 for P and 17 for Q. -/
structure PbRec where
  erases : Nat
  st : PbSt
  flags : BitVec 8
  openAge : Nat
  closeAge : Nat
  lastPage : Option Nat
  link : Nat
  valid : Nat
  stitch : Option Nat
  member : Option Nat
  corrMax : Nat
  reason : Nat
  deriving DecidableEq, Repr

/-- STATE of a stitch (Table 6.2); EMPTY is an unlisted slot. -/
inductive StitchSt where
  | filling | closed | burnishing | releasing
  deriving DecidableEq, Repr

/-- A stitch (Table 6.2): die-blocks by position (die × 2,048 + block), pages programmed by position, the members
still open, their order of last program (oldest first), the parity rows programmed (bit 0 P, bit 1 Q), and the rows whose last
member page a REFRESH_PROGRAM wrote (R14), and whether mount sealed it, so that rows without parity stay bare (R214). -/
structure Stitch where
  seq : Nat
  st : StitchSt
  copy : Bool
  sealed : Bool
  pLost : Bool
  qLost : Bool
  passMask : BitVec 16
  positions : Tab Nat
  lastPage : Tab Nat
  openMask : BitVec 16
  order : List Nat
  rows : Tab (BitVec 2)
  refreshRows : List Nat
  bare : Bool
  deriving DecidableEq, Repr


/-! ### Translation (05_translation.md) -/

/-- Leaf states (Table 5.2). -/
inductive LeafSt where
  | unmapped | zero | mapped | poisoned
  deriving DecidableEq, Repr

/-- A leaf entry (Table 5.2). -/
structure LeafEntry where
  st : LeafSt
  gen : BitVec 16
  hole : Bool
  addr : MediaAddr
  deriving DecidableEq, Repr

/-- SEG_STATE (Table 5.3). -/
inductive SegSt where
  | absent | inMedia | resident
  deriving DecidableEq, Repr

/-- A directory entry (Table 5.3). -/
structure DirEntry where
  ctx : BitVec 12
  st : SegSt
  pinned : Bool
  dirty : Bool
  loc : BitVec 36
  deriving DecidableEq, Repr

/-- Slot states of the segment cache (R179); FREE is an unlisted slot. -/
inductive SlotSt where
  | loading | clean | dirty | writing
  deriving DecidableEq, Repr

/-- A segment-cache slot with its tag (R179): leaf entries by leaf in segment. -/
structure SegSlot where
  index : Nat
  st : SlotSt
  firstDirty : Option Nat
  imageRseq : Nat
  primary : MediaAddr
  mirror : MediaAddr
  leaves : Tab LeafEntry
  deriving DecidableEq, Repr

/-- A segment image on the medium (R166): its directory index, context, image count and leaf entries. -/
structure SegImage where
  index : Nat
  ctx : BitVec 12
  count : Nat
  leaves : Tab LeafEntry
  deriving DecidableEq, Repr

/-- Journal records (Table 5.5). -/
inductive JRec where
  | leafMap (sub : Nat) (ctx : BitVec 12) (leaf : Nat) (gen : BitVec 16) (new : MediaAddr) (old : Option MediaAddr)
  | leafState (sub : LeafSt) (ctx : BitVec 12) (first : Nat) (count : Nat) (reason : Byte)
  | segLoc (ctx : BitVec 12) (seg : Nat) (primary : MediaAddr) (mirror : MediaAddr) (imageRseq : Nat) (dropped : Bool)
  | granule (sub : Nat) (ctx : BitVec 12) (first : Nat) (count : Nat)
  | block (sub : Nat) (die : Nat) (index : Nat) (planes : BitVec 4) (use : Nat) (erases : List Nat)
  | weltMark (seq : Nat) (set : Nat)
  | weltDone (seq : Nat) (set : Nat)
  | age (die : Nat) (counter : Nat)
  | openPtr (die : Nat) (index : Nat) (page : Nat)
  | deltaEnd (count : Nat)
  deriving DecidableEq, Repr

/-- A closed journal page (R185, R188): its records in order and which of its copies have programmed. -/
structure JPage where
  jseq : Nat
  epoch : Nat
  weltSeq : Nat
  recs : List JRec
  primary : Bool
  mirror : Bool
  deriving DecidableEq, Repr

/-- A map change that waits for the updater (R171, R187): a programmed leaf with its new address, SUB of LEAF_MAP, the
generation and address it was copied from (none for a write-back), and the tack it completes. -/
structure MapItem where
  leaf : Nat
  ctx : BitVec 12
  addr : MediaAddr
  sub : Nat
  source : Option (MediaAddr × BitVec 16)
  tack : Option Nat
  deriving DecidableEq, Repr

/-- Segment images under way to the medium (R167, R184): the image, where its two copies go, and which have programmed. -/
structure SegWr where
  image : SegImage
  imageRseq : Nat
  oldFirst : Option Nat
  primary : MediaAddr
  mirror : MediaAddr
  doneA : Bool
  doneB : Bool
  deriving DecidableEq, Repr

/-- What the drift state region of a welt holds for a die (Table 5.8). -/
structure WeltAge where
  counter : Nat
  cBrand : Nat
  groups : Nat
  assumed : Bool
  clamped : Bool
  uLast : Nat
  deriving DecidableEq, Repr

/-- The contents of a welt image (Tables 5.6 to 5.8); `gone` gives the dies that have left service and the reason of their plane-blocks. -/
structure Welt where
  seq : Nat
  setB : Bool
  clean : Bool
  holeFull : Bool
  markRseq : Nat
  replayFrom : Nat
  opSeconds : Nat
  progSeq : Nat
  fullSeconds : Nat
  dir : Tab DirEntry
  segTable : Tab (MediaAddr × Nat)
  pbs : Tab PbRec
  stitches : Tab Stitch
  stitchSeq : Nat
  mapFill : Tab (Nat × Nat)
  gone : Tab Nat
  pins : List Nat
  holes : List Hole
  ages : Tab WeltAge
  learned : Tab Learned
  deriving DecidableEq, Repr

/-- A search of the map for the leaf of a codeword that a read for an engine has lost (R143): the address, the reason for the hole list, the
tack that read it, and the segments still to be looked at. -/
structure Search where
  addr : MediaAddr
  reason : Nat
  tack : Nat
  rest : List Nat
  deriving DecidableEq, Repr

/-- A welt under way (R193): waiting for segments that step 1 writes; or its image, with the die-blocks of its set still to be erased and,
by die, the next program of the image and the die-page that it takes. -/
inductive WeltRun where
  | segments (ids : List Nat) (clean : Bool)
  | image (w : Welt) (erasing : List Nat) (streams : Tab (Nat × Nat))
  deriving DecidableEq, Repr

/-- An entry of the directory error table (R177). -/
structure DirErr where
  line : Nat
  count : Nat
  first : Nat
  deriving DecidableEq, Repr

/-- A spare directory line: the line it holds, and whether it is BAD (R177). -/
structure Spare where
  line : Option Nat
  bad : Bool
  deriving DecidableEq, Repr

/-- Translation. `dir` lists entries that are not unbound; `images` and `welts` and the copies of `pages` stand on the
medium; `ring` is keyed ((stream × 2 + copy) × 4096 + page) with the JSEQ each page holds, and `ringAt` the next page of
each ring; `poisons` are leaves to be poisoned once their segments are read, with the reason and the address that was lost; `unread` are the
journal page copies (2 × JSEQ + copy) that mount could not decode; `mapFill` gives the open map-area die-block of a die and its next page. -/
structure Xlat where
  dir : Tab DirEntry
  dirUp : Bool
  badLines : List Nat
  errs : List DirErr
  spares : Tab Spare
  remapFull : Bool
  peekOk : Bool
  peek : Nat
  peekWord : Nat
  slots : Tab SegSlot
  clock : Nat
  segTable : Tab (MediaAddr × Nat)
  images : Tab SegImage
  imageCount : Tab Nat
  segWrites : Tab SegWr
  pins : List Nat
  pinsDue : List (Nat × Bool)
  queue : List MapItem
  void : List Nat
  poisons : List (Nat × Nat × Option MediaAddr)
  unread : List Nat
  searches : List Search
  mapped : Nat
  jHead : Nat
  jRecs : List JRec
  jFlush : Bool
  jCommit : Option Nat
  epoch : Nat
  pages : List JPage
  ring : Tab Nat
  ringAt : Tab Nat
  markRseq : Nat
  sinceMark : Nat
  mapFill : Tab (Nat × Nat)
  weltSeq : Nat
  weltDue : Bool
  run : Option WeltRun
  welts : List Welt
  chosen : Option Welt
  fallback : Bool
  unclean : Bool
  deltaUsed : Bool
  deriving DecidableEq, Repr

/-- A skiver or refresh job on a die-block (R220, R224): its codewords still to read, those whose reads run or whose
copies have not yet switched, and the RSEQ of the last LEAF_MAP. -/
structure Job where
  db : Nat
  refresh : Bool
  toRead : List Nat
  waiting : List Nat
  rseq : Option Nat
  deriving DecidableEq, Repr

/-- The burnish or scrub reads of a die-block (R216, R225): its codewords still to read, those whose reads run, and the planes on
which one failed. -/
structure ReadRun where
  db : Nat
  toRead : List Nat
  waiting : List Nat
  bad : BitVec 4
  deriving DecidableEq, Repr

/-- A copy of the system band that is renewed or rewritten (R225, R467): its die-block, the reads that verify it, its pages once they are known, and
the page that is programmed next. -/
structure Renew where
  db : Nat
  run : ReadRun
  pages : Tab (Tab PageCw)
  next : Nat
  deriving DecidableEq, Repr

/-- Totals of a wear snapshot (R234). -/
structure Wear where
  opSeconds : Nat
  wall : Option Nat
  erases : Nat
  hostPages : Nat
  copyPages : Nat
  refreshPages : Nat
  retired : Nat
  dropped : Nat
  deriving DecidableEq, Repr

/-- A unit that a retirement empties or a fault salvages (R228): its level, first die and count of dies, the leaves lost with it so far,
and the segments that the sweep has still to read, once it has begun. -/
structure Leaving where
  level : Nat
  first : Nat
  count : Nat
  fault : Bool
  holes : Nat
  sweep : Option (List Nat)
  deriving DecidableEq, Repr

/-- Block life: plane-block records by address [35:13], stitch slots, the streams' offers, jobs, forced victims and the
refresh queue, the order BURNISH_NOW sets, members whose burnish reads have been issued (by stitch × 16 + member), die-blocks whose scrub reads have been (by number), die-blocks
whose erase has been issued, the system copy under renewal, whether unlisted pool plane-blocks are ERASE_PENDING (R390), space credits, and the wear totals. Die-blocks are
numbered die × 2,048 + block. -/
structure Blocks where
  pbs : Tab PbRec
  stitches : Tab Stitch
  stitchSeq : Nat
  hostOffers : List Offer
  copyOffers : List Offer
  jobs : List Job
  forced : List Nat
  refreshQ : List Nat
  blank : Bool
  burnishFirst : List Nat
  burnishing : Tab ReadRun
  scrubbing : Tab ReadRun
  erasing : List Nat
  leaving : List Leaving
  scrubPos : Nat
  credits : Nat
  skiving : Bool
  dropped : Nat
  totals : Wear
  snapshots : List Wear
  renew : Option Renew := none
  deriving DecidableEq, Repr

/-! ### Line cache (07_line_cache.md) -/

/-- A line (R239-R242): its leaf and context, the tag's LOCKED, WT, WB_BUSY and REDIRTY, the VALID, DIRTY and POISON
bits of its 64 sectors, and its bytes. DIRTY, FULL and POISONED of the tag are functions of the sector bits. `named`
marks a line that CLEAN, INVALIDATE, a drain or a victim's replacement names for write-back (R251); `bad` the sectors whose stored
bytes the code cannot correct, until someone reads them (R245). -/
structure Line where
  leaf : Nat
  ctx : BitVec 12
  locked : Bool
  wt : Bool
  wbBusy : Bool
  redirty : Bool
  valid : BitVec 64
  dirty : BitVec 64
  poison : BitVec 64
  data : Memory
  named : Bool
  bad : BitVec 64
  deriving DecidableEq, Repr

/-- An operation of the range engine (Table 7.6, R256): the leaves left, the counts of Table 7.7, and the command that asked for
it. -/
structure RangeOp where
  op : Nat
  ctx : BitVec 12
  next : Nat
  last : Nat
  includeLocked : Bool
  leaves : Nat
  written : Nat
  skipped : Nat
  lockFull : Nat
  dropped : Nat
  cmd : Option Nat
  deriving DecidableEq, Repr

/-- Who waits for a media commit: a write of a write-through context, the withheld credit of a write (R265), a range
operation, a flush; a command by its number. -/
inductive CommitFor where
  | write
  | credit (id : Nat) (addr : HostAddr) (cxl : Bool)
  | range | gpf | cmd (id : Nat)
  deriving DecidableEq, Repr

/-- A wait for the media commit of a leaf (R188, R249, R262): the serial number at which it began, whether a snapshot
covers it, and the RSEQ of the LEAF_MAP that does. -/
structure Commit where
  serial : Nat
  ctx : BitVec 12
  leaf : Nat
  snap : Bool
  rseq : Option Nat
  owner : CommitFor
  deriving DecidableEq, Repr

/-- The line cache: lines by set × 16 + way, the LFSR, the dirty list from its head, whether its head has reached
WB_AGE_MS, the drain, the ceiling and its flags, the range engine, a flush in progress, the waits for media commits, the
host requests not yet born in arrival order, and whether a cinch still accepts writes and starts host senses
(Table 7.8), or an activation pause holds requests (Table 8.6). -/
structure Cache where
  lines : Tab Line
  lfsr : BitVec 16
  dirtyList : List Nat
  ageDue : Bool
  enabled : Bool
  draining : Bool
  disableWaits : Bool
  ceiling : Nat
  ceilFloored : Bool
  rng : Option RangeOp
  rngQueue : List RangeOp
  rngOp : Nat
  skipped : Nat
  lockFull : Nat
  gpf : Bool
  gpfLate : Bool
  commits : List Commit
  requests : List HostReq
  frozen : Bool
  pause : Bool
  deriving DecidableEq, Repr

/-! ### Contexts, keys and harnesses (09_contexts_harness.md) -/

/-- KEY_STATE (Table 9.1). -/
inductive KeyState where
  | none | empty | loaded | destroyed
  deriving DecidableEq, Repr

/-- A context entry (Table 9.1). GRANULES and PINNED are counts of the directory, and BUSY
shows in the commands in progress. -/
structure Ctx where
  valid : Bool
  cls : BitVec 2
  ticket : Bool
  wt : Bool
  rdOnly : Bool
  zeroOnUnmap : Bool
  enc : Bool
  key : KeyState
  sweep : Bool
  generation : Nat
  late : Nat
  poison : Nat
  refused : Nat
  deriving DecidableEq, Repr

/-- Slot classes of a leader's mailbox (Table 9.7). -/
inductive SlotClass where
  | empty | present | dark | lost
  deriving DecidableEq, Repr

/-- What a leader knows of a slot: its class, the SEQUENCE last read and for how many reads it has not changed, the last
valid record and the operating second at which it was accepted. -/
structure MemberSlot where
  cls : SlotClass
  seq : Nat
  same : Nat
  record : List Byte
  accepted : Nat
  deriving DecidableEq, Repr

/-- The harness (Tables 9.5, 9.9): the join, the push under way (its SEQUENCE) and the push counts, whether the device
pushes no more (R317), the leader's slots, and whether a read of the mailbox is under way (R319). -/
structure Harness where
  role : BitVec 2
  parent : BitVec 64
  mailbox : Nat
  leaderLost : Bool
  mailboxLost : Bool
  pushFails : Nat
  pushes : Nat
  lastPush : Nat
  pushing : Option Nat
  silent : Bool
  reading : Bool := false
  slots : Tab MemberSlot
  deriving DecidableEq, Repr

/-! ### Queues and commands in progress (10_command_packets.md) -/

/-- QSTATUS STATE (Table 10.2). -/
inductive QState where
  | idle | running | stopping | error
  deriving DecidableEq, Repr

/-- A queue pair (Table 10.2): its registers, its heads, tails and phase, the completions that wait to be posted in
sequence order (each with the NO_IRQ of its packet), and the completions posted since the last message (R335). -/
structure Queue where
  sqBase : Nat
  cqBase : Nat
  sqLast : Nat
  cqLast : Nat
  st : QState
  lock : Bool
  lockCtx : Nat
  weight : Nat
  intEn : Bool
  vector : Nat
  coalUs : Nat
  coalCount : Nat
  fetchErr : Bool
  dbErr : Bool
  cfgErr : Bool
  sqHead : Nat
  sqTail : Nat
  cqHead : Nat
  cqTail : Nat
  phase : Bool
  ready : List (List Byte × Bool)
  unsent : Nat
  deriving DecidableEq, Repr

/-- How far a command in progress has come: fetched, or what it waits for: the commit of a record; the media commits it
began; the range engine; leaves to set UNMAPPED or ZERO, granules to unbind, a run of granules one of whose directory lines is being rebuilt, the tacks born before a crypto-erase (by the serial
number at which it began); resident segments; the drain; die-blocks still to scrub, to refresh, or members to burnish; a
unit; a measurement; the receive FIFO; verification; an activation; the shutdown path; a push; the read of the mailbox; the pages of a chunk; the rails of an octet. -/
inductive CmdStep where
  | fetched
  | journal (rseq : Nat)
  | commits
  | range
  | leaves (zero : Bool) (first last : Nat)
  | unbind (gs : List Nat)
  | sweep (serial : Nat)
  | poison (gs : List Nat)
  | held (first count : Nat)
  | segments (gs : List Nat)
  | drain
  | scrub (dbs : List Nat)
  | refresh (dbs : List Nat)
  | burnish (members : List Nat)
  | retire (level first count : Nat)
  | measure
  | fifo
  | verify
  | activate
  | shutdown
  | push
  | leader
  | image
  | rails (octet : Nat)
  deriving DecidableEq, Repr

/-- A command in progress (R326): its number, where it came from, its packet, whether its completion is posted (R324,
R338), how far it is, the counts its result reports and the status it will carry. -/
structure Cmd where
  id : Nat
  port : Port
  pkt : Packet
  posts : Bool
  step : CmdStep
  done : Nat
  holed : Nat
  code : Nat
  deriving DecidableEq, Repr

/-- The queues and the commands in progress, the oldest first; the sequences assigned since the power-cycle count changed
(R332), the round-robin place (R326), and the command that stops all fetching (R345). -/
structure Cmdq where
  queues : Tab Queue
  cmds : List Cmd
  nextId : Nat
  seqs : Nat
  turn : Nat
  turnLeft : Nat
  stopped : Option Nat
  deriving DecidableEq, Repr


/-! ### Power (11_power.md) -/

/-- Where the sequencing of rails waits: in the power-up of Table 11.3 for the bulk bus, a device rail, VMED or (`q`) VMEDQ of
an octet (which RESTORE_UNIT sequences too, R362); in the power-down of Table 11.4 for the rail of a slot to be off. -/
inductive UpStep where
  | none
  | bulk
  | rail (i : Nat)
  | med (k : Nat) (q : Bool)
  | down (slot : Nat)
  deriving DecidableEq, Repr

/-- How far a bank measurement is (R365-R367): waiting for the dirty level, draining the bank, charging through its
window, waiting for the conversion without current. -/
inductive MeasStep where
  | dirty | drain | charge | rest
  deriving DecidableEq, Repr

/-- A bank measurement: in service or at power-up, its window in mV, the crossings in units of 50 µs and mV fractions
(numerator over the mV between the two conversions), the conversion at which CHG_EN fell, and the energy figure before it. -/
structure Meas where
  step : MeasStep
  inService : Bool
  windowB : Bool
  t1 : Option (Nat × Nat × Nat)
  t2 : Option (Nat × Nat × Nat)
  vb : Nat
  prevE : Nat
  deriving DecidableEq, Repr

/-- Why a cinch runs. -/
inductive CinchWhy where
  | pfw | heat | fault
  deriving DecidableEq, Repr

/-- How far a cinch is (Table 7.8): accepting, writing back, parity, journal, delta. -/
inductive CinchStep where
  | accept | writeback | parity | journal | delta
  deriving DecidableEq, Repr

/-- A cinch: why it runs, the DEV_FAULT cause of a fault before or during it (R33), its step, and the RSEQ of the delta. -/
structure Cinch where
  why : CinchWhy
  fault : Option Nat
  step : CinchStep
  deltaRseq : Option Nat
  deriving DecidableEq, Repr

/-- The clean shutdown (R392, R393): not begun; its path running, with host writes refused, up to the final push; the final push
sent; its parameter-store writes done; brand groups being written, with the dies still to begin; its welt under way; held. -/
inductive Shutdown where
  | none | running | pushed | noted
  | brand (dies : List Nat)
  | welt | held
  deriving DecidableEq, Repr

/-- The power steward (R348-R376) and the AON island: the sequence, requests, enables by converter slot, the converter, the
bank, a fault that waits for the die programs already issued to end (Table 1.15), the rails outside their window at their last conversion and those that timed out at this power-up, whether a measurement waits for pass 2 (R366), the cinch and shutdown, the AON seconds, whether no AON reset has fallen since the last entry to STANDBY (R128), the wall time in seconds with the
AON seconds at which it arrived and whether it arrived since the last power-up (R128, R133), and loss of lock. Its registers' own bits stand in `regs`. -/
structure Power where
  up : UpStep
  shelfEn : Bool
  offLatch : Bool
  offAsked : Bool
  onPending : Bool
  critLock : Bool
  pathMain : Bool
  pathHold : Bool
  chg : Bool
  pfwLive : Bool
  pfwLow : Bool
  aonBack : Bool
  rails : List Nat
  adc : Tab Nat
  adcSlot : Nat
  holdNext : Bool
  outside : List Nat
  timedOut : List Nat
  conv : Nat
  lastHold : Option (Nat × Nat)
  overvolt : Bool
  meas : Option Meas
  measuredAt : Option Nat
  measFlags : BitVec 7
  measDue : Bool
  bankC : Nat
  bankEsr : Nat
  bankE : Nat
  tempCeiling : Bool
  octetOff : BitVec 12
  cutCause : Nat
  aonSeconds : Nat
  dark : Nat
  elapsedOk : Bool
  wall : Option (Nat × Nat)
  wallFresh : Bool
  pllLost : Bool
  faultWait : Option Nat
  cinch : Option Cinch
  shutdown : Shutdown
  deriving DecidableEq, Repr


/-! ### Start-up and firmware slots (12_startup.md, 16_firmware_update.md) -/

/-- How far a wake has come in MOUNTING (Table 12.1): waiting for the boot loader, an attempt under way, booted, the welt
loaded, pass 1 done, the journal replayed. -/
inductive MountStep where
  | none | boot | attempt | ready | welt | pass1 | replayed
  deriving DecidableEq, Repr

/-- STAGE_STATE (Table 16.5). -/
inductive StageSt where
  | empty | header | receiving | verifying | staged | activating
  deriving DecidableEq, Repr

/-- A firmware copy being written at a boot position (R462, R463): its block, whether that is erased, the pages programmed, and whether it has
been rewritten after verification. -/
structure ImgCopy where
  block : Nat
  erased : Bool
  pages : Nat
  again : Bool
  deriving DecidableEq, Repr

/-- A firmware slot: the header of its image, its length, the positions whose boot record names a good copy, and their blocks by
position. -/
structure ImgSlot where
  header : List Byte
  len : Nat
  copies : BitVec 4
  blocks : Tab Nat := []
  deriving DecidableEq, Repr

/-- Firmware staging and slots (R460-R467): the state, the bytes received, the header as far as received, the positions
written, the last sub-reason and the outcome of the last activation; GEN of the
boot record of each position, and the positions whose record is to be written once more; the die-blocks of copies that failed their digest (R389); the bytes of the page not complete yet, the whole pages held by number, how many pages there are, and the copies by position; the
header that the profile blocks hold (none: that of manufacture), the block that holds each one and its die-pages, and the positions where it is still to be
rewritten. -/
structure Images where
  st : StageSt
  slot : Nat
  received : Nat
  header : List Byte
  writing : BitVec 4
  reason : Nat
  lastActivation : Nat
  slots : Tab ImgSlot
  bootGen : Tab Nat
  bootTodo : List Nat := []
  badCopies : List Nat := []
  page : List Byte := []
  pages : Tab (List Byte) := []
  formed : Nat := 0
  copies : Tab ImgCopy := []
  profHeader : Option (List Byte) := none
  profBlock : Tab (Nat × Nat) := []
  profTodo : List Nat := []
  deriving DecidableEq, Repr

/-- The boot sequencer: how far the wake is, the slot that runs or is being booted, whether PREVIOUS was tried since the last
success (R388), the board description in force (R379), none in HELD, and that of the last power-up, whose link settings govern until the next one
(R274). -/
structure Boot where
  step : MountStep
  slot : Nat
  triedPrevious : Bool
  bd : Option (List Byte)
  linkBd : Option (List Byte)
  deriving DecidableEq, Repr

/-- The bus a service transaction last used (Table 16.9). -/
inductive SvcBus where
  | idle | smbus | i3c
  deriving DecidableEq, Repr

/-- The service port (R451-R456): addresses, the endpoint ID, the receive FIFO with the END tag of each byte, the bytes that
the consuming command has taken, and that command. -/
structure Svc where
  bus : SvcBus
  dyn : BitVec 7
  eid : Byte
  fifo : List (Byte × Bool)
  overflow : Bool
  taken : List Byte
  consumer : Option Nat
  deriving DecidableEq, Repr


/-! ### Parameter store and event recorder (13_nv_store_events.md) -/

/-- One stored copy of a record (Table 13.2): valid, or present with bytes that fail R400. An absent copy
is empty. -/
inductive StoreCopy where
  | valid (seq : Nat) (payload : List Byte)
  | torn
  deriving DecidableEq, Repr

/-- One item of a store journal entry (Table 13.4): the record, its copy and the sequence number written
(0 for an erase item). -/
structure SItem where
  id : Nat
  copy : Nat
  newSeq : Nat
  deriving DecidableEq, Repr

/-- A store journal entry whose group 7 was written: OPEN until it is DONE (R404). -/
structure SEntry where
  opSeq : Nat
  erase : Bool
  items : List SItem
  opened : Bool
  deriving DecidableEq, Repr

/-- An event on its way to the recorder: severity follows from the code (Table 13.8). -/
structure Event where
  code : Nat
  path : Word
  params : List Byte
  tack : BitVec 16
  deriving DecidableEq, Repr

/-- An event record as the store holds it (Table 13.6); `valid` is the VALID half-word and `bad` marks the groups
that read flagged uncorrectable (R398). -/
structure EvRec where
  opSeconds : Nat
  cycles : Nat
  path : Word
  code : Nat
  params : List Byte
  repeats : Nat
  tack : BitVec 16
  valid : Nat
  bad : BitVec 4
  deriving DecidableEq, Repr

/-- The parameter store and the event recorder. `copies` is keyed 2 × record ID + copy; `evlog` holds the
records by index, `evCount` is EVT_COUNT; `ports` holds the 16 port queues of R407; `wallKept` tells that the wall time was stored in the powered period that runs or
ended last (R128). -/
structure Store where
  copies : Tab StoreCopy
  journal : Tab SEntry
  opSeq : Nat
  evlog : Tab EvRec
  evCount : Nat
  evOverflow : Nat
  evOverflowDirty : Bool
  ports : Tab (List Event)
  nextPort : Nat
  opSeconds : Nat
  powerCycles : Nat
  bootAction : BitVec 2
  opsCompleted : Nat
  opsRolledBack : Nat
  wearNext : Nat
  wallKept : Bool
  deriving DecidableEq, Repr

/-! ### Interrupts and thermal management (14_interrupts_thermal.md) -/

/-- One route of a source (R418, R419): the edge it remembers, its active bit, and the target that holds the
active bit. -/
structure Route where
  prio : Nat
  target : Nat
  edge : Bool
  active : Bool
  activeAt : Nat
  deriving DecidableEq, Repr

/-- One target (R420, Table 14.5): running priority, saved priorities, notification, vector. -/
structure Target where
  runPrio : Nat
  stack : List Nat
  enable : Bool
  vector : Nat
  notified : Bool
  eoiErr : Bool
  deriving DecidableEq, Repr

/-- The interrupt controller. Routes are keyed by source ID, targets by number. -/
structure Intc where
  host : Tab Route
  core : Tab Route
  targets : Tab Target
  coreTargets : Tab Target
  deriving DecidableEq, Repr

/-- Thermal management (R427-R437). Temperatures are in 1/16 °C; `refreshDue` lists the DRAM stacks that refresh every 16 ms
(R435). -/
structure Therm where
  warn : Bool
  throttle : Bool
  warnRun : Nat
  throttleRun : Nat
  fallback : Bool
  diodeMode : Bool
  fast : Bool
  accepted : Bool
  critPowerDown : Bool
  junction : Int
  diode : Int
  sensors : List Int
  suspects : List Nat
  dramTemp : Tab Int
  dramBand : Tab Nat
  refreshDue : List Nat
  deriving DecidableEq, Repr

/-! ### Observation (15_observation.md) -/

/-- The five slot counters of a channel, in CK (R442). -/
structure SlotCnt where
  elapsed : Nat
  retired : Nat
  wasted : Nat
  front : Nat
  back : Nat
  deriving DecidableEq, Repr

/-- What a sample or trace record takes from a retired tack (Tables 15.3, 15.4). -/
structure Retired where
  header : BitVec 128
  hostAddr : HostAddr
  ctx : BitVec 16
  media : MediaAddr
  losses : Nat
  senses : Nat
  deriving DecidableEq, Repr

/-- A programmable counter (R439-R441): its CFG and FLT registers, its 48-bit count, RELOAD, and the bits that
the last read of CNT_LO captured. -/
structure ObsCnt where
  cfg : Nat
  flt : Nat
  count : Nat
  reload : Nat
  capture : Nat
  deriving DecidableEq, Repr

/-- Observation: the 16 counters, slot counters and shadows, the sample ring and the entries that wait for a
DRAM cycle, and the trace queue. -/
structure Obs where
  counters : Tab ObsCnt
  slots : Tab SlotCnt
  shadows : Tab SlotCnt
  snapValid : Bool
  births : Nat
  ring : Tab (List Byte)
  head : Nat
  tail : Nat
  waiting : List Retired
  trace : List (Byte × List Byte)
  traceSeq : BitVec 8
  traceTimeDue : Bool
  traceLost : Nat
  deriving DecidableEq, Repr

/-! ### Host port (08_host_port.md) -/

/-- A committed HDM decoder (R292): the host physical address it begins at, the DPA base and the size of its DPA range, the interleave
ways and granularity. -/
structure Hdm where
  hpa : BitVec 64
  base : BitVec 64
  size : BitVec 64
  ways : Nat
  gran : Nat
  deriving DecidableEq, Repr

/-- The registers of Advanced Error Reporting (R291; PCI Express): the uncorrectable and correctable status and mask bits, the severity,
the first error pointer and the Header Log. -/
structure Aer where
  uncStatus : Word
  uncMask : Word
  uncSeverity : Word
  corStatus : Word
  corMask : Word
  first : Option Nat
  headerLog : List Byte
  deriving DecidableEq, Repr

/-- The host port: the link and its personality, the power state, Memory Space and Bus Master Enable, the bases of the BARs (R277), the
size of BAR2/3 as a power of two, Max Payload Size, the code of Max Read Request Size, the Completion Timeout Value and its disable bit
(R290), the L1 substates advertised (Table 8.2), error reporting, the MSI-X vectors unmasked and pending, HDM decoders, the code of the
mailbox's last answer, the four CXL event logs and their overflow marks, and the counts behind Table 8.10 with whether a CINCH_INCOMPLETE
stands since the last mount (log 18). -/
structure HostPort where
  up : Bool
  rate : Nat
  width : Nat
  flit : Bool
  cxl : Bool
  d3hot : Bool
  memSpace : Bool
  busMaster : Bool
  bar0 : BitVec 64
  bar2 : BitVec 64
  bar4 : BitVec 64
  barBits : Nat
  mps : Nat
  mrrs : Nat
  ctoValue : Nat
  ctoDisable : Bool
  l1ss : Nat
  aer : Aer
  unmasked : List Nat
  pba : List Nat
  decoders : Tab Hdm
  mailboxCode : Nat
  logs : Tab (List EvRec)
  logsFull : List Nat
  cinchCut : Bool
  dirtyMounts : Nat
  dirRebuilds : Nat
  deriving DecidableEq, Repr

/-! ### The machine -/

/-- The state of the block: the commands that wait, first in first out, and everything the spec gives the device.
`nonce` is the model's own counter of free values (log 10) and `out` its record of what left the device (log 9).
`unborn` are tacks of engines that found no slot and ask again (R17). `media` is keyed by media leaf address; `anyBlocks` lists the plane-blocks (address [35:13]) that read as any value. -/
structure State where
  pending : List Instr
  nonce : Nat
  out : List Out
  regs : Tab Word
  dev : Dev
  tacks : Tab Tack
  unborn : List Tack
  serial : Nat
  chans : Tab Channel
  dies : Tab Die
  ctl : Tab DieCtl
  media : Tab Cell
  anyBlocks : List Nat
  progSeq : Nat
  life : Tab Life
  arbs : Tab Arb
  drift : Drift
  store : Store
  intc : Intc
  therm : Therm
  obs : Obs
  xlat : Xlat
  blocks : Blocks
  cache : Cache
  ctxs : Tab Ctx
  harness : Harness
  host : HostPort
  cmdq : Cmdq
  power : Power
  boot : Boot
  img : Images
  svc : Svc
  deriving DecidableEq, Repr

/-- The profile in force before a medium profile is loaded: the defaults of Tables 4.1 and 4.2 (log 13). -/
def Profile.standard : Profile :=
  { version := 0, factors := [205, 1229, 4096, 13107, 38912, 106496], edges := [400, 800, 1200]
    delta5 := 6, delta6 := 14, ofsLimit := 24, refreshAge := 40000000, readLimit := 100000000 }

def Dev.reset : Dev :=
  { state := .standby, prev := .standby, seq := 0, unitId := 0, readOnly := false, spaceLow := false
    degraded := false }

def Drift.reset : Drift :=
  { dies := [], learned := [], profile := Profile.standard, profileLoaded := false, holes := []
    holeFull := false, fullSeconds := 0, listGen := 0, assessing := false, reassessing := false
    pass1Done := false, reassessQ := [], lastE := none, darkSeconds := none, storedWall := none, wallUsed := false, aonUsed := false, brandMedian := 0
    brandSpread := 0, ageLatch := [], decodeQ := [] }

def Store.reset : Store :=
  { copies := [], journal := [], opSeq := 0, evlog := [], evCount := 0, evOverflow := 0
    evOverflowDirty := false, ports := [], nextPort := 0, opSeconds := 0, powerCycles := 0
    bootAction := 0, opsCompleted := 0, opsRolledBack := 0, wearNext := 0, wallKept := false }

def Therm.reset : Therm :=
  { warn := false, throttle := false, warnRun := 0, throttleRun := 0, fallback := false, diodeMode := true
    fast := false, accepted := false, critPowerDown := false, junction := 0, diode := 0, sensors := []
    suspects := [], dramTemp := [], dramBand := [], refreshDue := [] }

def Obs.reset : Obs :=
  { counters := [], slots := [], shadows := [], snapValid := false, births := 0, ring := [], head := 0, tail := 0
    waiting := [], trace := [], traceSeq := 0, traceTimeDue := false, traceLost := 0 }

def Xlat.reset : Xlat :=
  { dir := [], dirUp := false, badLines := [], errs := [], spares := [], remapFull := false, peekOk := false, peek := 0, peekWord := 0
    slots := [], clock := 0, segTable := [], images := [], imageCount := [], segWrites := [], pins := [], pinsDue := [], queue := [], void := [], poisons := [], searches := [], unread := []
    mapped := 0, jHead := 0, jRecs := [], jFlush := false, jCommit := none, epoch := 0, pages := [], ring := []
    ringAt := [], markRseq := 0, sinceMark := 0, mapFill := [], weltSeq := 0, weltDue := false, run := none
    welts := [], chosen := none, fallback := false, unclean := false, deltaUsed := false }

def Wear.zero : Wear :=
  { opSeconds := 0, wall := none, erases := 0, hostPages := 0, copyPages := 0, refreshPages := 0, retired := 0
    dropped := 0 }

def Blocks.reset : Blocks :=
  { pbs := [], stitches := [], stitchSeq := 1, hostOffers := [], copyOffers := [], jobs := [], forced := []
    refreshQ := [], blank := false, burnishFirst := [], burnishing := [], scrubbing := [], erasing := [], leaving := [], scrubPos := 0, credits := 0
    skiving := false, dropped := 0, totals := Wear.zero, snapshots := [] }

def Cache.reset : Cache :=
  { lines := [], lfsr := 0xACE1, dirtyList := [], ageDue := false, enabled := true, draining := false
    disableWaits := false, ceiling := 256, ceilFloored := false, rng := none, rngQueue := [], rngOp := 0, skipped := 0
    lockFull := 0, gpf := false, gpfLate := false, commits := [], requests := [], frozen := false, pause := false }

def Harness.reset : Harness :=
  { role := 0, parent := 0, mailbox := 0, leaderLost := false, mailboxLost := false, pushFails := 0, pushes := 0
    lastPush := 0, pushing := none, silent := false, slots := [] }

/-- AER at its defaults: Uncorrectable Internal Error, Advisory Non-Fatal, Corrected Internal Error and Header Log Overflow masked, and
the standard severities (R291, log 69). -/
def Aer.reset : Aer :=
  { uncStatus := 0, uncMask := 0x00400000, uncSeverity := 0x00462030, corStatus := 0, corMask := 0xE000, first := none, headerLog := [] }

/-- The host port with no link; the enables, BARs, Max Payload Size and Max Read Request Size and the masked MSI-X table as PCI Express
resets them (logs 18, 69). -/
def HostPort.reset : HostPort :=
  { up := false, rate := 0, width := 0, flit := false, cxl := false, d3hot := false, memSpace := false, busMaster := false
    bar0 := 0, bar2 := 0, bar4 := 0, barBits := 46, mps := 128, mrrs := 2, ctoValue := 0, ctoDisable := false, l1ss := 3, aer := Aer.reset
    unmasked := [], pba := [], decoders := [], mailboxCode := 0, logs := [], logsFull := [], cinchCut := false, dirtyMounts := 0
    dirRebuilds := 0 }

def Cmdq.reset : Cmdq := { queues := [], cmds := [], nextId := 0, seqs := 0, turn := 1, turnLeft := 0, stopped := none }

/-- The AON island after its reset (R349). SHELF_EN low, no conversion made, nothing measured. -/
def Power.reset : Power :=
  { up := .none, shelfEn := false, offLatch := false, offAsked := false, onPending := false, critLock := false, pathMain := false, pathHold := false
    chg := false, pfwLive := false, pfwLow := false, aonBack := false, rails := [], adc := [], adcSlot := 0, holdNext := true
    outside := [], timedOut := [], conv := 0, lastHold := none, overvolt := false, meas := none, measuredAt := none, measFlags := 0, measDue := false
    bankC := 0, bankEsr := 0, bankE := 0, tempCeiling := false, octetOff := 0, cutCause := 0, aonSeconds := 0, dark := 0, elapsedOk := false
    wall := none, wallFresh := false, pllLost := false, faultWait := none, cinch := none, shutdown := .none }

def Images.reset : Images :=
  { st := .empty, slot := 0, received := 0, header := [], writing := 0, reason := 0, lastActivation := 0
    slots := [], bootGen := [] }

def Svc.reset : Svc := { bus := .idle, dyn := 0, eid := 0, fifo := [], overflow := false, taken := [], consumer := none }

/-- The machine right after reset: STANDBY, every register at the reset value of its table, the store and the
medium empty (logs 5, 6, 7, 13). -/
def State.reset : State :=
  { pending := [], nonce := 0, out := [], regs := []
    dev := Dev.reset
    tacks := [], unborn := [], serial := 0, chans := [], dies := [], ctl := [], media := [], anyBlocks := [], progSeq := 0, life := [], arbs := []
    drift := Drift.reset, store := Store.reset, intc := { host := [], core := [], targets := [], coreTargets := [] }
    therm := Therm.reset, obs := Obs.reset, xlat := Xlat.reset, blocks := Blocks.reset, cache := Cache.reset
    ctxs := [], harness := Harness.reset, host := HostPort.reset
    cmdq := Cmdq.reset, power := Power.reset, boot := { step := .none, slot := 0, triedPrevious := false, bd := none, linkBd := none }
    img := Images.reset, svc := Svc.reset }

end Sys2Proof.Machine
end

