-- ==== Sys2Proof/Machine/Regs.lean ====
section
/-! DEFINITION. The register file: the bits that registers hold of themselves (RW, W1C and RWL fields and
counters), by BAR0 byte offset. Read-only fields are views of the rest of the state (RegRead.lean). -/

namespace Sys2Proof.Machine

abbrev rDevFlagsChg : Nat := 0x18
abbrev rIntcStatus : Nat := 0x20000
abbrev rArbProfile : Nat := 0x30000
abbrev rArbSeed : Nat := 0x30004
abbrev rArbOvrCount : Nat := 0x30030
abbrev rMediaCtrl : Nat := 0x58000
abbrev rMediaTempPeriod : Nat := 0x58004
abbrev rDriftCtrl : Nat := 0x60000
abbrev rDriftRefreshAge : Nat := 0x60008
abbrev rDriftTune : Nat := 0x60010
abbrev rDriftLadder : Nat := 0x60080
abbrev rDriftUncorr : Nat := 0x600A0
abbrev rDriftOutside1 : Nat := 0x600A4
abbrev rDriftOutside2 : Nat := 0x600A8
abbrev rDriftLate : Nat := 0x600AC
abbrev rDriftRefSel : Nat := 0x60100
abbrev rDriftOfsSel : Nat := 0x60140
abbrev rXlatCtrl : Nat := 0x70000
abbrev rXlatWeltBytes : Nat := 0x70008
abbrev rXlatWeltPeriod : Nat := 0x7000C
abbrev rXlatJrnWindow : Nat := 0x70018
abbrev rXlatPinLimit : Nat := 0x70030
abbrev rXlatSegMisses : Nat := 0x70038
abbrev rDirCrcErr : Nat := 0x70040
abbrev rDirNarrow : Nat := 0x70044
abbrev rDirLastErr : Nat := 0x70048
abbrev rDirPeekSel : Nat := 0x700A0
abbrev rCacheCtrl : Nat := 0x80000
abbrev rCacheCeilLimit : Nat := 0x8000C
abbrev rCacheEnergy : Nat := 0x80010
abbrev rCacheWb : Nat := 0x8001C
abbrev rRngAddr : Nat := 0x80040
abbrev rRngCount : Nat := 0x80048
abbrev rRngCtrl : Nat := 0x80050
abbrev rRngStatus : Nat := 0x80054
abbrev rCacheTagPar : Nat := 0x80080
abbrev rCacheCorr : Nat := 0x80084
abbrev rCacheUncorr : Nat := 0x80088
abbrev rCacheLost : Nat := 0x8008C
abbrev rCachePoison : Nat := 0x80090
abbrev rDvsec : Nat := 0x1000000
abbrev rHpWdog : Nat := rDvsec + 0x10
abbrev rHpRefused : Nat := rDvsec + 0x14
abbrev rHpPoison : Nat := rDvsec + 0x18
abbrev rHpDowns : Nat := rDvsec + 0x1C
abbrev rPwrStatus : Nat := 0xB0004
abbrev rPwrBudget : Nat := 0xB0008
abbrev rPwrPfwLevel : Nat := 0xB000C
abbrev rPwrHoldCfg : Nat := 0xB0010
abbrev rPwrChgCfg : Nat := 0xB0014
abbrev rPwrRailFail : Nat := 0xB0028
abbrev rPwrMedFail : Nat := 0xB002C
abbrev rPwrPfwCount : Nat := 0xB0034
abbrev rPwrCuts : Nat := 0xB0038
abbrev rPwrAonSwitch : Nat := 0xB003C
abbrev rSvcCtrl : Nat := 0x100000
abbrev rSvcStatus : Nat := 0x100004
abbrev rSvcErrors : Nat := 0x10001C
abbrev rThermCtrl : Nat := 0xC0000
abbrev rThermStatus : Nat := 0xC0004
abbrev rThermLimits : Nat := 0xC0008
abbrev rSuspectSeen : Nat := 0xC0010
abbrev rThermCounts : Nat := 0xC0014
abbrev rPstoreStatus : Nat := 0xD0000
abbrev rPstoreCorr : Nat := 0xD0004
abbrev rPstoreUncorr : Nat := 0xD0008
abbrev rEvtPortDrop : Nat := 0xD0018
abbrev rEvtWinSel : Nat := 0xD001C
abbrev rObsCtrl : Nat := 0xE0000
abbrev rObsStatus : Nat := 0xE0004
abbrev rSmpCfg : Nat := 0xE0400
abbrev rSmpPeriod : Nat := 0xE0404
abbrev rSmpWater : Nat := 0xE0414
abbrev rSmpDrop : Nat := 0xE0418
abbrev rSmpWinSel : Nat := 0xE041C
abbrev rTrcCfg : Nat := 0xE0500
abbrev rTrcOpc : Nat := 0xE0504
abbrev rTrcDrop : Nat := 0xE050C

/-- The base of channel `ch`'s MEDIA registers (R86). -/
def chBase (ch : Nat) : Nat := 0x40000 + 0x400 * ch

abbrev rChCtrl (ch : Nat) : Nat := chBase ch
abbrev rChTrim (ch : Nat) : Nat := chBase ch + 0x8
abbrev rChDeskew (ch : Nat) : Nat := chBase ch + 0xC
abbrev rChSusp (ch : Nat) : Nat := chBase ch + 0x10
abbrev rChEvents (ch : Nat) : Nat := chBase ch + 0x14
abbrev rChBuserr (ch : Nat) : Nat := chBase ch + 0x18

/-- The base of channel `ch`'s ARB registers (R106). -/
def arbBase (ch : Nat) : Nat := 0x31000 + 0x40 * ch

abbrev rArbChCtrl (ch : Nat) : Nat := arbBase ch
abbrev rArbTickets (ch i : Nat) : Nat := arbBase ch + 4 + 4 * i
abbrev rArbGuard (ch : Nat) : Nat := arbBase ch + 0x18
abbrev rArbOvr (ch : Nat) : Nat := arbBase ch + 0x1C

/-- What a register holds of itself after the reset of its domain (the Reset columns; BD fields read 0 until a
board description is loaded, R11). -/
def regReset (off : Nat) : Nat :=
  if 0x40000 ≤ off ∧ off < 0x58000 then (if off % 0x400 = 0x10 then 0x001E0047 else 0)
  else if off < 0x60000 then
    (if off = rArbSeed then 0x5A17C3E9 else if off = rMediaTempPeriod then 1000 else 0)
  else if off < 0x70000 then
    (if off = rDriftCtrl then 0x13 else if off = rDriftRefreshAge then 40000000
     else if off = rDriftTune then 24 * 65536 + 14 * 256 + 6 else 0)
  else if off < 0x80000 then
    (if off = rXlatCtrl then 0x200 else if off = rXlatWeltBytes then 2048 else if off = rXlatWeltPeriod then 600
     else if off = rXlatJrnWindow then 50 else if off = rXlatPinLimit then 385024 else 0)
  else if off < 0xC0000 then
    (if off = rCacheCeilLimit then 2048 else if off = rCacheEnergy then 11000 * 65536 + 6000
     else if off = rCacheWb then 1000 * 65536 + 25 else if off = rPwrBudget then 250 else if off = rPwrPfwLevel then 10800
     else if off = rPwrChgCfg then 168 * 2 ^ 20 + 100 * 2 ^ 13 else 0)
  else if off = rThermCtrl then 0x800
  else if off < 0xE0000 then 0
  else if off = rSmpPeriod then 1
  else if off = rSmpWater then 3145728
  else if off = rTrcCfg then 0x0F000000
  else if off = rTrcOpc ∨ off = rTrcOpc + 4 then 0xFFFFFFFF
  else if off = rSvcCtrl then 1
  else 0

/-- What the register at `off` holds of itself. -/
def State.reg (s : State) (off : Nat) : Nat :=
  match Tab.find s.regs off with
  | some w => w.toNat
  | none => regReset off

/-- `s` with the register at `off` holding `v`. -/
def State.setReg (s : State) (off v : Nat) : State := { s with regs := Tab.put s.regs off (BitVec.ofNat 32 v) }

/-- A field of the register at `off`. -/
def State.field (s : State) (off lo w : Nat) : Nat := bits (s.reg off) lo w

/-- `s` with a field of the register at `off` set to `x`. -/
def State.setField (s : State) (off lo w x : Nat) : State := s.setReg off (setBits (s.reg off) lo w x)

/-- `s` with bit `i` of the register at `off` set: a hardware set of a W1C bit. -/
def State.setBit (s : State) (off i : Nat) : State := s.setField off i 1 1

/-- `s` with a counter field raised by `k`, saturating (as the counter registers of every block do). -/
def State.bump (s : State) (off lo w k : Nat) : State :=
  s.setField off lo w (satAdd (2 ^ w - 1) (s.field off lo w) k)

/-- `s` with every register of the offsets that `p` holds for back at its reset value (R11). -/
def State.resetRegs (s : State) (p : Nat → Bool) : State := { s with regs := s.regs.filter (fun e => !p e.1) }

end Sys2Proof.Machine
end

