-- ==== Sys2Proof/Machine/Ops.lean ====
section
/-! DEFINITION. Operations that every family of commands shares: device state, events, interrupts, counters,
tack slots and their retirement, and what follows from every change of state. -/

namespace Sys2Proof.Machine

/-! ### Defaults of the tables of the state -/

/-- A class G4 die after RESET (R57, R62, R72), without power. -/
def Die.init : Die :=
  { st := .off, op := none, sense := none, qSense := none, qResume := false, done := none, status1 := 0
    suspCount := 0, loadMap := 0, loadAt := none, bufs := [], refs := [], odt := 0, drive := 1
    fast := false, index := 0, trainBuf := [], tempHigh := false, internal := false }

/-- What the controller keeps for a die before it has met it. -/
def DieCtl.init : DieCtl :=
  { present := false, online := false, hot := false, temp := 0, readPolls := none, seen := 0
    running := none, awaiting := false, outcome := none, timedOutAt := none, internalAt := none, reinit := none
    retired := false, lost := false, tempAtTraining := none }

def Channel.init : Channel :=
  { st := .off, fast := false, alertLow := false, alertStuck := false, hk := [], crcErrors := []
    retrainTry := 0, retrainWant := false, tempTrain := none }

def DieAge.init : DieAge :=
  { counter := 0, holding := 0, restored := false, groups := 0, cBrand := 0, cLast := 0, uApplied := 0
    unpow := 0, provisional := false, clamped := false, assumed := false, reassessed := false, stale := false
    readable := false, factor := 0, band := 0, bandAt := 0, measured := none, brandState := 0, brandRun := none }

def Learned.init : Learned := { g := List.replicate 15 0, e := List.replicate 15 0, n := 0 }

def Route.init : Route := { prio := 0, target := 0, edge := false, active := false, activeAt := 0 }

def Target.init : Target :=
  { runPrio := 0, stack := [], enable := false, vector := 0, notified := false, eoiErr := false }

def ObsCnt.init : ObsCnt := { cfg := 0, flt := 0xF0000000, count := 0, reload := 0, capture := 0 }

def SlotCnt.init : SlotCnt := { elapsed := 0, retired := 0, wasted := 0, front := 0, back := 0 }

def Life.init : Life := { programs := 0, erases := 0, corrected := 0, ladder := 0, uncorrectable := 0, sequence := 0 }

/-- The key of die `d` of channel `ch` (R161). -/
def dieKey (ch d : Nat) : Nat := ch * 8 + d

def State.die (s : State) (k : Nat) : Die := Tab.get s.dies k Die.init
def State.ctlOf (s : State) (k : Nat) : DieCtl := Tab.get s.ctl k DieCtl.init
def State.chan (s : State) (ch : Nat) : Channel := Tab.get s.chans ch Channel.init
def State.age (s : State) (k : Nat) : DieAge := Tab.get s.drift.dies k DieAge.init
def State.setDie (s : State) (k : Nat) (d : Die) : State := { s with dies := Tab.put s.dies k d }
def State.setCtl (s : State) (k : Nat) (c : DieCtl) : State := { s with ctl := Tab.put s.ctl k c }
def State.setChan (s : State) (ch : Nat) (c : Channel) : State := { s with chans := Tab.put s.chans ch c }
def State.setAge (s : State) (k : Nat) (a : DieAge) : State :=
  { s with drift := { s.drift with dies := Tab.put s.drift.dies k a } }
def State.lifeOf (s : State) (k : Nat) : Life := Tab.get s.life k Life.init
def State.updLife (s : State) (k : Nat) (f : Life → Life) : State := { s with life := Tab.put s.life k (f (s.lifeOf k)) }
def State.emit (s : State) (o : Out) : State := { s with out := s.out ++ [o] }

/-- The value of the free-value counter, which the step then advances (log 10). -/
def State.tick (s : State) : State := { s with nonce := s.nonce + 1 }

/-- Whether BAR0 decodes: the link is up, the function is not in D3hot, and Memory Space Enable is set (R275, R277). -/
def State.barOpen (s : State) : Bool := s.host.up && !s.host.d3hot && s.host.memSpace

/-! ### Unit paths (R2, Table 0.3) -/

def unitPath (level member octet chan die : Nat) : Nat :=
  level * 2 ^ 24 + member * 2 ^ 10 + octet * 2 ^ 6 + chan * 2 ^ 3 + die

def State.devicePath (s : State) : Nat := unitPath 3 s.dev.unitId.toNat 0 0 0
def State.octetPath (s : State) (o : Nat) : Nat := unitPath 2 s.dev.unitId.toNat o 0 0
def State.channelPath (s : State) (ch : Nat) : Nat := unitPath 1 s.dev.unitId.toNat (ch / 8) (ch % 8) 0
def State.diePath (s : State) (k : Nat) : Nat := unitPath 0 s.dev.unitId.toNat (k / 64) (k / 8 % 8) (k % 8)

/-! ### Events (R407, R414) -/

/-- Ports of the event arbiter (R407). -/
abbrev portCore : Nat := 0
abbrev portPower : Nat := 8
abbrev portBoot : Nat := 9
abbrev portTherm : Nat := 10
abbrev portHost : Nat := 11
abbrev portDrift : Nat := 12
abbrev portCache : Nat := 13
abbrev portChan : Nat := 14
abbrev portSvc : Nat := 15

/-- Severities (R414): 0 INFO, 1 WARN, 2 FAIL, 3 FATAL. -/
def severity (code : Nat) : Nat :=
  if code ∈ [0x0103, 0x0107, 0x0302, 0x0303, 0x0704, 0x0802, 0x0A03, 0x0A04, 0x0A08] then 0
  else if code ∈ [0x0101, 0x0102, 0x0B03] then 3
  else if code ∈ [0x0104, 0x0105, 0x0106, 0x0109, 0x0201, 0x0403, 0x0501, 0x0504, 0x0604, 0x0606, 0x0701, 0x0702,
      0x0705, 0x0A01, 0x0A05, 0x0A06, 0x0B02] then 2
  else 1

/-- Queues an event at a port; a full queue drops and counts it (R407). -/
def State.event (s : State) (port code path : Nat) (params : List Byte) (tack : Nat := 0xFFFF) : State :=
  let q := Tab.get s.store.ports port []
  if q.length < 4 then
    let e : Event := { code := code, path := BitVec.ofNat 32 path, params := params, tack := BitVec.ofNat 16 tack }
    { s with store := { s.store with ports := Tab.put s.store.ports port (q ++ [e]) } }
  else s.bump rEvtPortDrop 0 32 1

/-! ### Interrupts (R417-R423) -/

/-- The kind of a source (Table 14.1): true for level. -/
def levelSource (id : Nat) : Bool :=
  decide (id ∈ [1, 3, 4, 5, 6, 9, 15, 33, 34]) || (decide (17 ≤ id) && decide (id ≤ 32)) ||
    (decide (64 ≤ id) && decide (id ≤ 255))

/-- Whether an ID is a source (R417). -/
def isSource (id : Nat) : Bool :=
  (decide (1 ≤ id) && decide (id ≤ 34)) || (decide (64 ≤ id) && decide (id ≤ 508))

/-- An edge on a route of priority other than 0 (R418). -/
def Route.setEdge (r : Route) : Route := if r.prio = 0 then r else { r with edge := true }

/-- An edge on source `id`: the pending bit of each route whose priority is not 0 (R418). -/
def State.raise (s : State) (id : Nat) : State :=
  let host := Tab.change s.intc.host id Route.setEdge
  let core := Tab.change s.intc.core id Route.setEdge
  { s with intc := { s.intc with host := host, core := core } }

/-- Changes DEV_STATE (R31): PREV_STATE, the count of transitions since leaving STANDBY, and source DEV_STATE. -/
def State.goto (s : State) (st : DevState) : State :=
  let seq := if s.dev.state = DevState.standby then 1 else s.dev.seq + 1
  ({ s with dev := { s.dev with state := st, prev := s.dev.state, seq := seq } }).raise 2

/-! ### Programmable counters (R439, R440) -/

/-- What an event of columns T and C carries for the filters. -/
structure Tag where
  cls : Option Nat
  ctx : Option Nat
  ch : Option Nat

/-- Whether the filters of a counter let an event through (R439). A filter that does not apply is ignored. -/
def passes (flt : Nat) (t : Tag) (isT : Bool) : Bool :=
  (!isT || match t.cls with | some c => bit flt (28 + c) | none => true) &&
  (!isT || !bit flt 27 || t.ctx == some (bits flt 15 12)) &&
  (!bit flt 14 || t.ch.isNone || t.ch == some (bits flt 7 7))

/-- Adds `inc` to counter `k`; past the top it loads RELOAD and the remainder, and sets OVF (R440). -/
def State.addCount (s : State) (k inc : Nat) : State :=
  let c := Tab.get s.obs.counters k ObsCnt.init
  let v := c.count + inc
  if v ≤ 0xFFFFFFFFFFFF then
    { s with obs := { s.obs with counters := Tab.put s.obs.counters k { c with count := v } } }
  else
    let c' := { c with count := (c.reload + (v - 0x1000000000000)) % 0x1000000000000 }
    let s := { s with obs := { s.obs with counters := Tab.put s.obs.counters k c' } }
    let s := s.setBit rObsStatus (16 + k)
    if bit c.cfg 29 then s.setBit rObsCtrl 0 else s

/-- One occurrence of counter event `code` (Table 15.1). -/
def State.count (s : State) (code : Nat) (t : Tag) (isT : Bool := true) : State :=
  if bit (s.reg rObsCtrl) 0 then s
  else s.obs.counters.foldl (fun s e =>
    if bit e.2.cfg 31 && bits e.2.cfg 0 6 == code && passes e.2.flt t isT then s.addCount e.1 1 else s) s

/-! ### Tacks (R13-R20) -/

/-- Table 1.4: the operation codes. -/
def TackOp.code (o : TackOp) : Nat :=
  match o with
  | .hostRead => 0x01 | .hostWrite => 0x02 | .sectorFill => 0x03 | .leafWriteback => 0x04 | .segRead => 0x05
  | .segWrite => 0x06 | .skvRead => 0x07 | .skvProgram => 0x08 | .burnishRead => 0x09 | .scrubRead => 0x0A
  | .refreshRead => 0x0B | .refreshProgram => 0x0C | .parityProgram => 0x0D | .parityRead => 0x0E
  | .erase => 0x0F | .brandHist => 0x10 | .brandWrite => 0x11 | .weltWrite => 0x12 | .weltRead => 0x13
  | .journalWrite => 0x14 | .journalRead => 0x15 | .prefetch => 0x16 | .diagRead => 0x17 | .bootRead => 0x18
  | .imageWrite => 0x19 | .lineOp => Config.lineOpcode.toNat

/-- Programs and erases (R14, Table 15.2 KIND 5). -/
def TackOp.programs (o : TackOp) : Bool :=
  match o with
  | .leafWriteback | .segWrite | .skvProgram | .refreshProgram | .parityProgram | .erase | .brandWrite | .weltWrite
  | .journalWrite | .imageWrite => true
  | _ => false

/-- Opcodes that read the medium (Table 15.2 KIND 4). -/
def TackOp.readsMedium (o : TackOp) : Bool :=
  match o with
  | .hostWrite | .lineOp => false
  | o => !o.programs

def Rein.code (r : Rein) : Nat :=
  match r with
  | .hr1 => 0 | .hr2 => 1 | .map => 2 | .wb => 3 | .cin => 4 | .skv => 5 | .brn => 6 | .drf => 7 | .wlt => 8
  | .dia => 9

/-- The flags of Table 1.5, by bit. -/
abbrev fLeafKind : Nat := 0
abbrev fWT : Nat := 1
abbrev fEnc : Nat := 2
abbrev fPoison : Nat := 3
abbrev fLate : Nat := 4
abbrev fAbandoned : Nat := 5
abbrev fSampled : Nat := 6
abbrev fTraced : Nat := 7
abbrev fChild : Nat := 8
abbrev fCinch : Nat := 9
abbrev fPartial : Nat := 10
abbrev fZero : Nat := 11
abbrev fHit : Nat := 12
abbrev fSuspended : Nat := 13
abbrev fBoundOff : Nat := 14
abbrev fOverride : Nat := 15

def Tack.flag (t : Tack) (i : Nat) : Bool := t.flags.getLsbD i
def Tack.setFlag (t : Tack) (i : Nat) : Tack := { t with flags := t.flags ||| BitVec.ofNat 24 (2 ^ i) }

def Origin.kind (o : Origin) : Nat := match o with | .ctx _ => 0 | .engine _ => 1
def Origin.code (o : Origin) : Nat := match o with | .ctx c => c.toNat | .engine e => e.toNat
def Origin.ctx? (o : Origin) : Option Nat := match o with | .ctx c => some c.toNat | .engine _ => none

/-- The 128-bit header of a tack (Table 1.2). -/
def Tack.header (slot : Nat) (t : Tack) : BitVec 128 :=
  BitVec.ofNat 128 (slot % 2 ^ 16 * 2 ^ 112 + t.origin.kind * 2 ^ 111 + t.origin.code * 2 ^ 99
    + t.unit.toNat * 2 ^ 85 + t.op.code * 2 ^ 79 + t.cls.toNat * 2 ^ 77 + t.deadline % 2 ^ 16 * 2 ^ 61
    + t.leaf.toNat * 2 ^ 27 + t.retry % 8 * 2 ^ 24 + t.flags.toNat)

/-- DEADLINE at birth, by class (R15). -/
def deadlineOf (cls : Nat) : Nat := match cls with | 0 => 1 | 1 => 4000 | 2 => 50000 | _ => 0xFFFF

/-- The first number of `lo ..= hi` that a table with rising numbers does not list. -/
def firstFree {α : Type} (t : Tab α) (lo hi : Nat) : Option Nat :=
  match t with
  | [] => if lo ≤ hi then some lo else none
  | (i, _) :: r =>
    if i < lo then firstFree r lo hi
    else if i = lo then firstFree r (lo + 1) hi
    else if lo ≤ hi then some lo else none

/-! ### Engines, and who gets a slot (R16, R17, R491) -/

/-- Engine codes (Table 1.3). -/
abbrev engWriteback : BitVec 12 := 0x001
abbrev engSkiver : BitVec 12 := 0x002
abbrev engBurnish : BitVec 12 := 0x003
abbrev engRefresh : BitVec 12 := 0x004
abbrev engWelt : BitVec 12 := 0x005
abbrev engSegment : BitVec 12 := 0x006
abbrev engCinch : BitVec 12 := 0x007
abbrev engDiag : BitVec 12 := 0x008
abbrev engBrand : BitVec 12 := 0x009
abbrev engRange : BitVec 12 := 0x00A
abbrev engBoot : BitVec 12 := 0x00B
abbrev engImage : BitVec 12 := 0x00C

/-- The category of the request for a tack's slot: the first of R491's list whose condition the tack meets. -/
def Tack.category (t : Tack) : Nat :=
  if t.flag fCinch ∨ t.origin = .engine engCinch then 1
  else if t.flag fChild then 2
  else if t.op = .leafWriteback then 3
  else if t.origin = .engine engWelt ∨ t.origin = .engine engBoot then 4
  else if t.op = .hostWrite then 5
  else if t.origin = .engine engRange ∨ t.origin = .engine engImage ∨ t.owner.isSome then 6
  else if t.origin = .engine engSegment then 7
  else if t.origin = .engine engSkiver then 8
  else if t.origin = .engine engRefresh ∨ t.origin = .engine engBrand then 9
  else if t.origin = .engine engBurnish then 10
  else 11

/-- Whether tack `a` goes before `b` when both ask for a slot at once (R17): by category, then by engine code; otherwise they keep
the order in which they were asked for. A context has no engine code. -/
def Tack.before (a b : Tack) : Bool :=
  let code := fun (t : Tack) => match t.origin with | .ctx _ => 0 | .engine e => e.toNat
  decide (a.category < b.category) || (a.category == b.category && decide (code a < code b))

/-- Whether a tack may use the reserve (R16). -/
def Tack.mayReserve (t : Tack) : Bool :=
  t.flag fChild || t.flag fCinch || t.op == .leafWriteback ||
    t.origin == .engine engWelt || t.origin == .engine engCinch

/-- The slot that a birth takes: host reads in their own partition, others in the shared partition and then, where
R16 lets them, in the reserve; the lowest FREE number of the partition (log 8). -/
def State.slotFor (s : State) (t : Tack) : Option Nat :=
  if t.op = .hostRead then firstFree s.tacks 0 16383
  else match firstFree s.tacks 16384 61439 with
    | some k => some k
    | none => if t.mayReserve then firstFree s.tacks 61440 65535 else none

def Tack.tag (t : Tack) (ch : Option Nat) : Tag := { cls := some t.cls.toNat, ctx := t.origin.ctx?, ch := ch }

/-- Whether a birth matches the sample configuration (R443). -/
def State.sampleMatch (s : State) (t : Tack) (ch : Option Nat) : Bool :=
  let cfg := s.reg rSmpCfg
  (match bits cfg 0 3 with
   | 1 => t.op == .hostRead
   | 2 => t.op == .hostWrite
   | 3 => t.op == .hostRead || t.op == .hostWrite
   | 4 => t.op.readsMedium
   | 5 => t.op.programs
   | 6 => true
   | _ => false) &&
  (!bit cfg 28 || t.origin.ctx? == some (bits cfg 16 12)) && (!bit cfg 15 || ch == some (bits cfg 8 7))

/-- Whether a birth is traced (R448). -/
def State.traceMatch (s : State) (t : Tack) (ch : Option Nat) : Bool :=
  let cfg := s.reg rTrcCfg
  bit cfg 31 && bit (s.reg (rTrcOpc + 4 * (t.op.code / 32))) (t.op.code % 32) && bit cfg (24 + t.cls.toNat) &&
  (!bit cfg 23 || t.origin.ctx? == some (bits cfg 0 12)) && (!bit cfg 22 || ch == some (bits cfg 15 7))

/-- Gives birth to a tack in a slot (R18, Table 1.6): its number, serial, DEADLINE, and the SAMPLED and TRACED
flags of R443 and R448. -/
def State.birthAt (s : State) (k : Nat) (t : Tack) (ch : Option Nat) : State :=
  let n := if s.sampleMatch t ch then s.obs.births + 1 else s.obs.births
  let t := { t with serial := s.serial, unit := s.dev.unitId, deadline := deadlineOf t.cls.toNat }
  let t := if s.sampleMatch t ch && n % Nat.max 1 (s.field rSmpPeriod 0 24) == 0 then t.setFlag fSampled else t
  let t := if s.traceMatch t ch then t.setFlag fTraced else t
  ({ s with tacks := Tab.put s.tacks k t, serial := s.serial + 1, obs := { s.obs with births := n } }).count
    0x01 (t.tag ch)

/-- Queues a trace frame; a full buffer drops it and sets TRC_LOSS (R448). -/
def State.frame (s : State) (ty : Byte) (payload : List Byte) : State :=
  if !bit (s.reg rTrcCfg) 31 then s
  else if s.obs.trace.length < 64 then { s with obs := { s.obs with trace := s.obs.trace ++ [(ty, payload)] } }
  else
    let s := { s with obs := { s.obs with traceLost := s.obs.traceLost + 1 } }
    (s.bump rTrcDrop 0 32 1).setBit rObsStatus 3

/-- A tack's record for observation (Tables 15.3, 15.4). -/
def Tack.retired (k : Nat) (t : Tack) : Retired :=
  { header := t.header k, hostAddr := (t.req.map HostReq.addr).getD 0
    ctx := match t.origin with | .ctx c => c.setWidth 16 | .engine _ => 0xFFFF
    media := t.media, losses := Nat.min 255 t.losses, senses := Nat.min 255 t.senses }

/-- Frees a slot (Table 1.6): the retirement record goes to the sample ring's writer and the trace queue, which
never hold it up (R20). The two cycle counts of a RETIRE frame are free values: no clock runs here (log 3). -/
def State.retire (s : State) (k : Nat) : State :=
  match Tab.find s.tacks k with
  | none => s
  | some t =>
    let s := { s with tacks := Tab.del s.tacks k }
    let s := s.count 0x02 (t.tag (some (t.media.toNat / 2 ^ 29)))
    let s := if t.flag fSampled then { s with obs := { s.obs with waiting := s.obs.waiting ++ [t.retired k] } } else s
    if t.flag fTraced then
      let times := le 4 (Config.free s.nonce).toNat ++ le 4 (Config.free (s.nonce + 1)).toNat
      let tail := le 5 t.media.toNat ++ le 1 (Nat.min 255 t.losses) ++ zeros 2
      ({ s with nonce := s.nonce + 2 }).frame 0x01 (le 16 (t.header k).toNat ++ times ++ tail)
    else s

/-- The array's plane-blocks `ks` become erased (R45). -/
def State.eraseCells (s : State) (ks : List Nat) : State :=
  { s with media := s.media.filter (fun e => decide (e.1 / 8192 ∉ ks)), anyBlocks := s.anyBlocks.filter (fun b => decide (b ∉ ks))
           xlat := { s.xlat with images := s.xlat.images.filter (fun e => decide (e.1 / 8192 ∉ ks)) } }

def State.setTack (s : State) (k : Nat) (t : Tack) : State := { s with tacks := Tab.put s.tacks k t }
def State.updTack (s : State) (k : Nat) (f : Tack → Tack) : State := { s with tacks := Tab.change s.tacks k f }

/-- Whether the sequencers issue frames of their own: not in POWERING_DOWN, nor while a fault waits for the programs already issued
(R31, R34, Table 11.4). -/
def State.framesGo (s : State) : Bool := s.dev.state != .poweringDown && s.power.faultWait.isNone

end Sys2Proof.Machine
end

