-- ==== Sys2Proof/Machine/Codeword.lean ====
section
/-! DEFINITION. What a codeword is on the medium: its bytes, trailer and parity (R50-R52, Tables 2.5, 2.6), the levels of its cells
(R46), and what a sense makes of them (R53, R64, R123). -/

namespace Sys2Proof.Machine

/-! ### Bytes (R50, R51) -/

/-- KIND codes of Table 2.6. -/
def CwKind.code (k : CwKind) : Nat :=
  match k with
  | .hostData => 1 | .mapSegment => 2 | .welt => 3 | .journal => 4 | .firmware => 5 | .bootRecord => 6 | .brandRow => 7
  | .parity => 8

/-- The 64 bytes of a trailer over data with CRC-32C `crc` (Table 2.6): FORMAT is 0x01. -/
def Trailer.bytes (t : Trailer) (crc : Nat) : List Byte :=
  le 8 (t.leaf.toNat % 2 ^ 34) ++ le 2 t.ctx.toNat ++ le 1 t.kind.code ++ le 1 1 ++ le 2 t.gen.toNat ++ zeros 2
    ++ le 4 t.progAge.toNat ++ zeros 4 ++ le 8 t.addr.toNat ++ le 8 t.seq ++ zeros 20 ++ le 4 crc

/-- A codeword's data as stored: enciphered when its context has a key (Table 2.5). -/
def storedData (data : Memory) (key : Option Nat) (leaf : Nat) : List Byte :=
  (List.range 4096).map (fun i => match key with
    | none => Memory.read 0 data i
    | some k => Config.enciphered k leaf data i)

/-- Bytes 0-4,159 with the parity that the encoder forms over them (R50, R52). -/
def encodeCw (bytes : List Byte) : List Byte := bytes ++ (List.range 448).map (Config.ldpcParity bytes)

/-- The 4,608 raw bytes of a codeword that has definite ones (Table 2.5). -/
def Cell.bytes (c : Cell) : List Byte :=
  match c with
  | .written data key t =>
    let d := storedData data key t.leaf.toNat
    encodeCw (d ++ t.bytes (crc32c d))
  | .raw bs => (bs ++ zeros 4608).take 4608
  | .brand _ | .anyValue => []

/-! ### Levels (R46, R123) -/

/-- G(L) of R46. -/
def gray (l : Nat) : Nat := l ^^^ (l / 2)

/-- The nibble that level `l` stores. -/
def nibbleOf (l : Nat) : Nat := gray l ^^^ 15

/-- The level that stores a nibble: `nibbleOf` undone. -/
def levelOf (n : Nat) : Nat := ((List.range 16).find? (fun l => nibbleOf l == n)).getD 0

/-- The level of cell `i` of a codeword slot: 0 when the slot is erased; in row `r` of a brand group cell c is at (c + r) mod 16,
and a slot begins at a multiple of 16 cells (R123); none when the page reads as any value. -/
def cellLevel (c : Option Cell) (i : Nat) : Option Nat :=
  match c with
  | none => some 0
  | some (.brand r) => some ((i + r) % 16)
  | some .anyValue => none
  | some x =>
    let b := (x.bytes.getD (i / 2) 0).toNat
    some (levelOf (if i % 2 = 0 then b % 16 else b / 16))

/-! ### What a sense sees (R62, R64) -/

/-- The code at which the sense finds cell `i` of codeword slot `k` (8p + s). -/
def Sensed.code (x : Sensed) (k i : Nat) : Nat :=
  (Config.cellCode x.stamp (73728 * (k / 8) + 9216 * (k % 8) + i) (cellLevel (Tab.find x.cells k) i)).toNat

/-- The set that plane `p` was sensed at. -/
def Sensed.refs (x : Sensed) (p : Nat) : List Nat := Tab.get x.sets p []

/-- The level that the sense reads: the thresholds at or below the cell's code. An erased page reads as level 0 under any set
(R88). -/
def Sensed.level (x : Sensed) (k i : Nat) : Nat :=
  if (Tab.find x.cells k).isNone then 0
  else ((x.refs (k / 8)).filter (fun t => decide (t ≤ x.code k i))).length

/-- The 4,608 hard bytes of codeword slot `k` (R46, R64). -/
def Sensed.hard (x : Sensed) (k : Nat) : List Byte :=
  (List.range 4608).map (fun b => BitVec.ofNat 8 (nibbleOf (x.level k (2 * b)) + 16 * nibbleOf (x.level k (2 * b + 1))))

/-- The confidence plane of codeword slot `k` of a soft sense: bit j is set when cell j lies between T - DELTA and T + DELTA of any
threshold (R64). -/
def Sensed.confidence (x : Sensed) (k : Nat) : List Byte :=
  (List.range 1152).map (fun b => BitVec.ofNat 8 (ofBits ((List.range 8).map (fun j =>
    let c := x.code k (8 * b + j)
    (x.refs (k / 8)).any (fun t => decide (t ≤ c + x.sense.delta) && decide (c < t + x.sense.delta))))))

/-- Count `n` of the histogram of plane `p`: the cells of its page whose level lies below DAC code 16n + 8 (R64). -/
def Sensed.histCount (x : Sensed) (p n : Nat) : Nat :=
  total ((List.range 8).map (fun s =>
    ((List.range 9216).filter (fun i => decide (x.code (8 * p + s) i < 16 * n + 8))).length))

/-! ### What a decode gives (R51) -/

/-- Bytes from offset 0 as a memory whose unlisted bytes are 0. -/
def memOf (bs : List Byte) : Memory := ((List.range bs.length).zip bs).filter (fun e => e.2 != 0)

/-- The kind of a KIND code. -/
def kindOf (n : Nat) : Option CwKind :=
  [CwKind.hostData, .mapSegment, .welt, .journal, .firmware, .bootRecord, .brandRow, .parity].find? (fun k => k.code == n)

/-- The trailer that 4,160 bytes end in, when FORMAT is 0x01, KIND has a meaning and DATA_CRC matches the data. -/
def trailerOf (bs : List Byte) : Option Trailer :=
  let t := bs.drop 4096
  let u := fun (o n : Nat) => ofLe ((t.drop o).take n)
  match kindOf (u 0x0A 1) with
  | some k =>
    if bs.length = 4160 ∧ u 0x0B 1 = 1 ∧ u 0x3C 4 = crc32c (bs.take 4096) then
      some { leaf := BitVec.ofNat 64 (u 0 8), ctx := BitVec.ofNat 12 (u 8 2), kind := k, gen := BitVec.ofNat 16 (u 0x0C 2)
             progAge := BitVec.ofNat 32 (u 0x10 4), addr := BitVec.ofNat 36 (u 0x18 8), seq := u 0x20 8 }
    else none
  | none => none

/-- A codeword as its decode gives it: data, the key it is enciphered under, and trailer. Raw bytes decode when their parity is the
encoder's; `key` is that of their reader's context. -/
def Cell.decoded (c : Option Cell) (key : Option Nat) : Option (Memory × Option Nat × Trailer) :=
  match c with
  | some (.written d k t) => some (d, k, t)
  | some (.raw bs) =>
    let body := bs.take 4160
    if encodeCw body = bs then
      (trailerOf body).map (fun t =>
        let d := match key with
          | none => body.take 4096
          | some k => (List.range 4096).map (Config.deciphered k t.leaf.toNat (body.take 4096))
        (memOf d, key, t))
    else none
  | _ => none

/-! ### Parity of a row (R211, R212) -/

/-- Multiplication in GF(2^8) modulo x^8 + x^4 + x^3 + x^2 + 1. -/
def gmul (a b : Nat) : Nat :=
  ((List.range 8).foldl (fun (r : Nat × Nat) i =>
    (if bit b i then r.1 ^^^ r.2 else r.1, if 128 ≤ r.2 then (r.2 * 2) ^^^ 0x11D else r.2 * 2)) (0, a)).1

/-- g^n for g = 0x02. -/
def gpow (n : Nat) : Nat := (List.range n).foldl (fun a _ => gmul a 2) 1

/-- Division in GF(2^8). -/
def gdiv (a b : Nat) : Nat := ((List.range 256).find? (fun x => gmul x b == a)).getD 0

/-- The 4,160 protected bytes of a codeword. -/
def Cell.protected (c : Option Cell) : List Byte :=
  match c with | some x => (x.bytes ++ zeros 4160).take 4160 | none => zeros 4160

/-- Byte `j` of P, or of Q when `second`, combined over members of a row: their positions and protected bytes. -/
def combine (second : Bool) (ms : List (Nat × List Byte)) (j : Nat) : Nat :=
  ms.foldl (fun v m =>
    let b := (m.2.getD j 0).toNat
    v ^^^ (if second then gmul (gpow m.1) b else b)) 0

/-- The trailer bytes that a stored parity codeword carries as its own: KIND, FORMAT and MEDIA_ADDR. -/
def ownByte (j : Nat) : Bool := j == 4106 || j == 4107 || (decide (4120 ≤ j) && decide (j ≤ 4124))

/-- The parity codeword of a row as stored at address `a` (R211). -/
def parityCell (second : Bool) (ms : List (Nat × List Byte)) (a : Nat) : Cell :=
  .raw (encodeCw ((List.range 4160).map (fun j =>
    if j = 4106 then 8 else if j = 4107 then 1
    else if ownByte j then (le 5 a).getD (j - 4120) 0
    else BitVec.ofNat 8 (combine second ms j))))

/-- The codeword that R212 forms for member `x` of a row. `ms` are the readable members, `gone` the members that are missing with the
addresses of their codewords, `p` and `q` the protected bytes of the parity that stands. -/
def rebuild (x : Nat) (ms : List (Nat × List Byte)) (gone : List (Nat × Nat)) (p q : Option (List Byte)) : List Byte :=
  let known := ms ++ gone.map (fun e => (e.1, zeros 4106 ++ [1, 1] ++ zeros 12 ++ le 5 e.2 ++ zeros 35))
  let left := fun (second : Bool) (bs : List Byte) (j : Nat) =>
    (if ownByte j then combine second known j else (bs.getD j 0).toNat) ^^^ combine second ms j
  (List.range 4160).map (fun j =>
    BitVec.ofNat 8 (match p, q, gone.map (fun e => e.1) with
      | some pb, some qb, [a, b] =>
        let lo := Nat.min a b
        let hi := Nat.max a b
        let d := gdiv (gmul (gpow hi) (left false pb j) ^^^ left true qb j) (gpow lo ^^^ gpow hi)
        if x = lo then d else left false pb j ^^^ d
      | some pb, _, _ => left false pb j
      | none, some qb, _ => gdiv (left true qb j) (gpow x)
      | none, none, _ => 0))

end Sys2Proof.Machine
end

