-- ==== Sys2Proof/Machine/Die.lean ====
section
/-! DEFINITION. A class G4 die: how it takes each frame (R54-R65, R68, Tables 2.7, 2.8, 2.14), how its states end
(R69-R72), and what it sends. -/

namespace Sys2Proof.Machine

/-- Rejects a frame: CMD_ERR (R68, E). -/
def Die.reject (d : Die) : Die := { d with status1 := d.status1 ||| 1#8 }

/-- The bits of STATUS byte 1 whose conditions hold now: TEMP_HIGH and INTERNAL (R59). -/
def Die.live (d : Die) : BitVec 8 := (if d.tempHigh then 0x20#8 else 0#8) ||| (if d.internal then 0x40#8 else 0#8)

/-- STATUS byte 1: its sticky bits, and those that set again while their conditions hold (R59). -/
def Die.byte1 (d : Die) : BitVec 8 := d.status1 ||| d.live

/-- The die's temperature is at or above 95 °C, or no longer: TEMP_HIGH sets and stays (R59, Table 2.9). -/
def Die.withTemp (d : Die) (high : Bool) : Die :=
  { d with tempHigh := high, status1 := if high then d.status1 ||| 0x20#8 else d.status1 }

/-- An internal fault is there: INTERNAL sets and stays (R59). -/
def Die.withInternal (d : Die) (fault : Bool) : Die :=
  { d with internal := d.internal || fault, status1 := if fault then d.status1 ||| 0x40#8 else d.status1 }

/-- Whether the die drives ALERT_N (R83). -/
def Die.alerts (d : Die) : Bool := (d.byte1 &&& 0x60#8) != 0#8

/-- The state codes of Table 2.13. A die without power has none; it reads as POR. -/
def DieState.code (s : DieState) : Nat :=
  match s with
  | .por | .off => 0 | .rst => 1 | .idle => 2 | .sense => 3 | .prog => 4 | .erase => 5 | .suspending => 6 | .susp => 7

def Die.ardy (d : Die) : Bool := d.st == .idle || d.st == .susp

/-- HELD of Table 2.9: a suspended program or erase exists. -/
def Die.held (d : Die) : Bool := d.op.isSome && (d.st == .sense || d.st == .susp)

/-- The STATUS response (Table 2.9). -/
def Die.status (d : Die) : List Byte :=
  le 1 (d.st.code + 16 * flag d.ardy + 32 * flag d.held + 64 * flag d.done.isSome + 128 * flag d.alerts)
    ++ le 1 d.byte1.toNat ++ le 1 d.suspCount ++ le 1 0xA5 ++ le 4 d.loadMap.toNat

/-- STATUS with or without CLEAR: CLEAR clears byte 1 after it is sent; what still holds sets again (R59). -/
def Die.takeStatus (d : Die) (clear : Bool) : Die := if clear then { d with status1 := d.live } else d

/-- The state in which a die performs an operation. -/
def ArrayOp.running (o : ArrayOp) : DieState := if o.erase then .erase else .prog

/-- A sense starts: RVALID of an earlier sense ends (R88). -/
def Die.startSense (d : Die) (x : Sense) : Die := { d with st := .sense, sense := some x, qSense := none, done := none }

/-- What a die without a queued or running sense does next with its operation: performs it when a RESUME is queued,
else holds it; with none it is IDLE (R69). -/
def Die.settle (d : Die) : Die :=
  match d.op with
  | none => { d with st := .idle, qResume := false }
  | some o => if d.qResume then { d with st := o.running, qResume := false } else { d with st := .susp }

/-! ### Frames -/

/-- Whether the die takes IDENTIFY, GET_TEMP and TRAIN (Table 2.14). -/
def Die.awake (d : Die) : Bool := !(d.st == .por || d.st == .rst || d.st == .off)

/-- RESET in any state (R72), without its effect on the array. TEMP_HIGH's condition outlasts it; whether that of INTERNAL does is not said, and
it ends here (R59; DESIGN CHOICE, log 47). -/
def Die.takeReset (d : Die) : Die :=
  if d.st = .off then d
  else { (Die.init.withTemp d.tempHigh) with st := .rst }

/-- A frame of one of the commands without operands: its MOD must be 0 (Table 2.8). True when it is taken. -/
def Die.takesPlain (d : Die) (mod : BitVec 6) : Bool := d.awake && mod == 0

/-- The CONFIG word of TRAIN (R57). -/
def Die.takeConfig (d : Die) (mod : BitVec 6) (w : BitVec 12) : Die :=
  let v := w.toNat
  if d.st = .off then d
  else if !d.awake || mod != 3 || bits v 8 2 == 3 || bits v 3 4 != 0 then d.reject
  else { d with odt := BitVec.ofNat 2 (bits v 10 2), drive := BitVec.ofNat 2 (bits v 8 2), fast := bit v 7
                index := BitVec.ofNat 3 (bits v 0 3) }

/-- WR_STORE (R58). -/
def Die.takeWrStore (d : Die) (mod : BitVec 6) (data : List Byte) : Die :=
  if d.st = .off then d else if !d.awake || mod != 1 then d.reject else { d with trainBuf := data.take 64 }

/-- The training buffer, 0xFF bytes after RESET (R72). -/
def Die.store (d : Die) : List Byte := if d.trainBuf.isEmpty then List.replicate 64 0xFF else d.trainBuf

/-- Whether thresholds are strictly ascending. -/
def ascending (l : List Nat) : Bool :=
  match l with
  | [] => true
  | x :: r => (match r with | [] => true | y :: _ => decide (x < y)) && ascending r

/-- The planes of a mask. -/
def planesOf (m : BitVec 4) : List Nat := (List.range 4).filter (fun p => m.getLsbD p)

/-- SET_REF (R62): a set that is not strictly ascending sets REF_ERR and keeps the previous set. A frame that sets bits [11:10] of a
threshold word is rejected with CMD_ERR (Table 2.8), also where its words put 0b111111 on four rising edges in a row, which R55 would
read as RESET: such a frame is not legal, and the model takes Table 2.8 (DEDUCED, log 47). -/
def Die.takeSetRef (d : Die) (mod : BitVec 6) (words : List (BitVec 12)) : Die :=
  let mask := BitVec.ofNat 4 (bits mod.toNat 2 4)
  let ts := words.map (fun w => w.toNat)
  if d.st = .off then d
  else if !d.awake || d.st == .sense || bits mod.toNat 0 2 != 0 || mask == 0 || ts.length != 15
      || ts.any (fun t => decide (1024 ≤ t)) then d.reject
  else if !ascending ts then { d with status1 := d.status1 ||| 8#8 }
  else { d with refs := (planesOf mask).foldl (fun r p => Tab.put r p ts) d.refs }

/-- The thresholds of a plane; after RESET the set Tk = 64k (R62). -/
def Die.refOf (d : Die) (p : Nat) : List Nat := Tab.get d.refs p ((List.range 15).map (fun k => 64 * (k + 1)))

/-- A read SENSE (R68): taken in IDLE and SUSP, queued in SUSPENDING, else rejected; a second queued sense is
rejected. -/
def Die.takeSense (d : Die) (x : Sense) : Die :=
  match d.st with
  | .off => d
  | .idle | .susp => d.startSense x
  | .suspending => if d.qSense.isSome then d.reject else { d with qSense := some x }
  | _ => d.reject

/-- The fields of a SENSE frame (Table 2.8): none where the frame is malformed (R56). -/
def senseOf (kind : SenseKind) (mod : BitVec 6) (c1 c2 c3 : BitVec 12) : Option Sense :=
  let mask := BitVec.ofNat 4 (bits mod.toNat 2 4)
  if bits mod.toNat 0 2 != 0 || mask == 0 || decide (1039 < c1.toNat) || decide (1023 < c2.toNat)
      || decide (63 < c3.toNat) || (kind == .soft) != (c3 != 0) then none
  else some { kind := kind, planes := mask, block := c1.toNat, page := c2.toNat, delta := c3.toNat }

/-- Whether the die answers an XFER of `kind` for the planes of a mask (R63, Table 2.14). -/
def Die.answers (d : Die) (kind : SenseKind) (mod : BitVec 6) (c1 : BitVec 12) : Bool :=
  let mask := BitVec.ofNat 4 (bits mod.toNat 2 4)
  (d.st == .idle || d.st == .prog || d.st == .erase || d.st == .suspending || d.st == .susp) && bits mod.toNat 0 2 == 1 && mask != 0
    && (match kind with | .hist => c1 == 0 | _ => decide (c1.toNat ≤ 255))
    && (match d.done with
        | none => false
        | some x => (x.sense.kind == kind || (kind == .page && x.sense.kind == .soft))
            && (mask &&& ~~~x.sense.planes) == 0#4)

/-- SUSPEND (R68, R70): taken in PROG and ERASE; at SUSP_COUNT 16 in PROG it sets SUSP_EXH. -/
def Die.takeSuspend (d : Die) : Die :=
  match d.st with
  | .prog => if d.suspCount = 16 then { d with status1 := d.status1 ||| 4#8 } else { d with st := .suspending }
  | .erase => { d with st := .suspending }
  | _ => d

/-- RESUME (R68): taken in SUSP, queued in SUSPENDING and, with an operation held, in SENSE. -/
def Die.takeResume (d : Die) : Die :=
  match d.st with
  | .susp => ({ d with qResume := true }).settle
  | .suspending => { d with qResume := true }
  | .sense => if d.op.isSome then { d with qResume := true } else d
  | _ => d

/-- PROGRAM LOAD (R65): IDLE only; a LOAD of another block or page clears LOAD_MAP first; a bus CRC mismatch sets
LOAD_CRC and leaves the slot unloaded. -/
def Die.takeLoad (d : Die) (mod : BitVec 6) (c1 c2 c3 : BitVec 12) (data : Cell) (crcOk : Bool) : Die :=
  let plane := bits mod.toNat 4 2
  if d.st = .off then d
  else if d.st != .idle || bits mod.toNat 0 4 != 0 || decide (1039 < c1.toNat) || decide (1023 < c2.toNat)
      || decide (7 < c3.toNat) then d.reject
  else
    let here := some (c1.toNat, c2.toNat)
    let d := if d.loadAt = here then d else { d with loadMap := 0, bufs := [], loadAt := here }
    let i := 8 * plane + c3.toNat
    if crcOk then { d with loadMap := d.loadMap ||| BitVec.ofNat 32 (2 ^ i), bufs := Tab.put d.bufs i data }
    else { d with status1 := d.status1 ||| 0x10#8, loadMap := d.loadMap &&& ~~~BitVec.ofNat 32 (2 ^ i)
                  bufs := Tab.del d.bufs i }

/-- LOAD_MAP bits of all 8 slots of the planes of a mask. -/
def slotMask (m : BitVec 4) : BitVec 32 :=
  BitVec.ofNat 32 (total ((planesOf m).map (fun p => 255 * 2 ^ (8 * p))))

/-- Whether a START would be accepted (R65, R68). -/
def Die.startsOk (d : Die) (mask : BitVec 4) (block page : Nat) : Bool :=
  d.st == .idle && mask != 0 && d.loadAt == some (block, page) && (slotMask mask &&& ~~~d.loadMap) == 0#32

/-- PROGRAM START (R65). -/
def Die.takeStart (d : Die) (mod : BitVec 6) (c1 c2 c3 : BitVec 12) : Die :=
  let mask := BitVec.ofNat 4 (bits mod.toNat 2 4)
  if d.st = .off then d
  else if bits mod.toNat 0 2 != 1 || decide (1039 < c1.toNat) || decide (1023 < c2.toNat) || decide (5 < c3.toNat)
      || !d.startsOk mask c1.toNat c2.toNat then d.reject
  else
    let o : ArrayOp := { erase := false, planes := mask, block := c1.toNat, page := c2.toNat, tmode := c3.toNat }
    { d with st := .prog, op := some o, suspCount := 0 }

/-- ERASE (R68). -/
def Die.takeErase (d : Die) (mod : BitVec 6) (c1 : BitVec 12) : Die :=
  let mask := BitVec.ofNat 4 (bits mod.toNat 2 4)
  if d.st = .off then d
  else if d.st != .idle || bits mod.toNat 0 2 != 0 || mask == 0 || decide (1039 < c1.toNat) then d.reject
  else { d with st := .erase, op := some { erase := true, planes := mask, block := c1.toNat, page := 0, tmode := 0 } }

/-! ### Ends of operations (R69-R72) -/

/-- A sense ends with what its registers now hold. -/
def Die.endSense (d : Die) (x : Sensed) : Die :=
  if d.st = .sense then ({ d with sense := none, done := some x }).settle else d

/-- SUSPENDING ends: the count rises for a program (R70), a queued sense starts, else R69. -/
def Die.endSuspend (d : Die) : Die :=
  if d.st ≠ .suspending then d
  else
    let n := match d.op with | some o => if o.erase then d.suspCount else d.suspCount + 1 | none => d.suspCount
    let d := { d with suspCount := n }
    match d.qSense with
    | some x => d.startSense x
    | none => d.settle

/-- Whether a program (or erase) of the die can end: it runs, or is being suspended (R69, R71). -/
def Die.canEnd (d : Die) (erase : Bool) : Bool :=
  match d.op with
  | some o => o.erase == erase && (d.st == o.running || d.st == .suspending)
  | none => false

/-- A program or erase ends, with FAIL when its verify failed (R69, R71). LOAD_MAP clears after a program (R65). -/
def Die.endOp (d : Die) (fail : Bool) : Die :=
  let prog := match d.op with | some o => !o.erase | none => false
  let d := { d with op := none, qResume := false
                    status1 := if fail then d.status1 ||| 2#8 else d.status1
                    loadMap := if prog then 0 else d.loadMap, bufs := if prog then [] else d.bufs
                    loadAt := if prog then none else d.loadAt }
  match d.st, d.qSense with
  | .suspending, some x => d.startSense x
  | _, _ => { d with st := .idle }

/-- RESET ends within tRST (R66). -/
def Die.endReset (d : Die) : Die := if d.st = .rst then { d with st := .idle } else d

/-! ### What a die sends -/

/-- The codewords of an XFER, in ascending plane and slot order (R63). -/
def xferSlots (mod : BitVec 6) (c1 : BitVec 12) : List Nat :=
  (planesOf (BitVec.ofNat 4 (bits mod.toNat 2 4))).flatMap (fun p =>
    ((List.range 8).filter (fun i => c1.getLsbD i)).map (fun i => 8 * p + i))

/-- A burst followed by its CRC-32C (R63). -/
def burst (bs : List Byte) : List Byte := bs ++ le 4 (crc32c bs)

/-- What READ_HIST XFER sends for the planes of a mask (R63, R64). -/
def Sensed.histogram (x : Sensed) (mod : BitVec 6) : List Byte :=
  burst ((planesOf (BitVec.ofNat 4 (bits mod.toNat 2 4))).flatMap (fun p =>
    (List.range 64).flatMap (fun i => le 4 (x.histCount p i))))

/-- One lane of RD_PATTERN: PRBS-7 x^7 + x^6 + 1, `n` bits from a seed, the register's top bit first (R58). -/
def prbs7 (s n : Nat) : List Bool :=
  match n with
  | 0 => []
  | k + 1 => bit s 6 :: prbs7 ((s * 2 + flag (bit s 6 != bit s 5)) % 128) k

/-- The 64 bytes of RD_PATTERN: lane DQ[k] carries the sequence of seed k + 1 (R58). -/
def rdPattern : List Byte :=
  let lanes := (List.range 8).map (fun k => prbs7 (k + 1) 64)
  (List.range 64).map (fun i => BitVec.ofNat 8 (ofBits (lanes.map (fun l => l.getD i false))))

/-- A figure of IDENTIFY that die `d` reports (log 12). -/
def figure (d i : Nat) : Nat :=
  if i ∈ [5, 7, 8, 9, 10, 14] then (Config.dieFigure d i).toNat % 256 else (Config.dieFigure d i).toNat

/-- The limits of the figures of Table 2.10. -/
def figureLimits : List Nat := [22, 60, 48, 300, 1600, 6]

/-- CLASS to PAGE_BYTES and SUSP_LIMIT of Table 2.10, figures 7 to 14. -/
def figureValues : List Nat := [4, 2, 4, 4, 1040, 1024, 36864, 16]

/-- Whether a die's IDENTIFY keeps to Table 2.10: a permitted MAKER, the values it requires, and maxima within its limits (R80). -/
def conforms (d : Nat) : Bool :=
  (Config.dieMaker d).toNat != 0 && (Config.dieMaker d).toNat != 0xFFFF
    && ((List.range 8).zip figureValues).all (fun e => figure d (7 + e.1) == e.2)
    && ((List.range 6).zip figureLimits).all (fun e => decide (figure d e.1 ≤ e.2)) && decide (1500 ≤ figure d 6)

/-- The IDENTIFY response of die `d` (Table 2.10). -/
def identifyBytes (d : Nat) : List Byte :=
  let b := le 2 (Config.dieMaker d).toNat ++ le 1 (figure d 7) ++ le 1 (figure d 8) ++ le 1 (figure d 9) ++ le 1 (figure d 10)
    ++ le 2 (figure d 11) ++ le 2 (figure d 12) ++ le 2 (figure d 13) ++ le 2 (figure d 0) ++ le 2 (figure d 1) ++ le 2 (figure d 2)
    ++ le 2 (figure d 3) ++ le 2 (figure d 4) ++ le 1 (figure d 5) ++ le 1 (figure d 14) ++ le 2 (figure d 6)
    ++ zeros 6 ++ (List.range 16).map (fun i => Config.dieSerial d i) ++ zeros 12
  b ++ le 4 (crc32c b)

end Sys2Proof.Machine
end

