-- ==== Sys2Proof/Machine/Finish.lean ====
section
/-! DEFINITION. How commands end: sequences, completions and result blocks (R330-R335, R453), the range engine's operations
and the cache drain (R256-R258), and the commands that wait for something that has come. -/

namespace Sys2Proof.Machine

/-- STATE codes of Table 1.13. -/
def DevState.code (d : DevState) : Nat :=
  match d with
  | .standby => 1 | .powering => 2 | .held => 3 | .mounting => 4 | .serving => 5 | .maintenance => 6 | .cinch => 7
  | .poweringDown => 8 | .fault => 9

/-! ### Status codes (Table 10.6) -/

abbrev stSuccess : Nat := 0x00
abbrev stOpcode : Nat := 0x01
abbrev stField : Nat := 0x02
abbrev stState : Nat := 0x03
abbrev stContext : Nat := 0x04
abbrev stRange : Nat := 0x05
abbrev stBusy : Nat := 0x06
abbrev stAborted : Nat := 0x07
abbrev stReadOnly : Nat := 0x08
abbrev stNoSpace : Nat := 0x09
abbrev stMedia : Nat := 0x0A
abbrev stPartial : Nat := 0x0B
abbrev stImage : Nat := 0x0C
abbrev stKey : Nat := 0x0D
abbrev stTimeout : Nat := 0x0E
abbrev stInternal : Nat := 0x0F

/-! ### Queues -/

/-- A queue pair at its reset values (Table 10.2). -/
def Queue.init : Queue :=
  { sqBase := 0, cqBase := 0, sqLast := 0, cqLast := 0, st := .idle, lock := false, lockCtx := 0, weight := 1, intEn := true, vector := 0
    coalUs := 0, coalCount := 0, fetchErr := false, dbErr := false, cfgErr := false, sqHead := 0, sqTail := 0, cqHead := 0
    cqTail := 0, phase := true, ready := [], unsent := 0 }

def State.queue (s : State) (q : Nat) : Queue := Tab.get s.cmdq.queues q Queue.init
def State.setCmdq (s : State) (c : Cmdq) : State := { s with cmdq := c }
def State.setQueue (s : State) (q : Nat) (x : Queue) : State :=
  s.setCmdq { s.cmdq with queues := Tab.put s.cmdq.queues q x }

/-- Sends an MSI-X message; one to a masked vector waits in the pending-bit array (R423). -/
def State.msix (s : State) (v : Nat) : State :=
  if s.host.unmasked.contains v then s.emit (.msix v)
  else { s with host := { s.host with pba := if s.host.pba.contains v then s.host.pba else s.host.pba ++ [v] } }

/-- Commands of a pair in progress: from the fetch to the posting of the completion (R326). -/
def State.pairBusy (s : State) (q : Fin 1024) : Nat :=
  (s.cmdq.cmds.filter (fun c => c.port == Port.sq q)).length + (s.queue q.val).ready.length

/-- A stopping pair without commands in progress becomes IDLE (R324). -/
def State.settlePair (s : State) (q : Fin 1024) : State :=
  let x := s.queue q.val
  if x.st = .stopping ∧ s.pairBusy q = 0 then s.setQueue q { x with st := .idle } else s

/-- Whether a CQ has room for an entry. -/
def Queue.room (x : Queue) : Bool := (x.cqTail + 1) % (x.cqLast + 1) != x.cqHead

/-- Posts one completion: phase, tail, and the message of R335. -/
def State.postEntry (s : State) (q : Nat) (e : List Byte) (noIrq : Bool) : State :=
  let x := s.queue q
  let info := flag x.phase * 128 + s.dev.state.code
  let entry := e.take 4 ++ le 1 info ++ e.drop 5
  let tail := (x.cqTail + 1) % (x.cqLast + 1)
  let n := if noIrq then x.unsent else x.unsent + 1
  let send := x.intEn && !noIrq && decide (Nat.max 1 x.coalCount ≤ n)
  let s := s.emit (.completion q (x.cqBase + 16 * x.cqTail) entry)
  let s := s.setQueue q { x with cqTail := tail, phase := if tail = 0 then !x.phase else x.phase, unsent := if send then 0 else n }
  if send then s.msix x.vector else s

/-- Posts the completions that wait, as far as the CQ has room (R334). -/
def State.postReady (s : State) (q : Nat) (fuel : Nat) : State :=
  match fuel with
  | 0 => s
  | n + 1 =>
    let x := s.queue q
    match x.ready with
    | [] => s
    | (e, noIrq) :: r => if x.room then ((s.setQueue q { x with ready := r }).postEntry q e noIrq).postReady q n else s

/-! ### Ends of commands -/

/-- The next SEQUENCE (R332). -/
def State.sequence (s : State) : Nat := s.store.powerCycles % 2 ^ 24 * 2 ^ 40 + (s.cmdq.seqs + 1)

def Cmd.opcode (c : Cmd) : Nat := c.pkt.u 0 1
def Cmd.noIrq (c : Cmd) : Bool := bit (c.pkt.u 1 1) 1

/-- Completion bytes without PHASE and STATE (Table 10.5). -/
def completionBytes (cid code detail words seq : Nat) : List Byte :=
  le 2 cid ++ le 2 (code + detail % 128 * 256) ++ [0] ++ le 3 words ++ le 8 seq

/-- A RESPONSE message of the service port (Table 16.1): the completion with PHASE 0, and the result. -/
def State.respond (s : State) (cid code detail seq : Nat) (result : List Byte) : State :=
  let e := completionBytes cid code detail (result.length / 8) seq
  s.emit (.service ([0x02, 0, 0, 0] ++ (e.take 4 ++ le 1 s.dev.state.code ++ e.drop 5) ++ result))

/-- Ends a command with a status, and the bytes of its result after SEQUENCE (none: no result block). A command whose completion
is not posted only ends (R324, R338). -/
def State.finish (s : State) (c : Cmd) (code detail : Nat) (result : Option (List Byte)) : State :=
  let s := s.setCmdq { s.cmdq with cmds := s.cmdq.cmds.filter (fun x => x.id != c.id) }
  if !c.posts then
    match c.port with | .sq q => s.settlePair q | .svc => s
  else
    let seq := s.sequence
    let s := s.setCmdq { s.cmdq with seqs := s.cmdq.seqs + 1 }
    let res := match result with | some r => le 8 seq ++ r | none => []
    match c.port with
    | .svc => s.respond (c.pkt.u 2 2) code detail seq res
    | .sq q =>
      let s := if res.isEmpty then s else s.emit (.hostWrite (c.pkt.u 0x10 8) res)
      let x := s.queue q.val
      let s := s.setQueue q { x with ready := x.ready ++ [(completionBytes (c.pkt.u 2 2) code detail (res.length / 8) seq, c.noIrq)] }
      (s.postReady q.val (x.ready.length + 1)).settlePair q

/-- Changes a command in progress. -/
def State.updCmd (s : State) (id : Nat) (f : Cmd → Cmd) : State :=
  s.setCmdq { s.cmdq with cmds := s.cmdq.cmds.map (fun c => if c.id = id then f c else c) }

/-! ### The range engine and the drain (R256-R258) -/

/-- Whether a run of leaves lies in granules bound to a context. -/
def State.bindsRun (s : State) (ctx first n : Nat) : Bool :=
  (List.range ((first + n - 1) / 4096 - first / 4096 + 1)).all (fun i =>
    match Tab.find s.xlat.dir (first / 4096 + i) with
    | some e => !(e.st == SegSt.absent && e.dirty) && e.ctx.toNat == ctx
    | none => false)

/-- The state rules of R257: DISCARD in MAINTENANCE only, LOCK and PREFETCH while the cache is enabled. -/
def State.rangeStateOk (s : State) (op : Nat) : Bool :=
  (op != 2 || s.dev.state == .maintenance) && ((op != 3 && op != 5) || s.cache.enabled)

/-- Whether a leaf of a range operation is still on its way: a commit of CLEAN, or a tack of the engine (Table 7.6). -/
def State.rangeWaits (s : State) (r : RangeOp) : Bool :=
  (r.op == 0 && s.cache.commits.any (fun c => c.owner == .range)) ||
    s.tacks.any (fun e => e.2.origin == .engine engRange && e.2.owner.isSome && !e.2.draining)

/-- Table 7.7 after SEQUENCE. -/
def RangeOp.result (r : RangeOp) : List Byte :=
  le 8 r.leaves ++ le 8 r.written ++ le 4 r.skipped ++ le 4 r.lockFull ++ le 4 r.dropped ++ zeros 28

/-- Unlocks every line and names every dirty one: the drain of a disable begins (R258 steps 1-3). -/
def State.startDrain (s : State) : State :=
  { s with cache := { s.cache with enabled := false, draining := true, disableWaits := false
                                   lines := s.cache.lines.map (fun e => (e.1, { e.2 with locked := false, named := e.2.named || e.2.dirty != 0 })) } }

/-- A disable that waits for the engine begins, or the next operation that waits starts under the rules as they now stand
(R256, R258). -/
def State.nextRange (s : State) (fuel : Nat) : State :=
  match fuel with
  | 0 => s
  | n + 1 =>
    if s.cache.rng.isSome || s.cache.draining then s
    else if s.cache.disableWaits then s.startDrain
    else
      match s.cache.rngQueue with
      | [] => s
      | r :: rest =>
        let s' := { s with cache := { s.cache with rngQueue := rest } }
        let cmd := r.cmd.bind (fun i => s.cmdq.cmds.find? (fun c => c.id == i))
        let fail := fun (code : Nat) => match cmd with | some c => (s'.finish c code 0 none).nextRange n | none => s'.nextRange n
        if r.cmd.isSome && cmd.isNone then s'.nextRange n
        else if !s.rangeStateOk r.op then fail stState
        else if !s.bindsRun r.ctx.toNat r.next (r.last + 1 - r.next) then fail stRange
        else { s' with cache := { s'.cache with rng := some r, rngOp := r.op } }

/-- The range engine leaves its operation, whose counts the registers keep (Table 7.14). -/
def State.leaveRange (s : State) (r : RangeOp) : State :=
  { s with cache := { s.cache with rng := none, rngOp := r.op, skipped := Nat.min 0xFFFF r.skipped, lockFull := Nat.min 0xFFFF r.lockFull } }

/-- The running operation ends when every leaf has been taken and none is waited for (Table 7.6). -/
def State.endRange (s : State) : State :=
  match s.cache.rng with
  | none => s
  | some r =>
    if decide (r.next ≤ r.last) || s.rangeWaits r then s
    else
      let s := s.leaveRange r
      let s := match r.cmd.bind (fun i => s.cmdq.cmds.find? (fun c => c.id == i)) with
        | some c => s.finish c (if r.skipped + r.lockFull + r.dropped = 0 then stSuccess else stPartial) 0 (some r.result)
        | none => s
      s.nextRange (s.cache.rngQueue.length + 1)

/-- A flush that is complete answers the host (R262). -/
def State.endGpf (s : State) : State :=
  if s.cache.gpf && !s.cache.commits.any (fun c => c.owner == .gpf) then
    ({ s with cache := { s.cache with gpf := false, gpfLate := false } }).emit (.message "GPF response" 0)
  else s

/-! ### Commands that wait -/

/-- Whether a plane-block of a die-block still shows the state BURNISHED: its patrol is still to come. -/
def State.stillBurnished (s : State) (db : Nat) : Bool :=
  s.blocks.pbs.any (fun e => e.1 / 8192 == db / 2048 && e.1 % 2048 == db % 2048 && e.2.st == .burnished)

/-- Whether a member still waits for its burnish reads. -/
def State.stillBurnishing (s : State) (k : Nat) : Bool :=
  match Tab.find s.blocks.stitches (k / 16) with
  | none => false
  | some x => x.st != .releasing && !x.passMask.getLsbD (k % 16) && (match Tab.find x.positions (k % 16) with
    | some db => !s.blocks.forced.contains db
    | none => false)

/-- What a CTX_MODIFY waits for beside its records: the media commits it began, and the pinned segments of its context (Table 9.3). -/
def State.modifyDone (s : State) (c : Cmd) : Bool :=
  !s.cache.commits.any (fun x => x.owner == .cmd c.id) && !s.xlat.pinsDue.any (fun p => (Tab.find s.xlat.dir p.1).any (fun e => e.ctx.toNat == c.pkt.u 4 2)) &&
    !s.xlat.dir.any (fun e => e.2.pinned && e.2.st == SegSt.inMedia && e.2.ctx.toNat == c.pkt.u 4 2)

/-- Whether what a command waits for has come; the waits that rows of their own end are not judged here. -/
def State.waitOver (s : State) (c : Cmd) : Bool :=
  match c.step with
  | .journal n => (match s.xlat.jCommit with | some k => decide (n / 4096 ≤ k) | none => false) && (c.opcode != 0x11 || s.modifyDone c)
  | .commits => s.modifyDone c
  | .segments gs => gs.all (fun g => match Tab.find s.xlat.dir g with | some e => e.st != SegSt.inMedia | none => true)
  | .drain => !s.cache.draining && !s.cache.disableWaits
  | .scrub dbs => !dbs.any s.stillBurnished
  | .refresh dbs => !dbs.any (fun db => s.blocks.refreshQ.contains db || s.blocks.forced.contains db || s.blocks.jobs.any (fun j => j.db == db))
  | .burnish ks => !ks.any s.stillBurnishing
  | .retire level first n => !s.blocks.leaving.any (fun u => u.level == level && u.first == first && u.count == n)
  | _ => false

/-- The result of a command that waited: counts for range and unit commands (Table 10.8). -/
def Cmd.waitResult (c : Cmd) : Option (List Byte) :=
  match c.opcode with
  | 0x30 | 0x31 => some (le 8 c.done)
  | 0x40 | 0x41 | 0x42 | 0x43 | 0x44 => some (le 8 c.done ++ le 8 c.holed ++ zeros 8)
  | _ => none

/-- Whether every completion is posted. -/
def State.allPosted (s : State) : Bool := s.cmdq.queues.all (fun e => e.2.ready.isEmpty)

/-- What waits until no other command is in progress begins: an activation, whose pause starts (R345, Table 16.6), or the clean
shutdown path (R392). -/
def State.startStopped (s : State) : State :=
  let serving := s.dev.state == .serving || s.dev.state == .maintenance
  if !serving || !s.allPosted then s
  else match s.cmdq.cmds with
    | [] => if s.power.offAsked && s.power.shutdown == .none then { s with power := { s.power with shutdown := .running } } else s
    | [c] =>
      if s.cmdq.stopped ≠ some c.id then s
      else match c.step with
        | .activate =>
          if s.img.st = .staged then
            { s with img := { s.img with st := .activating }, cache := { s.cache with pause := true }, boot := { s.boot with step := .boot } }
          else s
        | .shutdown => if s.power.shutdown = .none then { s with power := { s.power with shutdown := .running } } else s
        | _ => s
    | _ => s

/-- Ends what has come to its end, and begins what waited for it. -/
def State.finishWaiters (s : State) : State :=
  let s := s.endGpf.endRange
  (s.cmdq.cmds.foldl (fun s c => if s.waitOver c then s.finish c c.code 0 c.waitResult else s) s).startStopped

end Sys2Proof.Machine
end

