-- ==== Sys2Proof/Machine/Flags.lean ====
section
/-! DEFINITION. Status words and flags as functions of the state, the conditions of the level interrupt sources, the
choice of an eligible route, and `settle`: what follows from every change of state in the same step (flag changes,
status edges, notifications). -/

namespace Sys2Proof.Machine

/-! ### Status words -/

def State.arb (s : State) (ch : Nat) : Option Arb := Tab.find s.arbs ch

/-- Channels whose L1 bound is suspended (R38). -/
def State.boundMask (s : State) : Nat := total ((s.arbs.filter (fun e => e.2.boundOff)).map (fun e => 2 ^ e.1))

/-- Channels on which the integrity override applies (ARB_DRF_OVR_0..2). -/
def State.drfOvrMask (s : State) : Nat := total ((s.arbs.filter (fun e => e.2.drfOvr)).map (fun e => 2 ^ e.1))

/-- Channels whose programmed tickets are not bound-safe (ARB_UNSAFE_0..2). -/
def State.unsafeMask (s : State) : Nat := total ((s.arbs.filter (fun e => e.2.unbound)).map (fun e => 2 ^ e.1))

/-- ARB_STATUS (Table 3.5). -/
def State.arbStatus (s : State) : Nat :=
  flag s.dev.spaceLow + 2 * flag (s.drfOvrMask != 0) + 4 * flag (s.unsafeMask != 0)

/-- DRIFT_STATUS (Table 4.13). -/
def State.driftStatus (s : State) : Nat :=
  flag s.drift.assessing + 2 * flag (s.drift.dies.any (fun e => e.2.assumed))
    + 4 * flag (s.drift.dies.any (fun e => e.2.clamped)) + 8 * flag s.drift.wallUsed + 16 * flag s.drift.aonUsed
    + 32 * flag s.drift.reassessing + 64 * flag s.drift.holeFull

/-- Entries in the sample ring (R446). -/
def State.smpFill (s : State) : Nat := (s.obs.head + 4194304 - s.obs.tail) % 4194304

/-- Whether a die of channel `ch` is hot (R436). -/
def State.chHot (s : State) (ch : Nat) : Bool := (List.range 8).any (fun d => (s.ctlOf (dieKey ch d)).hot)

/-- Dirty lines of 1 MiB. -/
abbrev linesPerMib : Nat := 256

def State.dirtyLines (s : State) : Nat := s.cache.dirtyList.length

def State.overCeiling (s : State) : Bool := decide (s.cache.ceiling * linesPerMib < s.dirtyLines)

/-- THROTTLE (R264). -/
def State.throttled (s : State) : Bool :=
  decide ((s.cache.ceiling - 64) * linesPerMib ≤ s.dirtyLines) || s.overCeiling

/-- CACHE_STATUS (Table 7.12). -/
def State.cacheStatus (s : State) : Nat :=
  flag s.cache.enabled + 2 * flag s.cache.draining + 4 * flag s.cache.rng.isSome + 8 * flag s.cache.gpf
    + 16 * flag s.throttled + 32 * flag s.overCeiling + 64 * flag s.cache.ceilFloored

/-- Free pages of a stream: of the ring of its two copies that has fewer. -/
def State.ringFree (s : State) (stream : Nat) : Nat :=
  let used := fun c => (s.xlat.ring.filter (fun e => e.1 / 4096 == stream * 2 + c)).length
  4096 - Nat.max (used 0) (used 1)

/-- JRN_PRESSURE (R190). -/
def State.pressure (s : State) : Bool := (List.range 8).any (fun t => decide (s.ringFree t < 512))

/-- Pinned granules, ABSENT ones included (R180). -/
def State.pinnedCount (s : State) : Nat := (s.xlat.dir.filter (fun e => e.2.pinned)).length

/-- The counting page of a JSEQ: of readable copies the one of highest EPOCH. -/
def pageAt (ps : List JPage) (n : Nat) : Option JPage :=
  ps.foldl (fun best p =>
    if p.jseq = n then
      match best with
      | some (b : JPage) => if b.epoch < p.epoch then some p else some b
      | none => some p
    else best) none

/-- The run of pages from JSEQ `n` (R196 step 2). -/
def runFrom (ps : List JPage) (n epoch fuel : Nat) : List JPage :=
  match fuel with
  | 0 => []
  | k + 1 =>
    match pageAt ps n with
    | some p => if p.epoch < epoch then [] else p :: runFrom ps (n + 1) p.epoch k
    | none => []

/-- Records of a run with their RSEQ. -/
def recordsOf (run : List JPage) : List (Nat × JRec) :=
  run.flatMap (fun p => ((List.range p.recs.length).zip p.recs).map (fun e => (p.jseq * 4096 + e.1, e.2)))

/-- Whether a run of pages holds a welt's WELT_DONE. -/
def Welt.doneIn (w : Welt) (run : List JPage) : Bool :=
  run.any (fun p => p.recs.any (fun r => match r with | .weltDone q _ => q == w.seq | _ => false))

/-- A welt is valid once the page that holds its WELT_DONE lies in the run that mount would replay from its REPLAY_FROM (R193): one copy
of each page is enough. -/
def State.weltValid (s : State) (w : Welt) : Bool :=
  let ps := s.xlat.pages.filter (fun p => p.primary || p.mirror)
  w.doneIn (runFrom ps (w.replayFrom / 4096) 0 ps.length)

/-- The newest valid welt. -/
def State.newestWelt (s : State) : Option Welt :=
  s.xlat.welts.foldl (fun best w =>
    if s.weltValid w then
      match best with
      | some (b : Welt) => if b.seq < w.seq then some w else some b
      | none => some w
    else best) none

/-- XLAT_STATUS (Table 5.10). -/
def State.xlatStatus (s : State) : Nat :=
  flag s.xlat.run.isSome + 2 * flag (match s.newestWelt with | some w => w.setB | none => false) + 4 * flag (!s.xlat.badLines.isEmpty)
    + 8 * flag s.xlat.remapFull + 16 * flag s.pressure + 32 * flag (s.pinnedCount == s.reg rXlatPinLimit)
    + 64 * flag s.xlat.unclean + 128 * flag s.xlat.fallback + 256 * flag s.xlat.deltaUsed

/-- Whether some pair is in ERROR (CMDQ_STATUS ANY_ERR). -/
def State.anyQueueErr (s : State) : Bool := s.cmdq.queues.any (fun e => e.2.st == .error)

/-! ### Level sources (Table 14.1) -/

def State.levelCond (s : State) (id : Nat) : Bool :=
  if id = 1 then s.reg rDevFlagsChg != 0
  else if id = 3 then bit (s.reg rPwrStatus) 5
  else if id = 4 then bit (s.reg rPwrStatus) 4
  else if id = 5 then bits (s.reg rThermStatus) 5 3 != 0
  else if id = 6 then s.reg rSuspectSeen != 0 || bit (s.reg rThermStatus) 8
  else if id = 9 then s.anyQueueErr
  else if id = 15 then bit (s.reg rPstoreStatus) 5 || bit (s.reg rPstoreStatus) 4 || bit (s.reg rPstoreStatus) 2
  else if 17 ≤ id ∧ id ≤ 32 then bit (s.reg rObsStatus) (id - 17 + 16)
  else if id = 33 then decide (s.field rSmpWater 0 23 ≤ s.smpFill)
  else if id = 34 then bit (s.reg rObsStatus) 3
  else if 64 ≤ id ∧ id < 160 then s.reg (rChEvents (id - 64)) != 0
  else if 160 ≤ id ∧ id < 256 then s.chHot (id - 160)
  else false

/-- Whether a route is pending (R418). A route of priority 0 is not (R425). -/
def State.pendingRoute (s : State) (id : Nat) (r : Route) : Bool :=
  r.prio != 0 && (if levelSource id then s.levelCond id && !r.active else r.edge)

/-- Whether a route is eligible at a target (R420); a route active elsewhere waits for its EOI there (Table 14.2). -/
def State.eligible (s : State) (t : Nat) (run : Nat) (id : Nat) (r : Route) : Bool :=
  r.target == t && s.pendingRoute id r && decide (run < r.prio) && !(r.active && r.activeAt != t)

/-- The eligible route of highest priority at a target, the lowest source ID among equals (R420). -/
def State.bestRoute (s : State) (t : Nat) (run : Nat) : Option (Nat × Route) :=
  s.intc.host.foldl (fun best e =>
    if s.eligible t run e.1 e.2 then
      match best with
      | some b => if b.2.prio < e.2.prio then some e else some b
      | none => some e
    else best) none

/-! ### What follows from a change of state -/

/-- Notifies every host target with ENABLE set that holds an eligible route and has no notification outstanding
(R423). -/
def State.notify (s : State) : State :=
  s.intc.targets.foldl (fun s e =>
    let x := Tab.get s.intc.targets e.1 Target.init
    if x.enable && !x.notified && (s.bestRoute e.1 x.runPrio).isSome then
      let ts := Tab.put s.intc.targets e.1 { x with notified := true }
      ({ s with intc := { s.intc with targets := ts } }).msix x.vector
    else s) s

/-- DEV_FLAGS (Table 1.14). -/
def State.devFlags (s : State) : Nat :=
  flag s.dev.readOnly + 2 * flag s.dev.spaceLow + 4 * flag (s.boundMask != 0) + 8 * flag s.cache.draining
    + 16 * flag s.dev.degraded + 32 * flag s.drift.assessing

/-- Sets the DEV_FLAGS_CHG bits of the flags that changed since `s0` (Table 1.12). -/
def State.flagChanges (s0 s : State) : State :=
  if s0.devFlags = s.devFlags ∨ s.dev.state = .standby then s else s.setReg rDevFlagsChg (s.reg rDevFlagsChg ||| (s0.devFlags ^^^ s.devFlags))

/-- An edge on source `id` when a status word changed (Table 14.1). -/
def State.edgeIf (s : State) (id : Nat) (changed : Bool) : State := if changed then s.raise id else s

/-! ### Conditions that counters count (R439) -/

/-- Whether a condition of Table 15.1 holds; `ch` is the channel a filter names. -/
def State.obsCond (s : State) (code : Nat) (ch : Option Nat) : Bool :=
  match code with
  | 0x20 => decide (16384 ≤ (s.tacks.filter (fun e => decide (e.1 < 16384))).length)
  | 0x21 => decide (49152 ≤ (s.tacks.filter (fun e => decide (16384 ≤ e.1))).length)
  | 0x22 => s.throttled
  | 0x23 => s.therm.throttle
  | 0x24 => s.dies.any (fun e => (match ch with | some c => e.1 / 8 == c | none => true)
      && (e.2.st == .prog || e.2.st == .erase || e.2.st == .suspending || e.2.st == .susp))
  | 0x25 => s.cache.rng.isSome
  | _ => false

/-- The counters of a condition in EDGE mode count its rises (R439). A pause of the map updater lies within one step (log 28). -/
def State.countConds (s0 s : State) : State :=
  if bit (s.reg rObsCtrl) 0 then s
  else s.obs.counters.foldl (fun s e =>
    let code := bits e.2.cfg 0 6
    let ch := if bit e.2.flt 14 then some (bits e.2.flt 7 7) else none
    if bit e.2.cfg 31 && !bit e.2.cfg 30 && decide (0x20 ≤ code) && !s0.obsCond code ch && s.obsCond code ch then s.addCount e.1 1 else s) s

/-- The latency tolerance of LTR messages in ns: 20 µs while an enabled command queue is not empty or a message is pending, else
3 ms (R275). -/
def State.ltr (s : State) : Nat :=
  if s.cmdq.queues.any (fun e => (e.2.st == .running || e.2.st == .error) && e.2.sqHead != e.2.sqTail) || !s.host.pba.isEmpty then 20000
  else 3000000

/-- What the link sends of itself: LTR when the tolerance changes or the link comes up. -/
def State.linkMessages (s0 s : State) : State :=
  if !s.host.up || (s0.host.up && s0.ltr == s.ltr) then s else s.emit (.message "LTR" s.ltr)

/-- What follows in the same step from the change of `s0` to `s`. -/
def State.settle (s0 s : State) : State :=
  let s := s.finishWaiters
  let s := s0.countConds s
  let s := s0.flagChanges s
  let s := s.edgeIf 8 (s0.cacheStatus != s.cacheStatus)
  let s := s.edgeIf 10 (s0.xlatStatus / 8 % 32 != s.xlatStatus / 8 % 32)
  let s := s.edgeIf 13 (s0.harness.leaderLost != s.harness.leaderLost || s0.harness.mailboxLost != s.harness.mailboxLost)
  let s := s.edgeIf 14 (s0.img.st != s.img.st)
  let s := s.edgeIf 11 (s0.driftStatus != s.driftStatus)
  let s := s.edgeIf 12 (s0.arbStatus != s.arbStatus)
  s0.linkMessages s.notify

/-- The outcome of a command that changed `s0` to `s`. -/
def State.done (s0 s : State) : Host.Outcome State Fault Refusal := .next (s0.settle s)

end Sys2Proof.Machine
end

