-- ==== Sys2Proof/Machine/Amc2.lean ====
section
/-! DEFINITION. The AMC2 bus: the frames a channel sends to its dies and the ends of die operations, with their
effect on the array (Tables 2.7, 2.8, 2.14; R59-R72). -/

namespace Sys2Proof.Machine

/-! ### The array -/

/-- A media leaf address (Table 2.3). -/
def mla (ch d plane block page slot : Nat) : Nat :=
  ch * 2 ^ 29 + d * 2 ^ 26 + plane * 2 ^ 24 + block * 2 ^ 13 + page * 2 ^ 3 + slot

/-- The plane-block of an address: bits [35:13]. -/
def planeBlock (a : Nat) : Nat := a / 2 ^ 13

/-- Whether an address is valid (R47). -/
def validAddr (a : Nat) : Bool := decide (a / 2 ^ 29 ≤ 95) && decide (bits a 13 11 ≤ 1039)

/-- What a codeword address reads as: none is erased (R53, R88). -/
def State.cell (s : State) (a : Nat) : Option Cell :=
  if planeBlock a ∈ s.anyBlocks then some .anyValue else Tab.find s.media a

/-- Programs a codeword. One programmed twice without an erase reads as any value (R88). -/
def State.program (s : State) (a : Nat) (c : Cell) : State :=
  { s with media := Tab.put s.media a (if (Tab.find s.media a).isSome then .anyValue else c) }

/-- The codeword addresses of a page of the planes of an operation. -/
def ArrayOp.addrs (o : ArrayOp) (k : Nat) : List Nat :=
  (planesOf o.planes).flatMap (fun p => (List.range 8).map (fun i => mla (k / 8) (k % 8) p o.block o.page i))

/-- The plane-blocks of an operation on die `k`. -/
def ArrayOp.blocks (o : ArrayOp) (k : Nat) : List Nat :=
  (planesOf o.planes).map (fun p => planeBlock (mla (k / 8) (k % 8) p o.block 0 0))

/-- The pages an operation targeted read as any value: a program's pages (R69, R72), an erase's plane-blocks. -/
def State.spoil (s : State) (k : Nat) (o : ArrayOp) : State :=
  if o.erase then
    { s with anyBlocks := (o.blocks k).foldl (fun l b => if b ∈ l then l else b :: l) s.anyBlocks }
  else { s with media := (o.addrs k).foldl (fun m a => Tab.put m a .anyValue) s.media }

/-- An operation that passed: a program's codewords are written, an erase's plane-blocks are erased (R65, R45). -/
def State.fulfil (s : State) (k : Nat) (o : ArrayOp) (bufs : Tab Cell) : State :=
  if o.erase then s.eraseCells (o.blocks k)
  else
    (planesOf o.planes).foldl (fun s p => (List.range 8).foldl (fun s i =>
      s.program (mla (k / 8) (k % 8) p o.block o.page i) (Tab.get bufs (8 * p + i) .anyValue)) s) s

/-- What the slots of the page that a sense of die `k` reads hold, by 8p + s; an erased one is not listed. -/
def State.sensedCells (s : State) (k : Nat) (x : Sense) : Tab Cell :=
  (planesOf x.planes).flatMap (fun p => (List.range 8).filterMap (fun i =>
    (s.cell (mla (k / 8) (k % 8) p x.block x.page i)).map (fun c => (8 * p + i, c))))

/-! ### Ends of operations -/

/-- A sense of die `k` ends; its registers hold what the array held, as the sets of its planes see it (log 11). -/
def State.dieSenseEnds (s : State) (k : Nat) : State :=
  let d := s.die k
  match d.st, d.sense with
  | .sense, some x =>
    let sets := (planesOf x.planes).map (fun p => (p, d.refOf p))
    (s.setDie k (d.endSense { sense := x, cells := s.sensedCells k x, sets := sets, stamp := s.nonce })).tick
  | _, _ => s

/-- A program or erase of die `k` ends, passed or failed (R69). -/
def State.dieOpEnds (s : State) (k : Nat) (erase fail : Bool) : State :=
  let d := s.die k
  match d.op with
  | some o =>
    if d.canEnd erase then
      (if fail then s.spoil k o else s.fulfil k o d.bufs).setDie k (d.endOp fail)
    else s
  | none => s

/-- RESET of die `k` with its effect on the array (R72). -/
def State.dieReset (s : State) (k : Nat) : State :=
  let d := s.die k
  let s := match d.op with
    | some o => if d.st = DieState.off then s else s.spoil k o
    | none => s
  s.setDie k d.takeReset

/-- Loss of power: as RESET on the array (R72), and the die is without power. -/
def State.dieDark (s : State) (k : Nat) : State :=
  let d := s.die k
  let s := match d.op with | some o => s.spoil k o | none => s
  { s with dies := Tab.del s.dies k }

/-- Dies of a range lose their power. -/
def State.darken (s : State) (p : Nat → Bool) : State := ((s.dies.filter (fun e => p e.1)).map (fun e => e.1)).foldl State.dieDark s

/-! ### Frames from the bus -/

/-- A frame that die `k` takes, and what it sends. -/
def State.dieTakes (s : State) (ch d : Nat) (f : Die → Die) (reply : Die → List Byte) : State :=
  let x := s.die (dieKey ch d)
  let r := reply x
  let s := s.setDie (dieKey ch d) (f x)
  if r.isEmpty then s else s.emit (.amc2 ch d r)

def execAmc2Reset (ch : Chan) (d : DieNo) (s : State) : Host.Outcome State Fault Refusal :=
  s.done (s.dieReset (dieKey ch d))

def execAmc2Identify (ch : Chan) (d : DieNo) (mod : BitVec 6) (s : State) : Host.Outcome State Fault Refusal :=
  s.done (s.dieTakes ch d (fun x => if x.st = DieState.off ∨ x.takesPlain mod then x else x.reject)
    (fun x => if x.takesPlain mod then identifyBytes (dieKey ch d) else []))

/-- STATUS of one die (R59), which DIE_STATE then shows (R86); SEL selects nothing without SCAN. SCAN set with one CS_N low is malformed: a scan goes to every die
(R44, R60). -/
def execAmc2Status (ch : Chan) (d : DieNo) (mod : BitVec 6) (s : State) : Host.Outcome State Fault Refusal :=
  let ok := bits mod.toNat 4 2 == 0 && !mod.getLsbD 1
  let k := dieKey ch d
  let s := if (s.die k).st ≠ DieState.off ∧ ok then s.setCtl k { s.ctlOf k with seen := BitVec.ofNat 4 (s.die k).st.code } else s
  s.done (s.dieTakes ch d (fun x => if x.st = DieState.off then x else if ok then x.takeStatus (mod.getLsbD 0) else x.reject)
    (fun x => if x.st ≠ DieState.off ∧ ok then x.status else []))

/-- The bit a die drives in a scan (R60): SEL 0 ARDY, 1 RVALID, 2 ALERT, 3 FAIL. -/
def Die.scanBit (d : Die) (sel : Nat) : Bool :=
  match sel with
  | 0 => d.ardy
  | 1 => d.done.isSome
  | 2 => d.alerts
  | _ => d.byte1.getLsbD 1

/-- The byte a scan reads on DQ: each populated die drives its bit on lane DIE_INDEX (R60). A lane that no die drives reads 0, which the
spec leaves open (DESIGN CHOICE, log 47). -/
def State.scan (s : State) (ch sel : Nat) : Nat :=
  (List.range 8).foldl (fun v i =>
    let x := s.die (dieKey ch i)
    if x.st = DieState.off ∨ ¬ x.scanBit sel then v else v ||| 2 ^ x.index.toNat) 0

/-- A STATUS scan (R60): SCAN set, [5:4] 0. With CLEAR each die clears the whole of its byte 1, though the scan sent one bit of it: R59
does not say which (DEDUCED, log 47). A malformed scan is rejected by each die (R56). -/
def execAmc2StatusScan (ch : Chan) (mod : BitVec 6) (s : State) : Host.Outcome State Fault Refusal :=
  let ok := bits mod.toNat 4 2 == 0 && mod.getLsbD 1
  let r := s.scan ch (bits mod.toNat 2 2)
  let s := (List.range 8).foldl (fun s i =>
    let x := s.die (dieKey ch i)
    if x.st = .off then s
    else s.setDie (dieKey ch i) (if ok then x.takeStatus (mod.getLsbD 0) else x.reject)) s
  s.done (if ok then s.emit (.amc2 ch 8 (le 1 r)) else s)

/-- GET_TEMP (R61): the die sends its temperature, and TEMP_HIGH follows it at 95 °C (Table 2.9). -/
def execAmc2GetTemp (ch : Chan) (d : DieNo) (mod : BitVec 6) (temp : BitVec 16) (s : State) :
    Host.Outcome State Fault Refusal :=
  s.done (s.dieTakes ch d
    (fun x => if x.st = DieState.off then x else if x.takesPlain mod then x.withTemp (decide (1520 ≤ temp.toInt)) else x.reject)
    (fun x => if x.takesPlain mod then le 2 temp.toNat else []))

def execAmc2TrainRdPattern (ch : Chan) (d : DieNo) (mod : BitVec 6) (s : State) : Host.Outcome State Fault Refusal :=
  s.done (s.dieTakes ch d (fun x => if x.st = DieState.off ∨ x.takesPlain mod then x else x.reject)
    (fun x => if x.takesPlain mod then rdPattern else []))

def execAmc2TrainWrStore (ch : Chan) (d : DieNo) (mod : BitVec 6) (data : List Byte) (s : State) :
    Host.Outcome State Fault Refusal :=
  s.done (s.dieTakes ch d (fun x => x.takeWrStore mod data) (fun _ => []))

def execAmc2TrainRdStore (ch : Chan) (d : DieNo) (mod : BitVec 6) (s : State) : Host.Outcome State Fault Refusal :=
  s.done (s.dieTakes ch d (fun x => if x.st = DieState.off ∨ (x.awake ∧ mod = 2) then x else x.reject)
    (fun x => if x.awake ∧ mod = 2 then x.store else []))

def execAmc2TrainConfig (ch : Chan) (d : DieNo) (mod : BitVec 6) (word : BitVec 12) (s : State) :
    Host.Outcome State Fault Refusal :=
  s.done (s.dieTakes ch d (fun x => x.takeConfig mod word) (fun _ => []))

def execAmc2SetRef (ch : Chan) (d : DieNo) (mod : BitVec 6) (words : List (BitVec 12)) (s : State) :
    Host.Outcome State Fault Refusal :=
  s.done (s.dieTakes ch d (fun x => x.takeSetRef mod words) (fun _ => []))

/-- A SENSE frame of one kind (R68, Table 2.8). -/
def State.amc2Sense (s : State) (ch d : Nat) (kind : SenseKind) (mod : BitVec 6) (c1 c2 c3 : BitVec 12) : State :=
  s.dieTakes ch d
    (fun x => match senseOf kind mod c1 c2 c3 with
      | some q => x.takeSense q
      | none => if x.st = DieState.off then x else x.reject) (fun _ => [])

/-- An XFER frame of one kind (R63): the die sends the selected data, or rejects the frame. -/
def State.amc2Xfer (s : State) (ch d : Nat) (kind : SenseKind) (mod : BitVec 6) (c1 : BitVec 12) : State :=
  s.dieTakes ch d (fun x => if x.st = DieState.off ∨ x.answers kind mod c1 then x else x.reject)
    (fun x => match x.done with
      | some r =>
        if x.answers kind mod c1 then
          match kind with
          | .hist => r.histogram mod
          | .page => burst ((xferSlots mod c1).flatMap r.hard)
          | .soft => burst ((xferSlots mod c1).flatMap (fun i => r.hard i ++ r.confidence i))
        else []
      | none => [])

def execAmc2ReadPageSense (ch : Chan) (d : DieNo) (mod : BitVec 6) (c1 c2 : BitVec 12) (s : State) :
    Host.Outcome State Fault Refusal :=
  s.done (s.amc2Sense ch d .page mod c1 c2 0)

def execAmc2ReadPageXfer (ch : Chan) (d : DieNo) (mod : BitVec 6) (c1 : BitVec 12) (s : State) :
    Host.Outcome State Fault Refusal :=
  s.done (s.amc2Xfer ch d .page mod c1)

def execAmc2ReadSoftSense (ch : Chan) (d : DieNo) (mod : BitVec 6) (c1 c2 c3 : BitVec 12) (s : State) :
    Host.Outcome State Fault Refusal :=
  s.done (s.amc2Sense ch d .soft mod c1 c2 c3)

def execAmc2ReadSoftXfer (ch : Chan) (d : DieNo) (mod : BitVec 6) (c1 : BitVec 12) (s : State) :
    Host.Outcome State Fault Refusal :=
  s.done (s.amc2Xfer ch d .soft mod c1)

def execAmc2ReadHistSense (ch : Chan) (d : DieNo) (mod : BitVec 6) (c1 c2 : BitVec 12) (s : State) :
    Host.Outcome State Fault Refusal :=
  s.done (s.amc2Sense ch d .hist mod c1 c2 0)

def execAmc2ReadHistXfer (ch : Chan) (d : DieNo) (mod : BitVec 6) (c1 : BitVec 12) (s : State) :
    Host.Outcome State Fault Refusal :=
  s.done (s.amc2Xfer ch d .hist mod c1)

/-- LOAD over the bus: 4,608 bytes and their CRC-32C (R65). -/
def execAmc2ProgramLoad (ch : Chan) (d : DieNo) (mod : BitVec 6) (c1 c2 c3 : BitVec 12) (data : List Byte) (crc : Word)
    (s : State) : Host.Outcome State Fault Refusal :=
  s.done (s.dieTakes ch d (fun x => x.takeLoad mod c1 c2 c3 (.raw data) (crc32c data == crc.toNat)) (fun _ => []))

def execAmc2ProgramStart (ch : Chan) (d : DieNo) (mod : BitVec 6) (c1 c2 c3 : BitVec 12) (s : State) :
    Host.Outcome State Fault Refusal :=
  s.done (s.dieTakes ch d (fun x => x.takeStart mod c1 c2 c3) (fun _ => []))

def execAmc2Erase (ch : Chan) (d : DieNo) (mod : BitVec 6) (c1 : BitVec 12) (s : State) :
    Host.Outcome State Fault Refusal :=
  s.done (s.dieTakes ch d (fun x => x.takeErase mod c1) (fun _ => []))

/-- SUSPEND and RESUME with MOD other than 0 are malformed (R56). -/
def execAmc2Suspend (ch : Chan) (d : DieNo) (mod : BitVec 6) (s : State) : Host.Outcome State Fault Refusal :=
  s.done (s.dieTakes ch d (fun x => if mod = 0 then x.takeSuspend else if x.st = DieState.off then x else x.reject) (fun _ => []))

def execAmc2Resume (ch : Chan) (d : DieNo) (mod : BitVec 6) (s : State) : Host.Outcome State Fault Refusal :=
  s.done (s.dieTakes ch d (fun x => if mod = 0 then x.takeResume else if x.st = DieState.off then x else x.reject) (fun _ => []))

/-- A CS_N that rises inside a frame: the die discards the frame and sets CMD_ERR (R44). -/
def execAmc2FrameAbort (ch : Chan) (d : DieNo) (s : State) : Host.Outcome State Fault Refusal :=
  s.done (s.dieTakes ch d (fun x => if x.st = DieState.off then x else x.reject) (fun _ => []))

def execDieSenseEnd (ch : Chan) (d : DieNo) (s : State) : Host.Outcome State Fault Refusal :=
  s.done (s.dieSenseEnds (dieKey ch d))

def execDieEraseEnd (ch : Chan) (d : DieNo) (fail : Bool) (s : State) : Host.Outcome State Fault Refusal :=
  s.done (s.dieOpEnds (dieKey ch d) true fail)

def execDieSuspendEnd (ch : Chan) (d : DieNo) (s : State) : Host.Outcome State Fault Refusal :=
  s.done (s.setDie (dieKey ch d) (s.die (dieKey ch d)).endSuspend)

end Sys2Proof.Machine
end

