-- ==== Sys2Proof/Machine/Arbiter.lean ====
section
/-! DEFINITION. The rein arbiter of a channel: tickets and overrides (R90, R99-R103), the LFSR and the draw (R92, R93),
hints, loss counts and the starvation guard (R95-R98), and the accounting of slots (R105). -/

namespace Sys2Proof.Machine

/-! ### Tickets -/

/-- Preset tickets (Table 3.1) of profile `p` for requester code `c`. -/
def preset (p c : Nat) : Nat :=
  ((match p with
    | 0 => [160, 24, 24, 16, 255, 8, 4, 8, 16, 1]
    | 1 => [255, 32, 32, 24, 255, 12, 4, 12, 24, 1]
    | 2 => [160, 8, 16, 40, 255, 24, 2, 4, 6, 1]
    | _ => [160, 40, 24, 16, 255, 2, 1, 2, 16, 0]).getD c 0)

/-- Where a requester's tickets stand in ARB_CH_TICKETS_0..2 (Table 3.8): register and low bit. -/
def ticketPlace (c : Nat) : Nat × Nat :=
  match c with
  | 0 => (0, 0) | 1 => (0, 8) | 2 => (0, 16) | 3 => (0, 24) | 4 => (1, 0) | 5 => (1, 8) | 6 => (1, 16) | 7 => (1, 24)
  | 8 => (2, 0) | _ => (2, 8)

/-- The programmed tickets of requester `c` on channel `ch` (R90, R107). -/
def State.tickets (s : State) (ch c : Nat) : Nat :=
  if c = 4 then 255
  else if bit (s.reg (rArbChCtrl ch)) 0 then
    s.field (rArbTickets ch (ticketPlace c).1) (ticketPlace c).2 8
  else preset (s.field rArbProfile 0 2) c

/-- The tickets that no override raises: 0 for SKV, BRN, DRF and DIA while THROTTLE is set (R432). -/
def State.unraised (s : State) (ch c : Nat) : Nat :=
  if s.therm.throttle && (c == 5 || c == 6 || c == 7 || c == 9) then 0 else s.tickets ch c

/-- Effective tickets: raised by the integrity override (R99) and, in a draw without HR1, by the space override (R100). -/
def State.effective (s : State) (ch c : Nat) (hr1 : Bool) (drf : Bool) : Nat :=
  if c = 7 ∧ drf then Nat.max (s.tickets ch c) 128
  else if c = 5 ∧ s.dev.spaceLow ∧ ¬ hr1 then Nat.max (s.tickets ch c) 96
  else s.unraised ch c

/-- Whether an override raises the effective count of a requester in a draw (R101), present or not. -/
def State.raises (s : State) (ch c : Nat) (hr1 : Bool) (drf : Bool) : Bool := decide (s.unraised ch c < s.effective ch c hr1 drf)

/-- Bound-safe: 160 × S ≤ 101 × t1 (R102), for a ticket function. -/
def boundSafe (t : Nat → Nat) : Bool :=
  decide (160 * (t 1 + t 2 + t 3 + t 5 + t 6 + t 7 + t 8 + t 9) ≤ 101 * t 0)

/-- seed_n of R92 for a channel. -/
def seedOf (base : Nat) (ch : Nat) : Word :=
  let v := BitVec.ofNat 32 base ^^^ BitVec.ofNat 32 (ch * 0x01010101)
  if v = 0#32 then 0xFFFFFFFF#32 else v

/-- A channel's arbiter after the reset of FABRIC_CLK (R92, Tables 3.9, 3.10). -/
def Arb.init (ch : Nat) : Arb :=
  { lfsr := seedOf 0x5A17C3E9 ch, reseed := false, losses := [], hints := [], sinceGuard := 15, lastWinner := 15
    slot := .empty, grant := none, next := none, nextSlot := .empty, drawn := false, skvRaised := false, drfOvr := false
    unbound := false, boundOff := false, suspensions := 0 }

def State.arbOf (s : State) (ch : Nat) : Arb := Tab.get s.arbs ch (Arb.init ch)
def State.setArb (s : State) (ch : Nat) (a : Arb) : State := { s with arbs := Tab.put s.arbs ch a }

/-! ### Overrides and the bound (R38, R101-R103) -/

/-- L1 reads under way on a channel that is not bound-safe, or whose bound is suspended, are outside the conditions of R149. -/
def State.markL1 (s : State) (ch : Nat) : State :=
  { s with tacks := s.tacks.map (fun (e : Nat × Tack) =>
      if e.2.op = .hostRead ∧ e.2.cls = 1 ∧ (match e.2.rd with | some r => r.addr.toNat / 2 ^ 29 == ch | none => false) = true then
        (e.1, { e.2 with outside := true })
      else e) }

/-- Brings a channel's UNSAFE and suspended bits in step with its tickets, logging and counting each start (R38,
R102). -/
def State.judge (s : State) (ch : Nat) : State :=
  let a := s.arbOf ch
  let unbound := !boundSafe (s.tickets ch)
  let off := a.drfOvr && !boundSafe (fun c => s.effective ch c true a.drfOvr)
  if unbound = a.unbound ∧ off = a.boundOff then s
  else
    let n := if off && !a.boundOff then a.suspensions + 1 else a.suspensions
    let s := s.setArb ch { a with unbound := unbound, boundOff := off, suspensions := n }
    let s := if unbound || off then s.markL1 ch else s
    let s := if unbound && !a.unbound then
        let sum := total ([1, 2, 3, 5, 6, 7, 8, 9].map (s.tickets ch))
        (s.bump (rArbOvr ch) 0 16 1).event portCore 0x0304 (s.channelPath ch) (le 1 (s.tickets ch 0) ++ le 2 sum)
      else s
    if off && !a.boundOff then s.event portCore 0x0301 (s.channelPath ch) [] else s

/-- Judges every channel: after a write of ARB_PROFILE or a change of THROTTLE. -/
def State.judgeAll (s : State) : State := (List.range 96).foldl State.judge s

/-- The integrity override starts or ends on a channel (R99, R101). -/
def State.setDrfOvr (s : State) (ch : Nat) (on : Bool) : State :=
  let a := s.arbOf ch
  if a.drfOvr = on then s
  else
    let s := s.setArb ch { a with drfOvr := on }
    let s := if on then (s.bump (rArbOvr ch) 16 16 1).event portCore 0x0302 (s.channelPath ch) [] else s
    s.judge ch

/-! ### The draw -/

/-- One step of the LFSR (R92). -/
def lfsrStep (v : Word) : Word :=
  let fb := v.getLsbD 31 ^^ (v.getLsbD 21 ^^ (v.getLsbD 1 ^^ v.getLsbD 0))
  (v <<< 1) ||| (if fb then 1#32 else 0#32)

/-- The scramble of R93. -/
def scramble (v : Word) : Word :=
  let w := (v ^^^ (v >>> 16)) * 0x045D9F3B#32
  w ^^^ (w >>> 16)

/-- The requester whose range holds `r`, over (code, tickets) in ascending code order (R93). -/
def rangeHolder (l : List (Nat × Nat)) (r : Nat) : Option Nat :=
  match l with
  | [] => none
  | (c, t) :: rest => if r < t then some c else rangeHolder rest (r - t)

/-- The turn hint of a loser with `t` tickets of `T` (R95). -/
def hintOf (T t : Nat) : Nat := if t = 0 then 15 else Nat.min 15 (T / t)

/-- The outcome of a draw over present requesters with their effective tickets: the winner and whether the win is
guarded (R93, R98). -/
def drawWinner (a : Arb) (v : Word) (ts : List (Nat × Nat)) : Option Nat × Bool :=
  let T := total (ts.map (fun e => e.2))
  match (ts.filter (fun e => decide (64 ≤ Tab.get a.losses e.1 0))).map (fun e => e.1) with
  | g :: _ => if 15 ≤ a.sinceGuard then (some g, true) else (rangeHolder ts ((scramble v).toNat * T / 2 ^ 32), false)
  | [] => (rangeHolder ts ((scramble v).toNat * T / 2 ^ 32), false)

/-- Loss counts and hints after a draw (R95, R97). A draw without a winner grants nothing: the requesters present keep their last
hints. -/
def afterDraw (a : Arb) (ts : List (Nat × Nat)) (winner : Option Nat) : Arb :=
  let T := total (ts.map (fun e => e.2))
  let losers := ts.filter (fun e => some e.1 != winner)
  { a with losses := losers.map (fun e => (e.1, Nat.min 64 (Tab.get a.losses e.1 0 + 1)))
           hints := losers.map (fun e => (e.1, if winner.isSome then hintOf T e.2 else Tab.get a.hints e.1 0)) }

/-! ### Requests (R14, R89) -/

/-- The die of an address: channel × 8 + die. -/
def dieOf (a : MediaAddr) : Nat := a.toNat / 2 ^ 26

/-- The channel of an address. -/
def chanOf (a : MediaAddr) : Nat := a.toNat / 2 ^ 29

/-- The code a tack requests as (R14): during CINCH every program and erase, and every SECTOR_FILL, as CIN; a PARITY_READ as the read that
it serves. -/
def State.reinOf (s : State) (t : Tack) : Option Nat :=
  let fills := t.op == .sectorFill || t.op == .parityRead && (t.parent.bind (Tab.find s.tacks)).any (fun p => p.op == .sectorFill)
  if s.dev.state = .cinch ∧ (t.op.programs = true ∨ fills = true) then some 4 else t.rein.map Rein.code

/-- The slots of a program's present group still to load, in plane and slot order (R76, R207). -/
def Program.toLoad (p : Program) : List Nat :=
  match p.what, p.groups with
  | .erase _, _ | .eraseSystem _, _ => []
  | _, [] => []
  | _, (_, planes) :: _ =>
    if p.started then []
    else (planes.flatMap (fun q => (List.range 8).map (fun i => 8 * q + i))).filter (fun i => !p.loaded.getLsbD i)

/-- Whether a die takes programs and erases as to its temperature: not while it is hot, but in CINCH (R436). -/
def State.coolEnough (s : State) (k : Nat) : Bool := !(s.ctlOf k).hot || s.dev.state == .cinch

/-- Whether the device may start a program on a die: not on a hot die (R436), and not before the die's final U is applied
(R131). -/
def State.maySend (s : State) (k : Nat) : Bool := s.coolEnough k && !(s.age k).provisional

/-- The oldest program tack of a die: the one whose LOADs go there. -/
def State.loader (s : State) (k : Nat) : Option Nat :=
  (s.tacks.foldl (fun b e =>
    match e.2.pg with
    | some p =>
      if p.die = k ∧ ¬ e.2.draining then
        match b with
        | some (j, n) => if e.2.serial < n then some (e.1, e.2.serial) else some (j, n)
        | none => some (e.1, e.2.serial)
      else b
    | none => b) none).map (fun x => x.1)

/-- The last hint of a requester on a channel (R95). -/
def State.hint (s : State) (ch c : Nat) : Nat := Tab.get (s.arbOf ch).hints c 0

/-- Whether the encoder lane of a program's requester runs on a channel: WB, SKV, DRF and WLT gate theirs while their last hint is 8
or more (R95). -/
def State.encodes (s : State) (ch : Nat) (t : Tack) : Bool :=
  match s.reinOf t with
  | some c => !decide (c ∈ [3, 5, 7, 8]) || decide (s.hint ch c < 8)
  | none => true

/-- The data phases of a channel that a tack owns or has won. -/
def State.phasesOf (s : State) (ch k : Nat) : Nat := flag ((s.arbOf ch).grant == some k) + flag ((s.arbOf ch).next == some k)

/-- Whether the tack in a slot is ready for a data phase on channel `ch` (R89): a read from its RVALID scan, until it wins; a program from
when its next LOAD, of those that no data phase carries yet, is encoded and held. The spec does not say when a LOAD is encoded: here the
encoder turns to the LOADs of the oldest program of a die while the die is IDLE (DESIGN CHOICE, log 73). -/
def State.readyOn (s : State) (ch k : Nat) (t : Tack) : Bool :=
  !t.draining &&
  ((match t.rd with | some r => r.phase == .ready && chanOf r.addr == ch && s.phasesOf ch k == 0 | none => false) ||
   (match t.pg with
    | some p => p.die / 8 == ch && decide (s.phasesOf ch k < p.toLoad.length) && (s.die p.die).st == .idle
        && s.loader p.die == some k && s.framesGo && (p.encoded || s.encodes ch t)
    | none => false))

/-- PROG_AGE and PROG_SEQ of a page, fixed when the encoder forms its first codeword (R113, Table 2.6). -/
def State.stampPage (s : State) (k : Nat) (p : Program) : State :=
  match p.stamp with
  | some _ => s.updTack k (fun t => { t with pg := some { p with encoded := true } })
  | none =>
    let n := s.progSeq
    let age := (s.age p.die).counter / 256 / 64
    ({ s with progSeq := (n + 1) % 2 ^ 48 }).updTack k (fun t => { t with pg := some { p with encoded := true, stamp := some (age, n) } })

/-- The LOADs that are encoded on a channel are held in its write buffer (R89). -/
def State.holdLoads (s : State) (ch : Nat) : State :=
  s.tacks.foldl (fun (s : State) (e : Nat × Tack) => match e.2.pg with
    | some p => if s.readyOn ch e.1 e.2 && !p.encoded then s.stampPage e.1 p else s
    | none => s) s

/-- The encoder turns to the LOAD behind the one that a data phase takes (R89). -/
def State.loadTaken (s : State) (k : Nat) : State :=
  s.updTack k (fun t => { t with pg := t.pg.map (fun p => { p with encoded := false }) })

/-- The oldest ready tack of requester `c` on channel `ch` (R89). -/
def State.oldestReady (s : State) (ch c : Nat) : Option Nat :=
  (s.tacks.foldl (fun b e =>
    if s.readyOn ch e.1 e.2 && s.reinOf e.2 == some c then
      match b with
      | some (j, n) => if e.2.serial < n then some (e.1, e.2.serial) else some (j, n)
      | none => some (e.1, e.2.serial)
    else b) none).map (fun x => x.1)

/-- The requesters present on a channel, in code order (R89). -/
def State.presentOn (s : State) (ch : Nat) : List Nat :=
  (List.range 10).filter (fun c => (s.oldestReady ch c).isSome && (c != 4 || s.dev.state == .cinch))

/-- Whether a tack of any requester is queued for, or holds an operation on, a die of the channel (Table 3.2). A codeword at a
decoder has left its die. -/
def State.workOn (s : State) (ch : Nat) : Bool :=
  s.tacks.any (fun e => (match e.2.rd with
      | some r => chanOf r.addr == ch && (r.phase == .queued || r.phase == .sensing || r.phase == .ready)
      | none => false) ||
    (match e.2.pg with | some p => p.die / 8 == ch | none => false))

/-! ### Slot accounting (R105) -/

/-- The four categories of Table 3.2. -/
inductive SlotCat where
  | retired | wasted | front | back
  deriving DecidableEq, Repr

/-- A slot of `ck` cycles of a channel has ended: it is in ELAPSED, classified or not. -/
def State.elapse (s : State) (ch ck : Nat) : State :=
  let x := Tab.get s.obs.slots ch SlotCnt.init
  { s with obs := { s.obs with slots := Tab.put s.obs.slots ch { x with elapsed := x.elapsed + ck } } }

/-- The category of a slot of `ck` cycles is known. -/
def State.classify (s : State) (ch ck : Nat) (c : SlotCat) : State :=
  let x := Tab.get s.obs.slots ch SlotCnt.init
  let x := match c with
    | .retired => { x with retired := x.retired + ck }
    | .wasted => { x with wasted := x.wasted + ck }
    | .front => { x with front := x.front + ck }
    | .back => { x with back := x.back + ck }
  { s with obs := { s.obs with slots := Tab.put s.obs.slots ch x } }

/-- A slot ends and is classified at once. -/
def State.account (s : State) (ch ck : Nat) (c : SlotCat) : State := (s.elapse ch ck).classify ch ck c

/-- Length of the slot of a codeword phase: 2,328 CK, 2,904 CK for a soft read, 152 CK for a one-plane histogram
(R66). -/
def slotLength (soft hist : Bool) : Nat := if hist then 152 else if soft then 2904 else 2328

/-- Accounts the empty or dead slot in which a draw edge falls: 64 CK, or 86 CK when the draw has a winner (R67). -/
def State.accountEmpty (s : State) (ch : Nat) (kind : SlotKind) (won : Bool) : State :=
  s.account ch (if won then 86 else 64)
    (if kind == .dead || kind == .starved then .wasted else if s.workOn ch then .back else .front)

/-! ### The draw edge -/

/-- A draw on channel `ch` at the edge of its slot (R92-R98). `withdraws`: the winner withdraws after the grant and
the channel holds a dead slot (R96). -/
def State.draw (s : State) (ch : Nat) (withdraws : Bool) : State :=
  let s := s.holdLoads ch
  let a := s.arbOf ch
  let present := s.presentOn ch
  let ts := present.map (fun c => (c, s.effective ch c (decide (0 ∈ present)) a.drfOvr))
  let v := lfsrStep (if a.reseed then seedOf (s.reg rArbSeed) ch else a.lfsr)
  let (w, guarded) := drawWinner a v ts
  let raised := s.raises ch 5 (decide (0 ∈ present)) a.drfOvr
  let overridden := raised || s.raises ch 7 (decide (0 ∈ present)) a.drfOvr
  let winner := w.bind (s.oldestReady ch)
  let s := if a.slot = .data then s
    else s.accountEmpty ch a.slot w.isSome
  let b := afterDraw a ts w
  let b := { b with lfsr := v, reseed := false, skvRaised := raised
                    sinceGuard := if guarded then 0 else Nat.min 15 (a.sinceGuard + 1)
                    lastWinner := if withdraws then 15 else w.getD 15 }
  let kind : SlotKind := if w.isSome then (if withdraws then .dead else .data)
    else if present.isEmpty then .empty else .starved
  let owner := if withdraws then none else winner
  let b := if a.slot = .data then { b with next := owner, nextSlot := kind, drawn := true }
    else { b with grant := owner, drawn := false, slot := kind }
  let s := s.setArb ch b
  let s := (ts.filter (fun e => some e.1 != w)).foldl (fun s e =>
    match s.oldestReady ch e.1 with
    | some k => s.updTack k (fun t => { t with losses := t.losses + 1 })
    | none => s) s
  let s := match owner with | some k => s.loadTaken k | none => s
  let s := match winner with
    | some k => s.updTack k (fun t =>
        let t := if overridden then t.setFlag fOverride else t
        if a.boundOff then t.setFlag fBoundOff else t)
    | none => s
  let s := s.count 0x09 { cls := none, ctx := none, ch := some ch } false
  let s := if 0 ∈ present ∧ w ≠ some 0 then s.count 0x0A { cls := none, ctx := none, ch := some ch } false else s
  if guarded then
    (s.bump (rArbGuard ch) 0 32 1).count 0x0B { cls := none, ctx := none, ch := some ch } false
  else s

/-- The running data phase of a channel ends: the winner that waited becomes its owner (R67). -/
def State.endPhase (s : State) (ch : Nat) : State :=
  let a := s.arbOf ch
  s.setArb ch { a with grant := a.next, next := none, drawn := false, slot := a.nextSlot, nextSlot := .empty }

/-- A winner withdraws before its data phase begins: the slot that was to carry it is a dead one (R96). -/
def State.withdraw (s : State) (ch k : Nat) : State :=
  let a := s.arbOf ch
  if a.next = some k then s.setArb ch { a with next := none, nextSlot := .dead, lastWinner := 15 } else s

/-- ARB_DRAW: a draw edge passes on a channel that holds slots. A data slot has one draw (R67). -/
def execArbDraw (ch : Chan) (withdraws : Bool) (s : State) : Host.Outcome State Fault Refusal :=
  let a := s.arbOf ch
  if (s.chan ch).st = .ready ∧ ¬ (a.slot = .data ∧ a.drawn) then s.done (s.draw ch withdraws) else s.done s

/-- Every channel reloads its LFSR at its next draw edge (Table 3.5). -/
def State.reseedAll (s : State) : State := (List.range 96).foldl (fun s ch => s.setArb ch { s.arbOf ch with reseed := true }) s

def execReseed (s : State) : Host.Outcome State Fault Refusal := s.done (if s.barOpen then s.reseedAll else s)

/-- Writes CUSTOM of a channel (R107): set, the ticket registers keep what they show; cleared, they return to the
preset. -/
def State.writeCustom (s : State) (ch : Nat) (custom : Bool) : State :=
  let was := bit (s.reg (rArbChCtrl ch)) 0
  let t := s.tickets ch
  let s' :=
    if custom ∧ ¬ was then
      ((s.setReg (rArbTickets ch 0) (t 0 + 2 ^ 8 * t 1 + 2 ^ 16 * t 2 + 2 ^ 24 * t 3)).setReg (rArbTickets ch 1)
        (255 + 2 ^ 8 * t 5 + 2 ^ 16 * t 6 + 2 ^ 24 * t 7)).setReg (rArbTickets ch 2) (t 8 + 2 ^ 8 * t 9)
    else s
  (s'.setReg (rArbChCtrl ch) (flag custom)).judge ch

def execCustomChange (ch : Chan) (custom : Bool) (s : State) : Host.Outcome State Fault Refusal :=
  s.done (if s.barOpen then s.writeCustom ch custom else s)

end Sys2Proof.Machine
end

