-- ==== Sys2Proof/Machine/Drift.lean ====
section
/-! DEFINITION. Thermal age, reference sets, learned offsets, brand rows and the hole list: the computations of
04_drift_reading.md. -/

namespace Sys2Proof.Machine

/-! ### Temperature and acceleration (R110, R111, R434) -/

/-- Temperatures of the factor points in 1/16 °C (Table 4.1). -/
def factorTemps : List Int := [0, 400, 640, 880, 1120, 1360]

/-- f(T) in 1/4,096 as a fraction (numerator, denominator) (R110); T in 1/16 °C. -/
def accel (fs : List Nat) (t : Int) : Nat × Nat :=
  let f := fun i => (fs.getD i 0 : Int)
  let seg := fun (i : Nat) (t : Int) =>
    let t0 := factorTemps.getD i 0
    let span := factorTemps.getD (i + 1) 0 - t0
    ((f i * span + (f (i + 1) - f i) * (t - t0)).toNat, span.toNat)
  if t ≤ 0 then ((f 0).toNat, 1)
  else if t < 400 then seg 0 t
  else if t < 640 then seg 1 t
  else if t < 880 then seg 2 t
  else if t < 1120 then seg 3 t
  else seg 4 (if t < 1600 then t else 1600)

/-- Ticks of `secs` seconds at T in 1/256 tick, to the nearest (R109). -/
def ageTicks (fs : List Nat) (t : Int) (secs : Nat) : Nat :=
  let (n, d) := accel fs t
  (2 * secs * 256 * n + 4096 * d) / (2 * 4096 * d)

/-- Lower edges of the bands in 1/16 °C (Table 14.8). Band 5 begins above 85 °C. -/
def bandEdge (b : Nat) : Int := match b with | 1 => 160 | 2 => 400 | 3 => 640 | 4 => 880 | 5 => 1361 | _ => -100000

/-- The band of a temperature without history (Table 14.8). -/
def bandOf (t : Int) : Nat :=
  if 1361 ≤ t then 5 else if 880 ≤ t then 4 else if 640 ≤ t then 3 else if 400 ≤ t then 2 else if 160 ≤ t then 1 else 0

/-- The band after falling temperature: down only 2 °C below the lower edge of the present band (R434). -/
def bandDown (b : Nat) (t : Int) : Nat :=
  match b with
  | 0 => 0
  | k + 1 => if t ≤ (if k + 1 = 5 then 1360 else bandEdge (k + 1)) - 32 then bandDown k t else k + 1

/-- The next band of a unit at temperature `t` (R434). -/
def nextBand (b : Nat) (t : Int) : Nat := if b < bandOf t then bandOf t else bandDown b t

/-- Whether the stored temperature of a die is less than 3 polls old (R111, log 20). -/
def DieCtl.fresh (c : DieCtl) : Bool := match c.readPolls with | some n => decide (n ≤ 2) | none => false

/-- T of a die and whether it is a fallback (R111): its stored temperature, else the highest fresh one of its octet,
else 85 °C. -/
def State.dieTemp (s : State) (k : Nat) : Int × Bool :=
  let c := s.ctlOf k
  if c.fresh then (c.temp, false)
  else
    let ts := (s.ctl.filter (fun e => decide (e.1 / 64 = k / 64) && e.2.online && e.2.fresh)).map (fun e => e.2.temp)
    match ts with
    | [] => (1360, true)
    | t :: r => (r.foldl max t, true)

/-! ### Log age and reference sets (R115-R118, R135) -/

/-- L(a) in 1/16 octave (R116). -/
def logAge (a : Nat) : Nat :=
  if a < 1024 then 160
  else
    let e := Nat.log2 a
    Nat.min 448 (16 * e + a / 2 ^ (e - 4) % 16)

def bucketOf (l : Nat) : Nat := Nat.min 15 (l / 16 - 10)
def centreOf (b : Nat) : Nat := 16 * (10 + b) + 8

/-- The class of a plane-block from its erase count (R115). -/
def classOf (edges : List Nat) (n : Nat) : Nat := (edges.filter (fun e => decide (e ≤ n))).length

/-- The first pass of R118, from k = 15 down: t[k] = min(t[k], 1023 - (15 - k)), for thresholds in order. -/
def capSet (ts : List Int) : List Int :=
  ((List.range ts.length).zip ts).map (fun e => min e.2 (1023 - (14 - (e.1 : Int))))

/-- The second pass of R118: each threshold above the one before it. -/
def liftSet (low : Int) (ts : List Int) : List Int :=
  match ts with
  | [] => []
  | t :: r => max t low :: liftSet (max t low + 1) r

/-- Clamps a set to 0-1,023 and makes it strictly ascending (R118). -/
def orderSet (ts : List Int) : List Int := liftSet 0 (capSet (ts.map (clampInt 0 1023)))

/-- The 15 thresholds of R117 for a class, log age, band and group; without PREDICT the slope, band and learned terms
are omitted. -/
def refSet (v cls l band : Nat) (g : List Int) (predict : Bool) : List Int :=
  let b := bucketOf l
  orderSet ((List.range 15).map (fun i =>
    let k := i + 1
    let base : Int := (Config.baseThreshold v cls b k).toNat
    if predict then
      base + rnd ((Config.slope v cls b k).toInt * ((l : Int) - centreOf b)) 256 + (Config.bandOffset v band k).toInt
        + g.getD i 0
    else base))

/-- The log age of ladder steps 0-3 (R135). -/
def stepAge (l step : Nat) : Nat :=
  match step with
  | 1 => Nat.min 448 (l + 16)
  | 2 => Nat.max 160 (l - 16)
  | 3 => Nat.min 448 (l + 32)
  | _ => l

/-! ### Histogram-derived sets (R136) -/

/-- d[i] = h[i+1] - h[i]. -/
def diffs (h : List Nat) : List Int := (h.zip (h.drop 1)).map (fun e => (e.2 : Int) - e.1)

/-- For one threshold: the index of smallest d within 48 codes of `t`, nearer first, lower first. -/
def nearMin (d : List Int) (t : Int) : Option Nat :=
  let cand := ((List.range d.length).zip d).filter (fun e => decide ((16 * (e.1 : Int) + 16 - t).natAbs ≤ 48))
  (cand.foldl (fun b e =>
    match b with
    | none => some e
    | some m =>
      let da := (16 * (e.1 : Int) + 16 - t).natAbs
      let db := (16 * (m.1 : Int) + 16 - t).natAbs
      if e.2 < m.2 ∨ (e.2 = m.2 ∧ da < db) then some e else some m) (none : Option (Nat × Int))).map (fun e => e.1)

/-- The step-4 set of a read with a predicted age. -/
def histSet (h : List Nat) (t : List Int) : List Int :=
  orderSet (t.map (fun x => match nearMin (diffs h) x with | some i => 16 * (i : Int) + 16 | none => x))

/-- Runs of equal values: (first index, value), in order. -/
def runsOf (i : Nat) (l : List Int) (prev : Option Int) : List (Nat × Int) :=
  match l with
  | [] => []
  | x :: r => if prev = some x then runsOf (i + 1) r prev else (i, x) :: runsOf (i + 1) r (some x)

/-- The runs that are local minima, given the value before (R136). -/
def minima (l : List (Nat × Int)) (before : Option Int) : List (Nat × Int) :=
  match l with
  | [] => []
  | x :: r =>
    let lo := match before with | some b => decide (x.2 < b) | none => true
    let hi := match r with | y :: _ => decide (x.2 < y.2) | [] => true
    if lo && hi && !(before.isNone && r.isEmpty) then x :: minima r (some x.2) else minima r (some x.2)

/-- Takes minima in order of depth, passing over one within 1 index of one taken, up to 15. -/
def takeMinima (l : List (Nat × Int)) (taken : List Nat) : List Nat :=
  match l with
  | [] => taken
  | x :: r =>
    if taken.length = 15 ∨ taken.any (fun i => decide (x.1 ≤ i + 1) && decide (i ≤ x.1 + 1)) then takeMinima r taken
    else takeMinima r (taken ++ [x.1])

/-- The whole-range search of R136: none when fewer than 15 minima can be taken. -/
def wholeRange (h : List Nat) : Option (List Int) :=
  let ms := minima (runsOf 0 (diffs h) none) none
  let ordered := sortBy (fun a b => decide (a.2 < b.2) || (a.2 == b.2 && decide (a.1 < b.1))) ms
  let is := takeMinima ordered []
  if is.length < 15 then none
  else some (orderSet ((sortBy (fun a b => decide (a < b)) is).map (fun (i : Nat) => 16 * (i : Int) + 16)))

/-! ### Learned offsets (R120, R121) -/

/-- Key of a learned group: die, plane, block range (R120). -/
def groupOf (die plane block : Nat) : Nat := (die * 4 + plane) * 17 + Nat.min 16 (block / 64)

def State.learnedAt (s : State) (q : Nat) : Learned := Tab.get s.drift.learned q Learned.init

/-- One successful hard decode at steps 0-3 (R121): every 64 the offsets move by one. -/
def Learned.add (x : Learned) (ud : List Int) (limit : Nat) : Learned :=
  let e := (x.e.zip (ud ++ List.replicate 15 0)).map (fun p => p.1 + p.2)
  if x.n + 1 < 64 then { x with e := e, n := x.n + 1 }
  else
    { g := (x.g.zip e).map (fun p =>
        clampInt (-(limit : Int)) limit (if 16 ≤ p.2 then p.1 - 1 else if p.2 ≤ -16 then p.1 + 1 else p.1))
      e := List.replicate 15 0, n := 0 }

/-- A success at step 4 (R121): each offset moves by half the difference of the sets, at most 4. -/
def Learned.jump (x : Learned) (h p : List Int) (limit : Nat) : Learned :=
  { x with g := (x.g.zip (h.zip p)).map (fun e =>
      clampInt (-(limit : Int)) limit (e.1 + clampInt (-4) 4 (rnd (e.2.1 - e.2.2) 2))) }

/-- Learned offsets within the limit in force (R121). -/
def Learned.within (x : Learned) (limit : Nat) : Learned := { x with g := x.g.map (clampInt (-(limit : Int)) limit) }

/-- No offset exceeds OFS_LIMIT (R121). -/
def State.limitOffsets (s : State) : State :=
  { s with drift := { s.drift with learned := s.drift.learned.map (fun (e : Nat × Learned) => (e.1, e.2.within (s.field rDriftTune 16 6))) } }

/-! ### Brand rows (R125-R129) -/

/-- The first index i with h[i] < N ≤ h[i+1], and those two counts. -/
def crossing (h : List Nat) (n i : Nat) : Option (Nat × Nat × Nat) :=
  match h with
  | a :: b :: r => if a < n ∧ n ≤ b then some (i, a, b) else crossing (b :: r) n (i + 1)
  | _ => none

/-- The octave estimate of level `j` from one row (R125), for profile version `v` and the die's present band. -/
def octaveOf (v band : Nat) (h : List Nat) (j : Nat) : Option Rat :=
  if Config.fitMask v j then
    (crossing h (4608 * j + 2304) 0).map (fun (i, a, b) =>
      let x : Rat := 16 * i + 8 + 16 * ((4608 * j + 2304 - a : Nat) : Rat) / ((b - a : Nat) : Rat)
      (x - (Config.bandOffset v band j).toInt - (Config.brandCentre v j).toNat) * 16 / (Config.brandSlope v j).toNat)
  else none

/-- The median of rationals, the lower of two middle ones (R125). -/
def medianRat (l : List Rat) : Rat := (sortBy (fun a b => decide (a < b)) l).getD ((l.length - 1) / 2) 0

/-- The estimate of one row, when it is valid (R126). -/
def rowEstimate (v band : Nat) (h : List Nat) : Option Rat :=
  let ls := (List.range 15).filterMap (fun i => octaveOf v band h (i + 1))
  if ls.length < 8 then none else some (medianRat ls)

/-- The die estimate, when its rows are readable (R125, R126). -/
def dieEstimate (v band : Nat) (rows : List (List Nat)) : Option Rat :=
  let rs := sortBy (fun a b => decide (a < b)) (rows.filterMap (rowEstimate v band))
  match rs with
  | [] => none
  | lo :: _ => if rs.length < 8 ∨ 1 < rs.getLastD lo - lo then none else some (medianRat rs)

/-- The integer square root of `n` by bits from `b` down. -/
def isqrt (n b r : Nat) : Nat :=
  match b with
  | 0 => r
  | k + 1 => if (r + 2 ^ k) * (r + 2 ^ k) ≤ n then isqrt n k (r + 2 ^ k) else isqrt n k r

/-- 2 raised to a fraction of `n` binary digits, in units of 2^-128: `x` holds the digits, `root` the root of the
present digit. -/
def powFrac (x n root acc : Nat) : Nat :=
  match n with
  | 0 => acc
  | k + 1 =>
    let r := isqrt (root * 2 ^ 128) 130 0
    powFrac x k r (if bit x k then acc * r / 2 ^ 128 else acc)

/-- 2 to the power of a non-negative rational below 64, times 2^k, to the nearest integer, halves upward; the
exponent is taken to 64 binary digits (log 21). -/
def pow2 (e : Rat) (k : Nat) : Nat :=
  let f := (e * 18446744073709551616).floor.toNat
  let m := powFrac (f % 2 ^ 64) 64 (2 ^ 129) (2 ^ 128)
  (m * 2 ^ (f / 2 ^ 64 + k) + 2 ^ 127) / 2 ^ 128

/-- The measured brand age A = 2^(10 + l) ticks, in 1/256 tick (R125, R127). An estimate below -10 octaves is less
than a tick; above 30 it lies past every clip. -/
def brandAge (l : Rat) : Nat :=
  if l < -19 then 0 else if l < -18 then 1 else if 30 < l then 2 ^ 48 else pow2 (18 + l) 0

/-- The largest unpowered age, in 1/256 tick (R127). -/
abbrev uTop : Nat := 200000000 * 256

/-- U = A - (C_last - C_brand), clipped (R127), in 1/256 tick. -/
def unpowered (a cLast cBrand : Nat) : Nat := Nat.min uTop (a + cBrand - cLast)

/-- A counter at most at its largest value (R109). -/
def satAge (n : Nat) : Nat := Nat.min (2 ^ 56 - 1) n

/-- The bounds of R128 on U, in 1/256 tick, and whether they applied. -/
def bounded (u : Nat) (e : Option Nat) : Nat × Bool :=
  match e with
  | none => (u, false)
  | some e =>
    let lo := (2 * 256 * e + 20) / 40
    let hi := 26 * 256 * e
    if u < lo then (lo, true) else if hi < u then (hi, true) else (u, false)

/-- The assumed U of R129, in 1/256 tick. -/
def assumedU (e : Option Nat) : Nat := match e with | none => uTop | some e => Nat.min uTop (26 * 256 * e)

/-! ### The hole list (R147, R148) -/

/-- Enters a run of leaves in the hole list; a full list sets HOLE_FULL once (R147). -/
def State.enterHole (s : State) (h : Hole) : State :=
  if s.drift.holes.length < 1048576 then
    { s with drift := { s.drift with holes := s.drift.holes ++ [h], listGen := s.drift.listGen + 1 } }
  else if s.drift.holeFull then s
  else { s with drift := { s.drift with holeFull := true, fullSeconds := s.store.opSeconds } }

/-- What is left of a record when the leaves of [first, first + n) leave it (R148). -/
def Hole.cut (h : Hole) (first n : Nat) : List Hole :=
  let stop := h.first + h.count
  if first + n ≤ h.first ∨ stop ≤ first then [h]
  else
    (if h.first < first then [{ h with count := first - h.first }] else []) ++
    (if first + n < stop then [{ h with first := first + n, count := stop - (first + n) }] else [])

/-- Enters a run of leaves, but those that a record lists already (R147). -/
def State.enterHoles (s : State) (h : Hole) : State :=
  (s.drift.holes.foldl (fun hs x => hs.flatMap (fun y => y.cut x.first x.count)) [h]).foldl State.enterHole s

/-- Leaves leave the hole list (R148). -/
def State.leaveHoles (s : State) (first n : Nat) : State :=
  let hs := s.drift.holes.flatMap (fun h => h.cut first n)
  if hs = s.drift.holes then s
  else { s with drift := { s.drift with holes := hs, listGen := s.drift.listGen + 1 } }

/-- Whether a leaf has a hole-list record (HOLE, R147). -/
def State.listed (s : State) (leaf : Nat) : Bool :=
  s.drift.holes.any (fun h => decide (h.first ≤ leaf) && decide (leaf < h.first + h.count))

end Sys2Proof.Machine
end

