-- ==== Sys2Proof/Machine/Store.lean ====
section
/-! DEFINITION. The parameter store (R395-R405) and the event recorder (R406-R413). -/

namespace Sys2Proof.Machine

/-! ### Records -/

abbrev recUnitId : Nat := 0x0001
abbrev recPowerCycles : Nat := 0x0002
abbrev recOpSeconds : Nat := 0x0003
abbrev recWallTime : Nat := 0x0004
abbrev recEvtOverflow : Nat := 0x0005
abbrev recSlotPointer : Nat := 0x0006
abbrev recKek : Nat := 0x0007
abbrev recHarnessJoin : Nat := 0x0008
abbrev recBank : Nat := 0x0009
abbrev recLimits : Nat := 0x000A
abbrev recSpaceState : Nat := 0x000B
abbrev recDirRemap : Nat := 0x0011
abbrev recParam0 : Nat := 0x0100
abbrev recBoard : Nat := 0x0200
abbrev recBoardPending : Nat := 0x0201
abbrev recWear0 : Nat := 0x0300
abbrev recCtx0 : Nat := 0x1000
abbrev recKey0 : Nat := 0x2000

/-- The sequence number of a copy, if it is valid (R400). -/
def Store.seqOf (st : Store) (id copy : Nat) : Option Nat :=
  match Tab.find st.copies (2 * id + copy) with
  | some (.valid q _) => some q
  | _ => none

/-- Whether both copies are valid with equal SEQ (R401). -/
def Store.tied (st : Store) (id : Nat) : Bool :=
  match st.seqOf id 0, st.seqOf id 1 with
  | some a, some b => a == b
  | _, _ => false

/-- The copy that a read takes: the valid copy of larger SEQ, copy 0 at a tie; none when the record is absent
(R401). -/
def Store.taken (st : Store) (id : Nat) : Option Nat :=
  match st.seqOf id 0, st.seqOf id 1 with
  | some a, some b => if a < b then some 1 else some 0
  | some _, none => some 0
  | none, some _ => some 1
  | none, none => none

/-- The payload of a record; none when it is absent. -/
def Store.record (st : Store) (id : Nat) : Option (List Byte) :=
  match st.taken id with
  | none => none
  | some c => match Tab.find st.copies (2 * id + c) with | some (.valid _ p) => some p | _ => none

/-- The copy that a write takes and its new SEQ (R402): a copy that is not valid, else the one of smaller SEQ, copy 1
at a tie. -/
def Store.target (st : Store) (id : Nat) : Nat × Nat :=
  match st.seqOf id 0, st.seqOf id 1 with
  | none, none => (0, 1)
  | none, some b => (0, b + 1)
  | some a, none => (1, a + 1)
  | some a, some b => if a < b then (0, b + 1) else (1, a + 1)

/-- Writes one record copy under R402. -/
def Store.writeRecord (st : Store) (id : Nat) (payload : List Byte) : Store :=
  let (c, q) := st.target id
  { st with copies := Tab.put st.copies (2 * id + c) (.valid q payload) }

/-- Erases both copies of a record (R404). -/
def Store.eraseRecord (st : Store) (id : Nat) : Store :=
  { st with copies := Tab.del (Tab.del st.copies (2 * id)) (2 * id + 1) }

/-- The journal entry of an operation, at slot OP_SEQ mod 64 (R404). -/
def Store.enter (st : Store) (erase : Bool) (items : List SItem) (opened : Bool) : Store :=
  { st with journal := Tab.put st.journal (st.opSeq % 64)
              { opSeq := st.opSeq, erase := erase, items := items, opened := opened }
            opSeq := st.opSeq + 1 }

/-- One store operation of write items: each copy written, the entry DONE (R404). -/
def Store.writeOp (st : Store) (items : List (Nat × List Byte)) : Store :=
  let named := items.map (fun i => { id := i.1, copy := (st.target i.1).1, newSeq := (st.target i.1).2 : SItem })
  (items.foldl (fun st i => st.writeRecord i.1 i.2) st).enter false named false

/-- One store operation of erase items (R404). -/
def Store.eraseOp (st : Store) (ids : List Nat) : Store :=
  let named := ids.flatMap (fun i => [{ id := i, copy := 0, newSeq := 0 : SItem }, { id := i, copy := 1, newSeq := 0 }])
  (ids.foldl Store.eraseRecord st).enter true named false

def State.setStore (s : State) (st : Store) : State := { s with store := st }

/-- Writes one record as a store operation of its own. -/
def State.save (s : State) (id : Nat) (payload : List Byte) : State := s.setStore (s.store.writeOp [(id, payload)])

/-- Erases records as one store operation. -/
def State.erase (s : State) (ids : List Nat) : State := s.setStore (s.store.eraseOp ids)

/-- The number a record of one 8-byte value holds. -/
def State.recordNat (s : State) (id : Nat) : Option Nat := (s.store.record id).map ofLe

/-- The current wall time in seconds, kept from the last SET_WALLTIME and the AON seconds since (R133). -/
def State.wallNow (s : State) : Option Nat := s.power.wall.map (fun w => w.1 + (s.power.aonSeconds - w.2))

/-- Writes the current wall time, when it is known (R133). -/
def State.saveWall (s : State) : State :=
  match s.wallNow with
  | some t => (s.save recWallTime (le 8 t)).setStore { (s.save recWallTime (le 8 t)).store with wallKept := true }
  | none => s

/-- A read of a record at boot or mount, which logs and flags a tie (R401). -/
def State.checkTie (s : State) (id : Nat) : State :=
  if s.store.tied id then
    (s.setBit rPstoreStatus 5).event portBoot 0x0A02 s.devicePath
      (le 2 id ++ le 4 ((s.store.seqOf id 0).getD 0))
  else s

/-! ### Open journal entries at AON boot (R405) -/

/-- Whether each named copy of an entry is valid with its NEW_SEQ. -/
def Store.present (st : Store) (e : SEntry) : Bool :=
  e.items.all (fun i => st.seqOf i.id i.copy == some i.newSeq)

/-- Handles one open entry: completes it or rolls it back, and logs which. -/
def State.recover (s : State) (slot : Nat) (e : SEntry) : State :=
  let keep := !e.erase && s.store.present e
  let st := if keep then s.store
    else { s.store with copies := e.items.foldl (fun c i => Tab.del c (2 * i.id + i.copy)) s.store.copies }
  let st := { st with journal := Tab.put st.journal slot { e with opened := false } }
  let first := match e.items with | i :: _ => i.id | [] => 0
  if e.erase || keep then
    let st := { st with bootAction := st.bootAction ||| 1#2, opsCompleted := satAdd 0xFFFF st.opsCompleted 1 }
    (s.setStore st).event portBoot 0x0A03 s.devicePath (le 4 e.opSeq ++ le 2 first)
  else
    let st := { st with bootAction := st.bootAction ||| 2#2, opsRolledBack := satAdd 0xFFFF st.opsRolledBack 1 }
    (s.setStore st).event portBoot 0x0A04 s.devicePath (le 4 e.opSeq ++ le 2 first)

/-- Handles every open entry, in OP_SEQ order (R405). -/
def State.recoverAll (s : State) : State :=
  let s := s.setStore { s.store with bootAction := 0 }
  let es := sortBy (fun a b => decide (a.2.opSeq < b.2.opSeq)) (s.store.journal.filter (fun e => e.2.opened))
  es.foldl (fun s e => s.recover e.1 e.2) s

/-! ### The event log -/

/-- The 32 bytes of a record (Table 13.6). -/
def EvRec.bytes (r : EvRec) : List Byte :=
  le 4 r.opSeconds ++ le 4 r.cycles ++ le 4 r.path.toNat ++ le 2 r.code ++ (r.params ++ zeros 12).take 12
    ++ le 2 r.repeats ++ le 2 r.tack.toNat ++ le 2 r.valid

/-- A record of zeros: an empty place of the log. -/
def EvRec.empty : EvRec :=
  { opSeconds := 0, cycles := 0, path := 0, code := 0, params := [], repeats := 0, tack := 0, valid := 0, bad := 0 }

/-- The record at a place of the log. -/
def Store.evAt (st : Store) (i : Nat) : EvRec := Tab.get st.evlog i EvRec.empty

/-- Whether a granted event matches the last record (R409). -/
def Store.matchesLast (st : Store) (e : Event) : Bool :=
  let r := st.evAt (st.evCount - 1)
  decide (st.evCount ≠ 0) && r.code == e.code && r.path == e.path && r.cycles == st.powerCycles

/-- A granted event as the record it becomes (R408). -/
def Store.recordOf (st : Store) (e : Event) : EvRec :=
  { opSeconds := st.opSeconds, cycles := st.powerCycles, path := e.path, code := e.code
    params := (e.params ++ zeros 12).take 12, repeats := 1, tack := e.tack, valid := 0x4554, bad := 0 }

/-- The next port with a queued event, round-robin from `nextPort` (R407). -/
def Store.nextEvent (st : Store) : Option (Nat × Event × List Event) :=
  ((List.range 16).map (fun i => (st.nextPort + i) % 16)).findSome? (fun p =>
    match Tab.get st.ports p [] with
    | [] => none
    | e :: q => some (p, e, q))

/-- An EVENT frame for a granted event of at least EVT_SEV severity (R448). -/
def State.traceEvent (s : State) (r : EvRec) : State :=
  if bit (s.reg rTrcCfg) 30 && decide (s.field rTrcCfg 28 2 ≤ severity r.code) then s.frame 0x02 r.bytes else s

/-- The CXL view: a record enters the log of its severity, which holds 256 and keeps its oldest (R295). -/
def State.viewRecord (s : State) (r : EvRec) : State :=
  let k := severity r.code
  let l := Tab.get s.host.logs k []
  if l.length < 256 then { s with host := { s.host with logs := Tab.put s.host.logs k (l ++ [r]) } }
  else { s with host := { s.host with logsFull := if s.host.logsFull.contains k then s.host.logsFull else s.host.logsFull ++ [k] } }

/-- Records a granted event: a match repeats the last record (R409); a full log counts it (R411); else it becomes
record EVT_COUNT (R408). A later repeat does not show in the CXL view's copy of the record, which R295 does not say (DESIGN CHOICE,
log 76). -/
def State.recordEvent (s : State) (e : Event) : State :=
  let st := s.store
  if st.matchesLast e then
    let r := st.evAt (st.evCount - 1)
    let r' := { r with repeats := satAdd 0xFFFF r.repeats 1 }
    (s.setStore { st with evlog := Tab.put st.evlog (st.evCount - 1) r' }).traceEvent r'
  else if st.evCount = 2048 then
    let s' := s.setStore { st with evOverflow := satAdd 0xFFFFFFFF st.evOverflow 1, evOverflowDirty := true }
    (if st.evOverflow = 0 then s'.raise 7 else s').traceEvent (st.recordOf e)
  else
    let r := st.recordOf e
    (((s.setStore { st with evlog := Tab.put st.evlog st.evCount r, evCount := st.evCount + 1 }).raise 7).viewRecord r).traceEvent r

/-- Clears the log: group 3 of every record becomes 0, EVT_COUNT and EVT_OVERFLOW become 0 and record 0x0005 is
written (R413). -/
def State.clearLog (s : State) : State :=
  let st := s.store
  let log := (List.range st.evCount).foldl (fun l i =>
    let r := Tab.get l i EvRec.empty
    Tab.put l i { r with params := (r.params ++ zeros 12).take 10, repeats := 0, tack := 0, valid := 0, bad := r.bad &&& 7#4 })
    st.evlog
  (s.setStore { st with evlog := log, evCount := 0, evOverflow := 0, evOverflowDirty := false }).save
    recEvtOverflow (le 8 0)

/-- The scan of the log at AON boot (R410): repairs a record whose group 3 alone is bad, ends the log at the first
record that is empty or beyond repair. `n` bounds the records looked at. -/
def Store.scanLog (st : Store) (i n : Nat) : Store :=
  match n with
  | 0 => { st with evCount := i }
  | k + 1 =>
    let r := st.evAt i
    if r.bad &&& 7#4 ≠ 0#4 then { st with evlog := Tab.put st.evlog i EvRec.empty, evCount := i }
    else if r.bad ≠ 0#4 then
      let r' := { r with params := (r.params ++ zeros 12).take 10 ++ zeros 2, repeats := 0, tack := 0xFFFF
                         valid := 0x4552, bad := 0 }
      Store.scanLog { st with evlog := Tab.put st.evlog i r' } (i + 1) k
    else if r.valid = 0x4554 ∨ r.valid = 0x4552 then Store.scanLog st (i + 1) k
    else { st with evCount := i }

/-- The word of EVT_WIN at a BAR0 offset (R416); with an uncorrectable group 0xFFFF_FFFF and WIN_UNCORR. -/
def State.evtWord (s : State) (off : Nat) : Nat × Bool :=
  let b := off - 0xD4000
  let r := s.store.evAt (512 * s.field rEvtWinSel 0 2 + b / 32)
  if r.bad.getLsbD (b % 32 / 8) then (0xFFFFFFFF, true) else (ofLe ((r.bytes.drop (b % 32)).take 4), false)

end Sys2Proof.Machine
end

