-- ==== Sys2Proof/Machine/Blocks.lean ====
section
/-! DEFINITION. Plane-block and die-block records, the free heaps, the counts of space and the flags they set
(R202-R208, R226, R227, R230, R231). Die-blocks are numbered die × 2,048 + block, plane-blocks by address [35:13]. -/

namespace Sys2Proof.Machine

/-! ### Records -/

/-- The number of a plane-block: address bits [35:13]. -/
def pbKey (die plane block : Nat) : Nat := (die * 4 + plane) * 2048 + block

def pbDie (k : Nat) : Nat := k / 8192
def pbPlane (k : Nat) : Nat := k / 2048 % 4
def pbBlock (k : Nat) : Nat := k % 2048
def dbKey (die block : Nat) : Nat := die * 2048 + block
def dbDie (db : Nat) : Nat := db / 2048
def dbBlock (db : Nat) : Nat := db % 2048

/-- Whether R48 uses a system-band plane-block. -/
def systemUse (die plane block : Nat) : Bool :=
  let ch := die / 8
  if block = 1039 then plane == 0
  else if block < 1032 then die % 8 == 0 && decide (ch < 16)
  else die % 8 == 0 && decide (ch ∈ [0, 24, 48, 72])

/-- The record of a plane-block that the table does not list: FREE in the pool, SYSTEM or RESERVE in the system band
(R48, R227). On a device mounted blank the pool is ERASE_PENDING (R390). -/
def PbRec.initAt (blank : Bool) (k : Nat) : PbRec :=
  { erases := 0
    st := if pbBlock k < 1024 then (if blank then .erasePending else .free) else if systemUse (pbDie k) (pbPlane k) (pbBlock k) then .system else .reserve
    flags := 0, openAge := 0, closeAge := 0, lastPage := none, link := 0, valid := 0, stitch := none, member := none
    corrMax := 0, reason := 0 }

abbrev pbParity : Nat := 0
abbrev pbRemapped : Nat := 1
abbrev pbRefresh : Nat := 2
abbrev pbForced : Nat := 3
abbrev pbCopy : Nat := 4
abbrev pbSealed : Nat := 5
abbrev pbBurnishFail : Nat := 6

def PbRec.flag (r : PbRec) (i : Nat) : Bool := r.flags.getLsbD i
def PbRec.setFlag (r : PbRec) (i : Nat) : PbRec := { r with flags := r.flags ||| BitVec.ofNat 8 (2 ^ i) }
def PbRec.clrFlag (r : PbRec) (i : Nat) : PbRec := { r with flags := r.flags &&& ~~~BitVec.ofNat 8 (2 ^ i) }

/-- STATE codes of Table 6.1. -/
def PbSt.code (s : PbSt) : Nat :=
  match s with
  | .free => 0 | .erasePending => 1 | .opened => 2 | .closed => 3 | .burnished => 4 | .map => 5 | .victim => 6
  | .retired => 7 | .system => 8 | .reserve => 9

/-- The record of a plane-block; those of a unit that left service are RETIRED, reason 5 or 6 (R228). -/
def State.pb (s : State) (k : Nat) : PbRec :=
  let r := Tab.get s.blocks.pbs k (PbRec.initAt s.blocks.blank k)
  let c := s.ctlOf (pbDie k)
  if c.retired || c.lost then { r with st := .retired, reason := if c.lost then 6 else 5, flags := r.flags &&& ~~~2#8 } else r
def State.setBlocks (s : State) (b : Blocks) : State := { s with blocks := b }
def State.setPb (s : State) (k : Nat) (r : PbRec) : State :=
  s.setBlocks { s.blocks with pbs := Tab.put s.blocks.pbs k r }
def State.updPb (s : State) (k : Nat) (f : PbRec → PbRec) : State := s.setPb k (f (s.pb k))

/-- The plane-block that serves die-block `db` in a plane (R203). -/
def State.serving (s : State) (db plane : Nat) : Nat :=
  let own := pbKey (dbDie db) plane (dbBlock db)
  let r := s.pb own
  if r.st = .retired ∧ r.flag pbRemapped then pbKey (dbDie db) plane r.link else own

/-- The serving plane-blocks of a die-block, in plane order. -/
def State.servingAll (s : State) (db : Nat) : List Nat := (List.range 4).map (s.serving db)

/-- Whether a plane-block is a spare in use (R203, R227): it serves the die-block of its LINK, whose own plane-block is RETIRED and names
it. -/
def State.isSpare (s : State) (k : Nat) : Bool :=
  let r := s.pb k
  let own := pbKey (pbDie k) (pbPlane k) r.link
  let o := s.pb own
  r.st != .reserve && r.st != .retired && own != k && o.st == .retired && o.flag pbRemapped && o.link == pbBlock k

/-- The die-block that a plane-block serves: a spare in use that of its LINK. -/
def State.servedBy (s : State) (k : Nat) : Nat :=
  dbKey (pbDie k) (if s.isSpare k then (s.pb k).link else pbBlock k)

def State.updDb (s : State) (db : Nat) (f : PbRec → PbRec) : State :=
  (s.servingAll db).foldl (fun s k => s.updPb k f) s

/-- The state of a die-block: that of its serving plane-blocks, by plane 0. -/
def State.dbRec (s : State) (db : Nat) : PbRec := s.pb (s.serving db 0)

/-- Whether a die-block has been dropped (R227): a plane without a serving plane-block, or already in the reserves. -/
def State.droppedDb (s : State) (db : Nat) : Bool :=
  (s.servingAll db).any (fun k => (s.pb k).st == .retired || (s.pb k).st == .reserve)

/-- The groups of one block index each of a die-block, in ascending order (R207). -/
def State.groupsOf (s : State) (db : Nat) : List (Nat × List Nat) :=
  let bs := s.servingAll db |>.map pbBlock
  let is := (sortBy (fun a b => decide (a < b)) bs).dedup
  is.map (fun i => (i, (List.range 4).filter (fun p => bs.getD p 0 == i)))

/-! ### Free heaps (R205) -/

/-- Whether the plane-blocks of a pool die-block are all FREE. -/
def State.isFree (s : State) (db : Nat) : Bool :=
  decide (dbBlock db < 1024) && (s.servingAll db).all (fun k => (s.pb k).st == .free)

/-- The heap key of a die-block: largest ERASE_COUNT, their sum, the block index. -/
def State.heapKey (s : State) (db : Nat) : Nat × Nat × Nat :=
  let es := (s.servingAll db).map (fun k => (s.pb k).erases)
  (maximum es, total es, dbBlock db)

def keyLt (a b : Nat × Nat × Nat) : Bool :=
  decide (a.1 < b.1) || (a.1 == b.1 && (decide (a.2.1 < b.2.1) || (a.2.1 == b.2.1 && decide (a.2.2 < b.2.2))))

/-- A pool die-block that a blank device has not used: it is erased when allocation needs it (R390). -/
def State.isBlank (s : State) (db : Nat) : Bool :=
  s.blocks.blank && (s.servingAll db).all (fun k => (Tab.find s.blocks.pbs k).isNone) && (s.servingAll db).all (fun k => (s.pb k).st == .erasePending)

/-- The free die-block of smallest heap key on a die; with none free, the first that a blank device has not used. -/
def State.leastWorn (s : State) (die : Nat) : Option Nat :=
  let free := (List.range 1024).foldl (fun best b =>
    let db := dbKey die b
    if s.isFree db then
      match best with
      | some x => if keyLt (s.heapKey db) (s.heapKey x) then some db else best
      | none => some db
    else best) none
  match free with
  | some x => some x
  | none => ((List.range 1024).find? (fun b => s.isBlank (dbKey die b))).map (dbKey die)

/-- Whether a die belongs to a unit that is being emptied or salvaged (R228). -/
def State.leavingDie (s : State) (die : Nat) : Bool :=
  s.blocks.leaving.any (fun u => decide (u.first ≤ die) && decide (die < u.first + u.count))

/-- Whether a die belongs to a unit that faulted and whose salvage is not over (R228). -/
def State.faultedDie (s : State) (die : Nat) : Bool :=
  s.blocks.leaving.any (fun u => u.fault && decide (u.first ≤ die) && decide (die < u.first + u.count))

/-- Die-blocks of stitches open on a die, members and parity alike (R206, R209). -/
def State.openStitchBlocks (s : State) (die : Nat) : Nat :=
  ((s.blocks.pbs.filter (fun e => pbDie e.1 == die && e.2.st == .opened)).map (fun e => s.servedBy e.1)).dedup.length

/-! ### Space (R200, R201, R230, R231) -/

/-- The pool die-blocks of the listed plane-blocks of online dies. -/
def State.listedDbs (s : State) : List Nat :=
  ((s.blocks.pbs.filter (fun e => (s.ctlOf (pbDie e.1)).online)).map (fun e => s.servedBy e.1)).dedup.filter
    (fun db => decide (dbBlock db < 1024))

/-- G (R230). -/
def State.spaceGood (s : State) : Nat :=
  1024 * (s.ctl.filter (fun e => e.2.online)).length - (s.listedDbs.filter s.droppedDb).length

/-- F (R230): die-blocks of G that are FREE or ERASE_PENDING. -/
def State.spaceFree (s : State) : Nat :=
  s.spaceGood - (s.listedDbs.filter (fun db => !s.droppedDb db
    && (s.servingAll db).any (fun k => (s.pb k).st != .free && (s.pb k).st != .erasePending))).length

/-- LEAF_NEED, MAP_NEED and FLOOR (Table 5.12). -/
def State.leafNeed (s : State) : Nat := ceilDiv s.xlat.mapped 32768
def State.mapNeed (s : State) : Nat :=
  ceilDiv (2 * (s.xlat.dir.filter (fun e => e.2.st != .absent)).length) 4096
abbrev spaceFloor : Nat := 15729
def State.need (s : State) : Nat := s.leafNeed + s.mapNeed + spaceFloor

/-- States in which the map is up and the space thresholds hold. -/
def State.mounted (s : State) : Bool :=
  s.dev.state == .serving || s.dev.state == .maintenance || s.dev.state == .cinch

/-- Whether background engines may take work: not in CINCH, nor on the clean shutdown path (R392), nor in an activation pause
(Table 16.6). Harness pushes and leader reads are withheld in that pause too, which Table 16.6 does not say (R317; DESIGN CHOICE, log 76). -/
def State.engines (s : State) : Bool := s.mounted && s.dev.state != .cinch && s.power.shutdown == .none && !s.cache.pause

/-- Sets READ_ONLY: the record first, then the event (R231). -/
def State.enterReadOnly (s : State) : State :=
  let s := ({ s with dev := { s.dev with readOnly := true } }).save recSpaceState (le 8 1)
  s.event portCore 0x0606 s.devicePath (le 4 s.spaceGood ++ le 4 s.need)

/-- Evaluates the thresholds of SPACE_LOW and READ_ONLY (R201); with SPACE_LOW the space override starts to apply (R100, R101). -/
def State.checkSpace (s : State) : State :=
  if !s.mounted then s
  else
    let f := s.spaceFree
    let s := if !s.dev.spaceLow && decide (f < 23593) then
        ((({ s with dev := { s.dev with spaceLow := true } }).event portCore 0x0605 s.devicePath (le 4 f)).bump rArbOvrCount 0 16 1).event
          portCore 0x0303 s.devicePath (le 4 f)
      else if s.dev.spaceLow && decide (31458 ≤ f) then { s with dev := { s.dev with spaceLow := false } }
      else s
    if !s.dev.readOnly && decide (s.spaceGood < s.need) then s.enterReadOnly else s

/-! ### The spare reserve (R227) -/

/-- Reserve plane-blocks of a plane of a die. -/
def State.reserveOf (s : State) (die plane : Nat) : List Nat :=
  ((List.range 16).map (fun i => pbKey die plane (1024 + i)) ++
    (s.blocks.pbs.filter (fun e => pbDie e.1 == die && pbPlane e.1 == plane && decide (pbBlock e.1 < 1024))).map
      (fun e => e.1)).filter (fun k => (s.pb k).st == .reserve)

def State.reserveCount (s : State) (die : Nat) : Nat :=
  total ((List.range 4).map (fun p => (s.reserveOf die p).length))

/-- The initial reserve of a die (Table 6.3). -/
def initialReserve (die : Nat) : Nat :=
  total ((List.range 4).map (fun p => ((List.range 16).filter (fun i => !systemUse die p (1024 + i))).length))

/-- SPARE_LOW of a die: less than 25 % of its initial reserve. -/
def State.spareLow (s : State) (die : Nat) : Bool := decide (4 * s.reserveCount die < initialReserve die)

end Sys2Proof.Machine
end

