-- ==== Sys2Proof/Machine/Journal.lean ====
section
/-! DEFINITION. Births of engine tacks and page programs, and the journal: records, pages, commit, rings (R185-R190). -/

namespace Sys2Proof.Machine

/-! ### Engine tacks -/

/-- The requester of an opcode with a fixed one (Table 1.4). -/
def TackOp.rein (o : TackOp) : Option Rein :=
  match o with
  | .hostRead | .hostWrite | .sectorFill | .parityProgram | .parityRead | .lineOp => none
  | .leafWriteback => some .wb
  | .segRead | .segWrite => some .map
  | .skvRead | .skvProgram | .erase => some .skv
  | .burnishRead | .scrubRead => some .brn
  | .refreshRead | .refreshProgram | .brandHist => some .drf
  | .brandWrite | .weltWrite | .weltRead | .journalWrite | .journalRead => some .wlt
  | .prefetch => some .hr2
  | .diagRead | .bootRead | .imageWrite => some .dia

/-- A tack with nothing but its operation and origin. -/
def Tack.of (op : TackOp) (origin : Origin) (cls : BitVec 2) (leaf : Nat) : Tack :=
  { draining := false, serial := 0, origin := origin, unit := 0, op := op, cls := cls, rein := op.rein, deadline := 0
    leaf := BitVec.ofNat 34 leaf, retry := 0, flags := 0, req := none, rd := none, pg := none, wait := .none
    parent := none, losses := 0, senses := 0, media := 0, owner := none, outside := false }

/-- A background tack of an engine; LEAF_KIND 1 when its leaf is a media page reference. -/
def Tack.engine (op : TackOp) (e : BitVec 12) (leaf : Nat) (page : Bool) : Tack :=
  let t := Tack.of op (.engine e) 3 leaf
  if page then t.setFlag fLeafKind else t

/-- The first media leaf address that a tack reads or programs. -/
def Tack.target (t : Tack) : Option Nat :=
  match t.rd, t.pg with
  | some r, _ => some r.addr.toNat
  | none, some p => p.groups.head?.map (fun g => mla (p.die / 8) (p.die % 8) 0 g.1 p.page 0)
  | none, none => none

/-- The channel of a tack's read or program. -/
def Tack.channel (t : Tack) : Option Nat := t.target.map (fun a => a / 2 ^ 29)

/-- Gives birth to a tack when its partition has a slot (R16): the state, and the slot. One born during CINCH carries CINCH
when it asks. One whose address is invalid retires at once, and nothing is issued (R47). -/
def State.birth (s : State) (t : Tack) (ch : Option Nat) : State × Option Nat :=
  let t := if s.dev.state = .cinch then t.setFlag fCinch else t
  match s.slotFor t with
  | some k =>
    let s := s.birthAt k t ch
    (if t.target.all validAddr then s else s.retire k, some k)
  | none => (s, none)

/-- An engine asks for a slot: a tack that finds none asks again when the others do (R17, R19). -/
def State.ask (s : State) (t : Tack) : State × Option Nat :=
  match s.birth t t.channel with
  | (s, some k) => (s, some k)
  | (s, none) => ({ s with unborn := s.unborn ++ [t] }, none)

/-- The engines' tacks that wait for a slot, of those that `p` names, ask again, in the order of R17. -/
def State.bear (s : State) (p : Tack → Bool) : State :=
  (sortBy Tack.before (s.unborn.filter p)).foldl (fun s t =>
    match s.birth t t.channel with
    | (s, some _) => { s with unborn := s.unborn.erase t }
    | (_, none) => s) s

/-- Every tack of an engine that programs or erases, born or waiting for its slot. -/
def State.programs (s : State) : List (Tack × Program) :=
  (s.tacks.map (fun e => e.2) ++ s.unborn).filterMap (fun t => t.pg.map (fun p => (t, p)))

/-- A media page reference as LEAF carries it with LEAF_KIND 1: bits [35:3] of an address of the page (Table 1.2). -/
def pageOfAddr (a : Nat) : Nat := a / 8 % 2 ^ 33

/-- The page reference of a die's block and page, by its plane 0. -/
def pageRef (die block page : Nat) : Nat := pageOfAddr (mla (die / 8) (die % 8) 0 block page 0)

/-- The page program of a die-block: which codewords, for what. -/
def State.programOf (s : State) (db page : Nat) (cws : Tab PageCw) (what : ProgFor) : Program :=
  { die := dbDie db, page := page, cws := cws, offers := [], groups := s.groupsOf db, loaded := 0, started := false
    rejected := false, encoded := false, stamp := none, what := what }

/-- Gives birth to an engine tack that programs a page, which asks again while no slot is free. -/
def State.spawnProgram (s : State) (op : TackOp) (e : BitVec 12) (rein : Option Rein) (db page : Nat)
    (cws : Tab PageCw) (what : ProgFor) : State × Option Nat :=
  let t := Tack.engine op e (pageRef (dbDie db) (dbBlock db) page) true
  s.ask { t with rein := rein, wait := .program, pg := some (s.programOf db page cws what)
                 media := BitVec.ofNat 36 (mla (dbDie db / 8) (dbDie db % 8) 0 (dbBlock db) page 0) }

/-- A codeword of the device's own, in clear. -/
def PageCw.own (kind : CwKind) (leaf : Nat) (ctx : BitVec 12) (gen : Nat) (bs : List Byte) : PageCw :=
  { data := memOf bs, key := none, leaf := BitVec.ofNat 64 leaf, ctx := ctx, kind := kind, gen := BitVec.ofNat 16 gen }

/-! ### Records (Tables 5.4, 5.5) -/

/-- STATE codes of a leaf entry (Table 5.2). -/
def LeafSt.code (l : LeafSt) : Nat := match l with | .unmapped => 0 | .zero => 1 | .mapped => 2 | .poisoned => 3

/-- A record's TYPE, SUB and CONTEXT, and its fields from offset 0x04. -/
def recordBytes (ty sub ctx : Nat) (fields : List Byte) : List Byte :=
  ((le 1 ty ++ le 1 sub ++ le 2 ctx ++ fields) ++ zeros 32).take 32

/-- The 32 bytes of a record (Table 5.5). -/
def JRec.bytes (r : JRec) : List Byte :=
  match r with
  | .leafMap sub ctx leaf gen new old =>
    recordBytes 1 sub ctx.toNat (le 5 leaf ++ le 2 gen.toNat ++ zeros 1 ++ le 5 new.toNat ++ zeros 3
      ++ le 5 (match old with | some a => a.toNat | none => 0))
  | .leafState sub ctx first count reason =>
    recordBytes 2 sub.code ctx.toNat (le 5 first ++ zeros 3 ++ le 4 count ++ [reason])
  | .segLoc ctx seg p m rseq dropped =>
    recordBytes 3 (flag dropped) ctx.toNat (le 3 seg ++ zeros 1 ++ le 5 p.toNat ++ zeros 3 ++ le 5 m.toNat ++ zeros 3
      ++ le 8 rseq)
  | .granule sub ctx first count => recordBytes 4 sub ctx.toNat (le 3 first ++ zeros 1 ++ le 4 count)
  | .block sub die index planes use es =>
    recordBytes 5 sub 0 (le 1 (die / 8) ++ le 1 (die % 8) ++ le 2 index ++ le 1 planes.toNat ++ le 1 use ++ zeros 2
      ++ es.flatMap (le 2))
  | .weltMark seq set => recordBytes 6 0 0 (zeros 4 ++ le 8 seq ++ le 1 set)
  | .weltDone seq set => recordBytes 7 0 0 (zeros 4 ++ le 8 seq ++ le 1 set)
  | .age die c => recordBytes 8 0 0 (le 2 die ++ zeros 2 ++ le 8 c)
  | .openPtr die index page => recordBytes 9 0 0 (le 1 (die / 8) ++ le 1 (die % 8) ++ le 2 index ++ le 2 page)
  | .deltaEnd n => recordBytes 10 0 0 (zeros 4 ++ le 4 n)

/-- Codeword `i` of a journal page (R185, Table 5.4). -/
def JPage.codeword (p : JPage) (i : Nat) : PageCw :=
  let rs := (p.recs.drop (126 * i)).take 126
  let head := le 4 0x4A524E4C ++ le 2 i ++ le 2 rs.length ++ le 8 p.jseq ++ le 8 p.weltSeq ++ le 4 p.epoch ++ zeros 36
  PageCw.own .journal (p.jseq % 2 ^ 34) 0 0 (head ++ rs.flatMap JRec.bytes)

/-! ### Rings (R185, R190) -/

def State.setXlat (s : State) (x : Xlat) : State := { s with xlat := x }

/-- Programs one copy of a journal page at the next page of its ring (R185, R189). -/
def State.writeJournal (s : State) (p : JPage) (second : Bool) : State :=
  let stream := p.jseq % 8
  let r := stream * 2 + flag second
  let i := Tab.get s.xlat.ringAt r 0
  let s := s.setXlat { s.xlat with ringAt := Tab.put s.xlat.ringAt r ((i + 1) % 4096)
                                   ring := Tab.put s.xlat.ring (r * 4096 + i) p.jseq }
  let db := dbKey (dieKey (stream + 8 * flag second) 0) (1028 + i / 1024)
  (s.spawnProgram .journalWrite engWelt (some .wlt) db (i % 1024)
    ((List.range 32).map (fun c => (c, p.codeword c))) (.journal p.jseq second)).1

/-- Closes the open page and programs both copies (R187). -/
def State.closePage (s : State) : State :=
  let x := s.xlat
  if x.jRecs.isEmpty then s
  else
    let newest := match s.newestWelt with | some w => w.seq | none => 0
    let p : JPage := { jseq := x.jHead, epoch := x.epoch, weltSeq := newest, recs := x.jRecs, primary := false, mirror := false }
    let s := s.setXlat { x with pages := x.pages ++ [p], jRecs := [], jFlush := false, jHead := x.jHead + 1 }
    let s := (s.writeJournal p false).writeJournal p true
    if s.pressure then s.setXlat { s.xlat with weltDue := true } else s

/-- Journal MiB per welt in force (Table 5.10). -/
def State.weltMib (s : State) : Nat :=
  match s.field rXlatCtrl 0 2 with | 0 => 2048 | 1 => 512 | 2 => 2048 | _ => s.field rXlatWeltBytes 0 12

/-- The RSEQ that the next record takes (R185). -/
def State.nextRseq (s : State) : Nat := s.xlat.jHead * 4096 + s.xlat.jRecs.length

/-- Appends a record; a page of 4,032 records closes (R187), and WELT_BYTES of records make a welt due (R192). -/
def State.append (s : State) (r : JRec) : State :=
  let x := s.xlat
  let n := x.sinceMark + 1
  let s := s.setXlat { x with jRecs := x.jRecs ++ [r], sinceMark := n
                              weltDue := x.weltDue || decide (s.weltMib * 2 ^ 20 ≤ 32 * n) }
  if s.xlat.jRecs.length = 4032 then s.closePage else s

/-- Whether the page that holds a record is committed (R188). -/
def State.committed (s : State) (rseq : Nat) : Bool :=
  match s.xlat.jCommit with | some n => decide (rseq / 4096 ≤ n) | none => false

/-- The highest committed JSEQ: pages in order, as far as both copies of every page have programmed (R188); stale pages of an
earlier epoch count for nothing (R196). -/
def commitOf (epoch : Nat) (ps : List JPage) (c : Option Nat) : Option Nat :=
  match ps with
  | [] => c
  | p :: r =>
    if p.epoch ≠ epoch ∨ (match c with | some n => decide (p.jseq ≤ n) | none => false) = true then commitOf epoch r c
    else if p.primary && p.mirror then commitOf epoch r (some p.jseq)
    else c

/-- A copy of a journal page has programmed (R188). -/
def State.journalProgrammed (s : State) (jseq : Nat) (second : Bool) : State :=
  let ps := s.xlat.pages.map (fun p =>
    if p.jseq = jseq ∧ p.epoch = s.xlat.epoch then (if second then { p with mirror := true } else { p with primary := true }) else p)
  s.setXlat { s.xlat with pages := ps, jCommit := commitOf s.xlat.epoch ps s.xlat.jCommit }

/-- Commits every record appended so far: its page closes (R187). -/
def State.flushJournal (s : State) : State := s.closePage

end Sys2Proof.Machine
end

