-- ==== Sys2Proof/Machine/Leaf.lean ====
section
/-! DEFINITION. The directory, the segment cache and leaf entries: lookups, and the changes that the map updater makes in
journal order (R162-R184, R187). -/

namespace Sys2Proof.Machine

/-! ### Contexts -/

/-- A context that does not exist (Table 9.1). -/
def Ctx.init : Ctx :=
  { valid := false, cls := 0, ticket := false, wt := false, rdOnly := false, zeroOnUnmap := false, enc := false
    key := .none, sweep := false, generation := 0, late := 0, poison := 0, refused := 0 }

def State.ctx (s : State) (c : Nat) : Ctx := Tab.get s.ctxs c Ctx.init
def State.setCtx (s : State) (c : Nat) (x : Ctx) : State := { s with ctxs := Tab.put s.ctxs c x }
def State.updCtx (s : State) (c : Nat) (f : Ctx → Ctx) : State := s.setCtx c (f (s.ctx c))

/-! ### The directory -/

/-- The entry of an unbound granule (R169). -/
def DirEntry.unbound : DirEntry := { ctx := 0, st := .absent, pinned := false, dirty := true, loc := 0 }

def DirEntry.bound (e : DirEntry) : Bool := !(e.st == .absent && e.dirty)

/-- The 64 bits of a directory entry (Table 5.3). -/
def DirEntry.word (e : DirEntry) : Nat :=
  e.ctx.toNat * 2 ^ 52 + (match e.st with | .absent => 0 | .inMedia => 1 | .resident => 2) * 2 ^ 50
    + flag e.pinned * 2 ^ 49 + flag e.dirty * 2 ^ 48 + e.loc.toNat

def State.entry (s : State) (g : Nat) : DirEntry := Tab.get s.xlat.dir g DirEntry.unbound

/-- Writes a directory entry; an unbound one is not listed. -/
def State.setEntry (s : State) (g : Nat) (e : DirEntry) : State :=
  s.setXlat { s.xlat with dir := if e = DirEntry.unbound then Tab.del s.xlat.dir g else Tab.put s.xlat.dir g e }

/-- The directory index of a host leaf (Table 5.1). -/
def granuleOf (leaf : Nat) : Nat := leaf / 4096

/-- The directory line of a granule. -/
def lineOf (g : Nat) : Nat := g / 8

/-- A directory CRC error (R172, R177): counted, recorded with its source, and queued for rebuild. -/
def State.dirError (s : State) (line source : Nat) : State :=
  let s := (s.bump rDirCrcErr 0 32 1).setReg rDirLastErr (2 ^ 31 + source * 2 ^ 20 + line)
  let now := s.store.opSeconds
  let es := s.xlat.errs
  let es := if es.any (fun e => e.line == line) then
      es.map (fun e => if e.line ≠ line then e
        else if 86400 < now - e.first then { e with count := 1, first := now } else { e with count := e.count + 1 })
    else
      let n : DirErr := { line := line, count := 1, first := now }
      if es.length < 64 then es ++ [n]
      else
        let oldest := es.foldl (fun m e => Nat.min m e.first) now
        match es.find? (fun e => e.first == oldest) with
        | some o => (es.filter (fun e => e.line != o.line)) ++ [n]
        | none => es
  s.setXlat { s.xlat with errs := es
                          badLines := if line ∈ s.xlat.badLines then s.xlat.badLines else s.xlat.badLines ++ [line] }

/-- Whether tacks that reach a line are held (R175 step 1). -/
def State.lineHeld (s : State) (line : Nat) : Bool := s.xlat.badLines.contains line

/-- GRANULES and PINNED of a context, counted from the directory (R299). -/
def State.granules (s : State) (c : Nat) : Nat :=
  (s.xlat.dir.filter (fun e => e.2.bound && e.2.ctx.toNat == c)).length
def State.pinnedOf (s : State) (c : Nat) : Nat :=
  (s.xlat.dir.filter (fun e => e.2.bound && e.2.ctx.toNat == c && e.2.pinned)).length

/-- Granules that commands already accepted will pin once the rebuild of their line ends (R175, R180): they count against PIN_LIMIT from
the acceptance on (DEDUCED, log 75). -/
def State.pinsHeld (s : State) : Nat :=
  total (s.cmdq.cmds.map (fun c =>
    match c.step with
    | .held first n =>
      if c.opcode = 0x33 then
        ((List.range n).filter (fun i => !(match Tab.find s.xlat.dir (first + i) with | some e => e.pinned | none => false))).length
      else if c.opcode = 0x34 ∨ (s.ctx (c.pkt.u 4 2 % 4096)).cls = 2#2 then 0
      else n
    | _ => 0)) +
  (s.xlat.pinsDue.filter (fun p => p.2 && !(match Tab.find s.xlat.dir p.1 with | some e => e.pinned | none => false))).length

/-- What PIN_LIMIT bounds: the pinned granules and those about to be. -/
def State.pinDemand (s : State) : Nat := s.pinnedCount + s.pinsHeld

/-! ### Segments -/

/-- A leaf that no record has changed: UNMAPPED at WRITE_GEN 0 (R165). -/
def LeafEntry.init : LeafEntry := { st := .unmapped, gen := 0, hole := false, addr := 0 }

/-- The 64 bits of a leaf entry (Table 5.2). -/
def LeafEntry.word (e : LeafEntry) : Nat :=
  e.st.code * 2 ^ 62 + e.gen.toNat * 2 ^ 46 + flag e.hole * 2 ^ 45
    + (if e.st = .mapped ∨ e.st = .poisoned then e.addr.toNat else 0)

/-- The slot of a resident segment. -/
def State.segSlot (s : State) (g : Nat) : Option SegSlot :=
  let e := s.entry g
  if e.st = .resident then Tab.find s.xlat.slots e.loc.toNat else none

/-- A leaf entry, when its segment is resident or ABSENT; none when it lies in media. -/
def State.leafEntry (s : State) (leaf : Nat) : Option LeafEntry :=
  let e := s.entry (granuleOf leaf)
  match e.st with
  | .absent => some LeafEntry.init
  | .resident => (Tab.find s.xlat.slots e.loc.toNat).map (fun sl => Tab.get sl.leaves (leaf % 4096) LeafEntry.init)
  | .inMedia => none

/-- Whether a tack waits on a segment. -/
def State.segAwaited (s : State) (g : Nat) : Bool := s.tacks.any (fun t => t.2.wait == .segment g)

/-- The CLEAN, unpinned slot on which no tack waits that the clock meets first (R182); one whose line is being rebuilt is held
(R175). -/
def State.evictable (s : State) : Option Nat :=
  let ok := fun (e : Nat × SegSlot) => e.2.st == .clean && !(s.entry e.2.index).pinned && !s.segAwaited e.2.index
    && !s.lineHeld (lineOf e.2.index)
  match (s.xlat.slots.filter (fun e => ok e && decide (s.xlat.clock ≤ e.1))).map (fun e => e.1) with
  | k :: _ => some k
  | [] => ((s.xlat.slots.filter ok).map (fun e => e.1)).head?

/-- Evicts a slot: its entry becomes IN_MEDIA with the primary location (R182). -/
def State.evict (s : State) (k : Nat) : State :=
  match Tab.find s.xlat.slots k with
  | none => s
  | some sl =>
    let e := s.entry sl.index
    let s := s.setEntry sl.index { e with st := .inMedia, dirty := false, loc := sl.primary }
    s.setXlat { s.xlat with slots := Tab.del s.xlat.slots k, clock := (k + 1) % 393216 }

/-- The slots that are held for pinned ABSENT granules other than `g` (R169). -/
def State.heldSlots (s : State) (g : Nat) : Nat :=
  (s.xlat.dir.filter (fun e => e.1 != g && e.2.bound && e.2.st == .absent && e.2.pinned)).length

/-- A free segment-cache slot for granule `g`, by eviction when none is FREE: the state, and the slot. -/
def State.segRoom (s : State) (g : Nat) : State × Option Nat :=
  match (if s.xlat.slots.length + s.heldSlots g < 393216 then firstFree s.xlat.slots 0 393215 else none) with
  | some k => (s, some k)
  | none =>
    match s.evictable with
    | some k => (s.evict k, some k)
    | none => (s, none)

/-- Whether an entry is corrupt (R169). A SEG_STATE of 0b11 is no value of an entry here: a line that reads so is one that reads with a
CRC error. -/
def DirEntry.corrupt (e : DirEntry) : Bool :=
  match e.st with | .absent => false | .inMedia => e.loc.toNat % 8 != 0 | .resident => decide (393215 < e.loc.toNat)

/-- Whether a line holds a corrupt entry, which is a CRC error of the line (R169). -/
def State.lineCorrupt (s : State) (line : Nat) : Bool := (List.range 8).any (fun i => (s.entry (8 * line + i)).corrupt)

/-- The newest image of a segment, from the copy that the directory or the segment table names. -/
def State.imageOf (s : State) (g : Nat) : Option SegImage :=
  let e := s.entry g
  match Tab.find s.xlat.images e.loc.toNat with
  | some i => some i
  | none => (Tab.find s.xlat.segTable g).bind (fun m => Tab.find s.xlat.images m.1.toNat)

/-- Puts the leaf entries of a segment into a slot, CLEAN, and makes it RESIDENT. -/
def State.placeSegment (s : State) (g k : Nat) (leaves : Tab LeafEntry) : State :=
  let e := s.entry g
  let (mirror, rseq) := Tab.get s.xlat.segTable g (0, 0)
  let sl : SegSlot := { index := g, st := .clean, firstDirty := none, imageRseq := rseq, primary := e.loc
                        mirror := mirror, leaves := leaves }
  let s := s.setXlat { s.xlat with slots := Tab.put s.xlat.slots k sl }
  s.setEntry g { e with st := .resident, dirty := false, loc := BitVec.ofNat 36 k }

/-- Brings a segment into the cache at once, for the map updater: created all UNMAPPED when ABSENT, loaded from its image
when IN_MEDIA (R165, R196). -/
def State.bringIn (s : State) (g : Nat) : State :=
  let e := s.entry g
  match e.st with
  | .resident => s
  | _ =>
    match s.segRoom g with
    | (s, some k) =>
      let leaves := match e.st with | .inMedia => ((s.imageOf g).map (fun i => i.leaves)).getD [] | _ => []
      s.placeSegment g k leaves
    | (s, none) => s

/-- A record at `rseq` changes a resident segment: DIRTY, with FIRST_DIRTY_RSEQ at the first such record (R179,
R182). -/
def SegSlot.dirtied (sl : SegSlot) (rseq : Nat) : SegSlot :=
  { sl with st := if sl.st = .writing then .writing else .dirty
            firstDirty := match sl.firstDirty with | some n => some n | none => some rseq }

/-- Changes a leaf entry under the record at `rseq`. -/
def State.setLeaf (s : State) (leaf rseq : Nat) (f : LeafEntry → LeafEntry) : State :=
  let s := s.bringIn (granuleOf leaf)
  let g := granuleOf leaf
  let e := s.entry g
  match s.segSlot g with
  | none => s
  | some sl =>
    let sl := { sl.dirtied rseq with leaves := Tab.put sl.leaves (leaf % 4096) (f (Tab.get sl.leaves (leaf % 4096) LeafEntry.init)) }
    (s.setXlat { s.xlat with slots := Tab.put s.xlat.slots e.loc.toNat sl }).setEntry g { e with dirty := true }

/-! ### Valid counts -/

/-- Adds to the VALID count of the plane-block of an address. -/
def State.addValid (s : State) (a : MediaAddr) : State :=
  s.updPb (planeBlock a.toNat) (fun r => { r with valid := Nat.min 8192 (r.valid + 1) })
def State.subValid (s : State) (a : MediaAddr) : State :=
  s.updPb (planeBlock a.toNat) (fun r => { r with valid := r.valid - 1 })

/-- Leaves the mapping of a leaf: its old address holds no valid leaf any more. -/
def State.unmapOld (s : State) (e : LeafEntry) : State :=
  if e.st = .mapped then (s.subValid e.addr).setXlat { (s.subValid e.addr).xlat with mapped := s.xlat.mapped - 1 } else s

/-! ### Changes of leaves (R165, R147, R148) -/

/-- Write-backs of a run of leaves whose program or map switch is under way: a later change undoes their mapping
(R305). -/
def State.voidWritebacks (s : State) (first n : Nat) : State :=
  let ks := (s.tacks.filter (fun t => t.2.op == .leafWriteback && (t.2.wait == .program || t.2.wait == .switch)
    && decide (first ≤ t.2.leaf.toNat) && decide (t.2.leaf.toNat < first + n))).map (fun t => t.1)
  s.setXlat { s.xlat with void := s.xlat.void ++ ks.filter (fun k => !s.xlat.void.contains k) }

/-- The leaves of a run whose entries are not at their initial value, in a resident segment: the entries a run-wide
change must visit. An UNMAPPED target leaves the others as they are. -/
def State.leavesOf (s : State) (g lo hi : Nat) : List Nat :=
  match s.segSlot g with
  | some sl => (sl.leaves.filter (fun e => decide (lo ≤ e.1) && decide (e.1 < hi))).map (fun e => e.1)
  | none => []

/-- A LEAF_STATE record over a run inside one granule (Table 5.5): every leaf takes the state, keeps its WRITE_GEN and,
when POISONED, its last media address. `hole` is the HOLE bit it sets; a leaf that a record lists keeps it (R147), but in a crypto-erase. -/
def State.leafState (s : State) (st : LeafSt) (first n reason : Nat) (hole : Bool) : State :=
  let g := granuleOf first
  let ctx := (s.entry g).ctx
  let rseq := s.nextRseq
  let s := if (s.entry g).st = .absent ∧ st = .unmapped then s else s.bringIn g
  let s := s.append (.leafState st ctx first n (BitVec.ofNat 8 reason))
  let lo := first % 4096
  let ls := if st = .unmapped then s.leavesOf g lo (lo + n) else (List.range n).map (fun i => lo + i)
  let s := ls.foldl (fun s i =>
    let leaf := g * 4096 + i
    let old := (s.leafEntry leaf).getD LeafEntry.init
    let s := s.unmapOld old
    s.setLeaf leaf rseq (fun e =>
      { e with st := st, hole := hole || (st == .poisoned && e.hole && reason != 0), addr := if st = .poisoned ∧ (e.st = .mapped ∨ e.st = .poisoned) then e.addr else 0 })) s
  s.voidWritebacks first n

/-- The unit path of the die of an address, or of the device when there is none. -/
def State.addrPath (s : State) (a : Option MediaAddr) : Nat :=
  match a with | some a => s.diePath (dieOf a) | none => s.devicePath

/-- A leaf becomes POISONED and enters the hole list (R143, R147), with the reasons of Table 4.4. -/
def State.poisonNow (s : State) (leaf reason : Nat) : State :=
  let e := s.entry (granuleOf leaf)
  let old := (s.leafEntry leaf).getD LeafEntry.init
  let s := s.leafState .poisoned leaf 1 reason (old.hole || decide (s.drift.holes.length < 1048576))
  if old.hole then s
  else
    let a := if old.st = .mapped then some old.addr else none
    s.enterHoles { first := leaf, count := 1, ctx := e.ctx, reason := BitVec.ofNat 8 reason, media := a.getD 0
                   seconds := s.store.opSeconds, unit := BitVec.ofNat 32 (s.addrPath a) }

/-- Whether the map updater can take a segment away now: it is not in media alone, and no rebuild holds its line (R175, R181). -/
def State.reachable (s : State) (g : Nat) : Bool := (s.entry g).st != .inMedia && !s.lineHeld (lineOf g)

/-- Whether the map updater can change an entry of a segment now: it also has a slot, or can get one (R171, R182). -/
def State.updatable (s : State) (g : Nat) : Bool :=
  s.reachable g && ((s.entry g).st == .resident || (s.segRoom g).2.isSome)

/-- A leaf is to become POISONED: at once, or once its segment has been read. With an address, it does only while it is mapped there. -/
def State.poisonLeaf (s : State) (leaf reason : Nat) (at' : Option MediaAddr := none) : State :=
  if s.updatable (granuleOf leaf) then
    let e := (s.leafEntry leaf).getD LeafEntry.init
    if at'.any (fun a => !(e.st == .mapped && e.addr == a)) then s else s.poisonNow leaf reason
  else if s.xlat.poisons.any (fun p => p.1 == leaf) then s
  else s.setXlat { s.xlat with poisons := s.xlat.poisons ++ [(leaf, reason, at')] }

/-- The next leaf of the updater's queue is mapped (R165, R187): LEAF_MAP is appended and the entry switches; a copy
switches only an entry that still holds its source, and a void write-back switches nothing. -/
def State.mapLeaf (s : State) (i : MapItem) : State :=
  let g := granuleOf i.leaf
  let d := s.entry g
  let void := match i.tack with | some k => s.xlat.void.contains k | none => false
  if !d.bound || d.ctx != i.ctx || void then s
  else
    let old := (s.leafEntry i.leaf).getD LeafEntry.init
    let stale := match i.source with | some (a, n) => !(old.st == LeafSt.mapped && old.addr == a && old.gen == n) | none => false
    if stale then s
    else
      let s := s.bringIn g
      let gen := match i.source with | some (_, n) => n | none => old.gen + 1
      let rseq := s.nextRseq
      let s := s.append (.leafMap i.sub i.ctx i.leaf gen i.addr (if old.st = LeafSt.mapped then some old.addr else none))
      let s := ((s.unmapOld old).setLeaf i.leaf rseq (fun _ => { st := .mapped, gen := gen, hole := false, addr := i.addr })).addValid i.addr
      let s := s.setXlat { s.xlat with mapped := s.xlat.mapped + 1 }
      let s := if old.hole then s.leaveHoles i.leaf 1 else s
      { s with cache := { s.cache with commits := s.cache.commits.map (fun (c : Commit) =>
          if c.leaf = i.leaf ∧ c.snap ∧ c.rseq = none then { c with rseq := some rseq } else c) } }

/-- Pins granules as their context's class or a command does (R180). -/
def State.pin (s : State) (g : Nat) (on : Bool) : State :=
  let e := s.entry g
  if e.bound then s.setEntry g { e with pinned := on } else s

/-- Drops a segment under the record at `rseq`: its entry becomes ABSENT (R167), and the segment table keeps the record, before which no
leaf record reaches the granule any more (R197, log 36). -/
def State.dropSegment (s : State) (g rseq : Nat) : State :=
  let e := s.entry g
  let s := if e.st = .resident then s.setXlat { s.xlat with slots := Tab.del s.xlat.slots e.loc.toNat } else s
  let s := s.setXlat { s.xlat with segTable := Tab.put s.xlat.segTable g (0, rseq) }
  s.setEntry g { e with st := .absent, dirty := false, loc := 0 }

/-- Whether every leaf of a segment is UNMAPPED (R167). -/
def SegSlot.empty (sl : SegSlot) : Bool := sl.leaves.all (fun e => e.2.st == .unmapped)

end Sys2Proof.Machine
end

