-- ==== Sys2Proof/Machine/Lines.lean ====
section
/-! DEFINITION. The line cache: sets and ways, sectors, the dirty list, replacement, the dirty ceiling and the words that
show them (R238-R255, R263-R265). -/

namespace Sys2Proof.Machine

def State.setCache (s : State) (c : Cache) : State := { s with cache := c }

/-! ### Lines -/

/-- The set of a host leaf (R239). -/
def setOf (leaf : Nat) : Nat := (leaf % 2 ^ 18) ^^^ (leaf / 2 ^ 18 % 2 ^ 16 * 4)

/-- A line with no valid sector. -/
def Line.empty (leaf : Nat) (ctx : BitVec 12) (wt : Bool) : Line :=
  { leaf := leaf, ctx := ctx, locked := false, wt := wt, wbBusy := false, redirty := false, valid := 0, dirty := 0
    poison := 0, data := [], named := false, bad := 0 }

/-- The key (set × 16 + way) and the line of a leaf, when it is resident. -/
def State.lineAt (s : State) (leaf : Nat) : Option (Nat × Line) :=
  (List.range 16).findSome? (fun w =>
    match Tab.find s.cache.lines (setOf leaf * 16 + w) with
    | some l => if l.leaf = leaf then some (setOf leaf * 16 + w, l) else none
    | none => none)

def State.setLine (s : State) (k : Nat) (l : Line) : State :=
  s.setCache { s.cache with lines := Tab.put s.cache.lines k l }

def Line.full (l : Line) : Bool := l.valid == BitVec.allOnes 64
def Line.isDirty (l : Line) : Bool := l.dirty != 0
def Line.poisoned (l : Line) : Bool := l.poison != 0

/-- Sectors [lo, hi) as a mask. -/
def sectors (lo hi : Nat) : BitVec 64 := BitVec.ofNat 64 (2 ^ hi - 2 ^ lo)

/-- Sectors that bytes [off, off + n) touch. -/
def touched (off n : Nat) : BitVec 64 := if n = 0 then 0 else sectors (off / 64) ((off + n - 1) / 64 + 1)

/-- Sectors that bytes [off, off + n) cover whole. -/
def covered (off n : Nat) : BitVec 64 :=
  let lo := (off + 63) / 64
  let hi := (off + n) / 64
  if lo < hi then sectors lo hi else 0

/-- The line tag word, without its parity (Table 7.2). -/
def Line.tag (l : Line) : Nat :=
  2 ^ 63 + flag l.locked * 2 ^ 62 + flag l.isDirty * 2 ^ 61 + flag l.full * 2 ^ 60 + flag l.wbBusy * 2 ^ 59
    + flag l.redirty * 2 ^ 58 + flag l.wt * 2 ^ 57 + flag l.poisoned * 2 ^ 56 + l.ctx.toNat * 2 ^ 44
    + l.leaf / 2 ^ 18 % 2 ^ 16 * 2 ^ 28

/-- Even parity over a byte. -/
def parity8 (b : Nat) : Nat := total (bitList b 8 |>.map flag) % 2

/-- The tag as stored: bit k is the parity of bits [8k + 15 : 8k + 8] (Table 7.2). -/
def Line.tagWord (l : Line) : Nat :=
  l.tag + total ((List.range 7).map (fun k => parity8 (bits l.tag (8 * k + 8) 8) * 2 ^ k))

/-- Fills every sector that is not VALID from the leaf's version below (R243). -/
def Line.fill (l : Line) (src : Nat → Byte) : Line :=
  let miss := (List.range 64).filter (fun i => !l.valid.getLsbD i)
  { l with valid := BitVec.allOnes 64
           data := miss.foldl (fun d i => Memory.writeBytes 0 d (64 * i) ((List.range 64).map (fun j => src (64 * i + j)))) l.data }

/-- The bytes of a leaf without a mapped version (R164). -/
def unmappedByte (st : LeafSt) (zero : Bool) : Byte := if st = .zero || zero then 0 else 0xFF

/-- Merges a write (R243, R248): sectors it touches become VALID and DIRTY, those it covers whole lose their POISON; a
write over a snapshot sets REDIRTY (R252). -/
def Line.merge (l : Line) (off : Nat) (bs : List Byte) : Line :=
  let t := touched off bs.length
  { l with data := Memory.writeBytes 0 l.data off bs, valid := l.valid ||| t, dirty := l.dirty ||| t
           poison := l.poison &&& ~~~covered off bs.length, redirty := l.redirty || l.wbBusy, bad := l.bad &&& ~~~covered off bs.length }

/-- A line whose 64 sectors are VALID and POISON, for a write to a POISONED leaf (R248). -/
def Line.toPoison (l : Line) : Line :=
  { l with valid := BitVec.allOnes 64, poison := l.poison ||| ~~~l.valid }

/-- The credit of a write returns: the host port gives the flow-control credit of a posted write back, and a CXL.mem write gets its
completion (R243, R260). -/
def State.sendCredit (s : State) (addr : HostAddr) (cxl : Bool) : State :=
  s.emit (.message (if cxl then "CXL.mem Cmp, MetaField No-Op" else "Posted credit") addr.toNat)

/-- Keeps the media-commit waits that `p` keeps. A credit whose waits have all ended returns (R265). -/
def State.keepCommits (s : State) (p : Commit → Bool) : State :=
  let kept := s.cache.commits.filter p
  let gone := ((s.cache.commits.filter (fun c => !p c)).map (fun c => c.owner)).dedup
  (gone.filter (fun o => !kept.any (fun c => c.owner == o))).foldl (fun s o =>
    match o with | .credit _ a x => s.sendCredit a x | _ => s) (s.setCache { s.cache with commits := kept })

/-- Forgets the media-commit waits of a leaf whose dirty data is gone. -/
def State.dropCommits (s : State) (leaf : Nat) : State := s.keepCommits (fun c => !(c.leaf == leaf && c.rseq.isNone))

/-- Invalidates a line and takes it off the dirty list; the age of its head runs afresh when the head leaves (R250). -/
def State.dropLine (s : State) (k : Nat) : State :=
  match Tab.find s.cache.lines k with
  | none => s
  | some l =>
    let s := s.setCache { s.cache with lines := Tab.del s.cache.lines k, dirtyList := s.cache.dirtyList.filter (fun j => j != k)
                                       ageDue := s.cache.ageDue && s.cache.dirtyList.head? != some k }
    if l.isDirty && !l.wbBusy then s.dropCommits l.leaf else s

/-- Drops a line that carries POISON without writing it, on behalf of a tack if one is concerned (R248). -/
def State.poisonDrop (s : State) (k : Nat) (tack : Nat := 0xFFFF) : State :=
  match Tab.find s.cache.lines k with
  | none => s
  | some l => ((s.dropLine k).bump rCachePoison 0 32 1).event portCache 0x0703 s.devicePath (le 5 l.leaf) tack

/-- A line is evicted or invalidated: one that still carries POISON is counted and logged (R248). -/
def State.invalidate (s : State) (k : Nat) (tack : Nat := 0xFFFF) : State :=
  match Tab.find s.cache.lines k with
  | some l => if l.poisoned then s.poisonDrop k tack else s.dropLine k
  | none => s

/-- Whether a line acts as write-through: its context's, or the cache is disabled (R249, R259). -/
def State.actsWt (s : State) (wt : Bool) : Bool := wt || !s.cache.enabled

/-- Enters a line that became dirty in the dirty list: at the tail, or at the head under write-through (R249, R250). -/
def State.listDirty (s : State) (k : Nat) (wt : Bool) : State :=
  let c := s.cache
  if c.dirtyList.contains k then s
  else if s.actsWt wt then s.setCache { c with dirtyList := k :: c.dirtyList, ageDue := false }
  else s.setCache { c with dirtyList := c.dirtyList ++ [k] }

/-! ### Dirty level and ceiling (R250, R263-R265) -/

/-- Whether posted credit is withheld from a write that dirties a new line; in CINCH the reserve up to the ceiling is
open until step 4 (Table 7.8). -/
def State.withholds (s : State) : Bool :=
  if s.dev.state = .cinch then decide (s.cache.ceiling * linesPerMib ≤ s.dirtyLines) else s.throttled

/-- raw of R263, energies in mJ. -/
def State.rawCeiling (s : State) (usable : Nat) : Nat :=
  (usable - s.field rCacheEnergy 0 16) * 1024 / Nat.max 1 (s.field rCacheEnergy 16 16)

/-- Recomputes the ceiling from the usable energy (R263, R265). -/
def State.recomputeCeiling (s : State) (usable : Nat) : State :=
  let raw := s.rawCeiling usable
  let new := Nat.min (s.field rCacheCeilLimit 0 12) (clamp 256 3072 raw)
  let old := s.cache.ceiling
  let short := decide (raw < 256)
  let was := s.cache.ceilFloored
  let s := s.setCache { s.cache with ceiling := new, ceilFloored := short }
  let s := if new = old then s else s.event portPower 0x0704 s.devicePath (le 2 old ++ le 2 new ++ le 4 usable)
  if short && !was then s.event portPower 0x0705 s.devicePath (le 4 usable) else s

/-- WB_START and WB_AGE_MS in force (Table 7.5). -/
def State.wbStart (s : State) : Nat :=
  match s.field rCacheCtrl 0 2 with | 0 => 25 | 1 => 5 | 2 => 60 | _ => s.field rCacheWb 0 7

/-! ### Who holds a line -/

/-- Whether a tack touches the lines of host leaves. -/
def Tack.onLeaf (t : Tack) (leaf : Nat) : Bool :=
  !t.draining && !t.flag fLeafKind && t.leaf.toNat == leaf
    && (match t.op with
        | .hostRead | .hostWrite | .sectorFill | .leafWriteback | .prefetch | .lineOp => true
        | _ => false)

/-- Whether a live tack holds a leaf's line. -/
def State.leafHeld (s : State) (leaf : Nat) : Bool := s.tacks.any (fun e => e.2.onLeaf leaf)

/-- Whether a tack has not finished with the line of its leaf (R21). A write-back has finished once it holds its snapshot, a read
once it has its bytes; a child serves the tack that spawned it. -/
def Tack.holdsLine (t : Tack) : Bool :=
  t.onLeaf t.leaf.toNat && !t.flag fChild && !(t.op == .leafWriteback && (t.wait == .program || t.wait == .switch))
    && t.wait != .order && t.wait != .commit

/-- Whether a tack of the range engine waits for the line in a way to be clean, so that the write-back serves it. -/
def Tack.awaitsClean (t : Tack) : Bool := t.op == .lineOp && (match t.wait with | .victim _ => true | _ => false)

/-- Whether an earlier tack has not finished with the leaf (R21). In a cinch operations have stopped, and a write-back waits for none of
their tacks (Table 7.10). -/
def State.mustWait (s : State) (t : Tack) : Bool :=
  s.tacks.any (fun e => e.2.holdsLine && e.2.leaf == t.leaf && decide (e.2.serial < t.serial)
    && !(t.op == .leafWriteback && (e.2.awaitsClean || s.dev.state == .cinch && e.2.op == .lineOp)))

/-- Whether an allocation that waits for its victim holds a way (R254). -/
def State.wayHeld (s : State) (k : Nat) : Bool := s.tacks.any (fun e => e.2.wait == .victim k)

/-! ### Replacement (R253, R254) -/

def lfsr16 (v : BitVec 16) : BitVec 16 :=
  let fb := v.getLsbD 15 ^^ (v.getLsbD 13 ^^ (v.getLsbD 12 ^^ v.getLsbD 10))
  (v <<< 1) ||| (if fb then 1#16 else 0#16)

/-- What an allocation gets: a way to use, a dirty victim to wait for, or nothing. -/
inductive Alloc where
  | way (k : Nat)
  | victim (k : Nat)
  | none
  deriving DecidableEq, Repr

/-- Chooses a way of the set of a leaf for a tack (R253). -/
def State.allocate (s : State) (leaf : Nat) (tack : Nat := 0xFFFF) : State × Alloc :=
  let ways := (List.range 16).map (fun w => setOf leaf * 16 + w)
  let cands := ways.filter (fun k =>
    !s.wayHeld k && (match Tab.find s.cache.lines k with
      | some l => !l.locked && !l.wbBusy && !s.leafHeld l.leaf
      | none => true))
  match cands.filter (fun k => (Tab.find s.cache.lines k).isNone) with
  | k :: _ => (s, .way k)
  | [] =>
    let dirty := fun k => match Tab.find s.cache.lines k with | some l => l.isDirty | none => false
    let clean := cands.filter (fun k => !dirty k)
    let group := if clean.isEmpty then cands else clean
    match group with
    | [] => (s, .none)
    | g0 :: _ =>
      let v := lfsr16 s.cache.lfsr
      let s := s.setCache { s.cache with lfsr := v }
      let k := group.getD (v.toNat * group.length / 2 ^ 16) g0
      if dirty k then
        match Tab.find s.cache.lines k with
        | some l => (s.setLine k { l with named := true }, .victim k)
        | none => (s, .none)
      else (s.invalidate k tack, .way k)

/-- Locked lines of the set of a leaf (R255). -/
def State.lockedIn (s : State) (leaf : Nat) : Nat :=
  ((List.range 16).filter (fun w =>
    match Tab.find s.cache.lines (setOf leaf * 16 + w) with | some l => l.locked | none => false)).length

/-- While the cache is disabled a line goes as soon as it is clean and no tack holds it (R259). -/
def State.sweepLine (s : State) (k : Nat) : State :=
  match Tab.find s.cache.lines k with
  | some l =>
    if !l.isDirty && !l.wbBusy && !s.cache.enabled && !s.leafHeld l.leaf then s.invalidate k else s
  | none => s

end Sys2Proof.Machine
end

