-- ==== Sys2Proof/Machine/Aer.lean ====
section
/-! DEFINITION. Advanced Error Reporting: the errors of Table 8.8, their status, mask and severity bits and the Header Log (R291). The
bits, defaults and header layout are PCI Express's own (log 69). -/

namespace Sys2Proof.Machine

/-- The errors of Table 8.8 that the device reports. -/
inductive AerError where
  | unsupported | unsupportedWrite | abort | poisoned | ecrc | malformed | corrected | fatal
  deriving DecidableEq, Repr

/-- The bit of an error in the status, mask and severity registers: of the uncorrectable ones, or, for Corrected Internal Error, the
correctable ones. -/
def AerError.bit (e : AerError) : Nat :=
  match e with
  | .unsupported | .unsupportedWrite => 20
  | .abort => 15
  | .poisoned => 12
  | .ecrc => 19
  | .malformed => 18
  | .corrected => 14
  | .fatal => 22

/-- Whether Table 8.8 classes an error advisory non-fatal: it then shows as correctable bit 13 as well. -/
def AerError.advisory (e : AerError) : Bool := e == .unsupported || e == .poisoned

/-- What the link carries of an error that is not masked: the message, with the error's bit. -/
def State.errMessage (s : State) (name : String) (b : Nat) : State := s.emit (.message name b)

/-- A correctable error: its status bit, and ERR_COR unless it is masked. -/
def State.aerCorrectable (s : State) (b : Nat) : State :=
  let a := s.host.aer
  let s := { s with host := { s.host with aer := { a with corStatus := a.corStatus ||| BitVec.ofNat 32 (2 ^ b) } } }
  if a.corMask.getLsbD b then s else s.errMessage "ERR_COR" b

/-- Reports an error of a request with a header (R291): its status bit, the Header Log of the first error since the log was free, and the
message of its class unless it is masked. -/
def State.aer (s : State) (e : AerError) (header : List Byte) : State :=
  if e = .corrected then s.aerCorrectable e.bit
  else
    let a := s.host.aer
    let free := match a.first with | some b => !a.uncStatus.getLsbD b | none => true
    let log := free && !a.uncMask.getLsbD e.bit
    let s := { s with host := { s.host with aer :=
      { a with uncStatus := a.uncStatus ||| BitVec.ofNat 32 (2 ^ e.bit), first := if log then some e.bit else a.first
               headerLog := if log then header else a.headerLog } } }
    if e.advisory && !a.uncSeverity.getLsbD e.bit then (if a.uncMask.getLsbD e.bit then s else s.aerCorrectable 13)
    else if a.uncMask.getLsbD e.bit then s
    else s.errMessage (if a.uncSeverity.getLsbD e.bit then "ERR_FATAL" else "ERR_NONFATAL") e.bit

/-- Sixteen bytes of a header that no command carries: free values (log 10). -/
def State.freeHeader (s : State) : List Byte := (List.range 4).flatMap (fun i => le 4 (Config.free (s.nonce + i)).toNat)

/-- Reports an error of a request whose header no command carries. -/
def State.aerFree (s : State) (e : AerError) : State :=
  let h := s.freeHeader
  ({ s with nonce := s.nonce + 4 }).aer e h

/-- The header of a memory request with a 64-bit address (PCI Express, non-Flit layout): format and type, length in words, requester, tag,
and the bus address, which is BAR2's and the offset. -/
def HostReq.header (s : State) (r : HostReq) : List Byte :=
  let words := ((r.addr.toNat + Nat.max 1 r.len + 3) / 4 - r.addr.toNat / 4) % 1024
  let a := s.host.bar2.toNat + r.addr.toNat / 4 * 4
  [BitVec.ofNat 8 (if r.write then 0x60 else 0x20), 0, BitVec.ofNat 8 (words / 256), BitVec.ofNat 8 words]
    ++ (le 2 Config.requesterId.toNat).reverse ++ [BitVec.ofNat 8 r.tag.toNat, 0xFF] ++ (le 8 a).reverse

end Sys2Proof.Machine
end

