-- ==== Sys2Proof/Machine/CtxTable.lean ====
section
/-! DEFINITION. The context table's entries and records (R299), and what the commands over runs of leaves and granules do to
them: UNMAP_RANGE, ZERO_RANGE, unbinding, the crypto-erase (R304, R305, R312, R343). -/

namespace Sys2Proof.Machine

/-! ### Entries (Table 9.1) -/

def KeyState.code (k : KeyState) : Nat := match k with | .none => 0 | .empty => 1 | .loaded => 2 | .destroyed => 3

/-- BUSY: a context or key command runs on the context (R306). CTX_QUERY only reads the entry and is not counted as one (DESIGN CHOICE,
log 76). -/
def State.ctxBusy (s : State) (c : Nat) : Bool :=
  s.cmdq.cmds.any (fun x => decide (0x10 ≤ x.opcode) && decide (x.opcode ≤ 0x15) && x.opcode != 0x13 && x.step != CmdStep.fetched
    && x.pkt.u 4 2 == c)

/-- Bits [30:24] of word 0. -/
def Ctx.attr (x : Ctx) : Nat :=
  x.cls.toNat * 2 ^ 29 + flag x.ticket * 2 ^ 28 + flag x.wt * 2 ^ 27 + flag x.rdOnly * 2 ^ 26 + flag x.zeroOnUnmap * 2 ^ 25 + flag x.enc * 2 ^ 24

/-- Word 0 of an entry, without BUSY. -/
def Ctx.word0 (x : Ctx) : Nat := flag x.valid * 2 ^ 31 + x.attr + x.key.code * 2 ^ 22 + flag x.sweep * 2 ^ 20

/-- The 32 bytes of a context's entry. -/
def State.ctxEntry (s : State) (c : Nat) : List Byte :=
  let x := s.ctx c
  le 4 (x.word0 + flag (s.ctxBusy c) * 2 ^ 21) ++ le 4 (s.granules c) ++ le 4 (s.pinnedOf c) ++ le 4 x.generation ++ le 4 x.late
    ++ le 4 x.poison ++ le 4 (x.refused * 2 ^ 16) ++ zeros 4

/-- The attributes of bits [30:24] of an ATTR word. -/
def Ctx.withAttr (x : Ctx) (v : Nat) : Ctx :=
  { x with cls := BitVec.ofNat 2 (bits v 29 2), ticket := bit v 28, wt := bit v 27, rdOnly := bit v 26, zeroOnUnmap := bit v 25, enc := bit v 24 }

/-- The payload of record 0x1000 + c: words 0 and 3 of the entry (R299). The layout is the model's (log 25). -/
def Ctx.bytes (x : Ctx) : List Byte := le 4 x.word0 ++ le 4 x.generation

/-- A context as its record restores it: the counters start at 0 (R299). -/
def Ctx.ofBytes (b : List Byte) : Ctx :=
  let w := ofLe (b.take 4)
  let key := match bits w 22 2 with | 0 => KeyState.none | 1 => KeyState.empty | 2 => KeyState.loaded | _ => KeyState.destroyed
  { Ctx.init.withAttr w with valid := bit w 31, key := key, sweep := bit w 20, generation := ofLe ((b.drop 4).take 4) }

def State.saveCtx (s : State) (c : Nat) : State := s.save (recCtx0 + c) (s.ctx c).bytes

/-- Sets a context's entry and writes its record. -/
def State.storeCtx (s : State) (c : Nat) (x : Ctx) : State := (s.setCtx c x).saveCtx c

/-! ### Runs of leaves (R305, R312, R343) -/

/-- Drops every line of a run, dirty or locked, without write-back. -/
def State.dropRun (s : State) (first n : Nat) : State :=
  ((s.cache.lines.filter (fun (e : Nat × Line) => decide (first ≤ e.2.leaf) && decide (e.2.leaf < first + n))).map (fun e => e.1)).foldl State.dropLine s

/-- Sets a run of leaves inside one granule UNMAPPED or ZERO (R343): lines drop, poison and hole-list entries end. -/
def State.clearRun (s : State) (zero : Bool) (first n : Nat) : State :=
  (((s.dropRun first n).leafState (if zero then .zero else .unmapped) first n 0 false).leaveHoles first n).checkSpace

/-- Unbinds a granule (R305): lines drop, leaves leave the map and the hole list, the segment and its pins go. -/
def State.unbindGranule (s : State) (g : Nat) : State :=
  let c := (s.entry g).ctx
  let s := (s.dropRun (g * 4096) 4096).voidWritebacks (g * 4096) 4096
  let s := if (s.entry g).st = .absent then s else s.bringIn g
  let ls : List LeafEntry := match s.segSlot g with | some sl => sl.leaves.map (fun e => e.2) | none => []
  let s := (ls.foldl State.unmapOld s).leaveHoles (g * 4096) 4096
  let s := (s.dropSegment g s.nextRseq).setEntry g DirEntry.unbound
  (s.setXlat { s.xlat with pins := s.xlat.pins.filter (fun x => x != g) }).append (.granule 1 c g 1)

/-- Binds a granule to a context: ABSENT, pinned when the class pins it (R180, R301, R304). Leaf records older than the GRANULE record do not
reach it (R197). -/
def State.bindGranule (s : State) (c g : Nat) : State :=
  (s.setXlat { s.xlat with segTable := Tab.put s.xlat.segTable g (0, s.nextRseq) }).setEntry g { ctx := BitVec.ofNat 12 c, st := .absent, pinned := (s.ctx c).cls != 2#2, dirty := false, loc := 0 }

/-- The granules of a run. -/
def granuleRun (first n : Nat) : List Nat := (List.range n).map (fun i => first + i)

/-- Whether the directory line of some granule of a run is being rebuilt: map updates there are held (R175). -/
def State.heldRun (s : State) (first n : Nat) : Bool :=
  s.xlat.badLines.any (fun l => decide (first / 8 ≤ l) && decide (0 < n) && decide (l ≤ (first + n - 1) / 8))

/-- Binds a run, with its GRANULE record (R304). -/
def State.bindRun (s : State) (c first n : Nat) : State :=
  if n = 0 then s else ((granuleRun first n).foldl (fun s g => s.bindGranule c g) s).append (.granule 0 (BitVec.ofNat 12 c) first n)

/-- Pins a run by command, with its GRANULE record (R180, R186). -/
def State.pinRun (s : State) (c first n : Nat) : State :=
  let gs := granuleRun first n
  let s := s.setXlat { s.xlat with pins := (s.xlat.pins ++ gs).dedup }
  (gs.foldl (fun s g => s.pin g true) s).append (.granule 2 (BitVec.ofNat 12 c) first n)

/-- Takes the command pins of a run away, with its GRANULE record; pins of the class stay (R180, R186). -/
def State.unpinRun (s : State) (c first n : Nat) : State :=
  let s := s.setXlat { s.xlat with pins := s.xlat.pins.filter (fun g => decide (g < first) || decide (first + n ≤ g)) }
  ((granuleRun first n).foldl (fun s g => s.pin g ((s.ctx c).cls != 2#2)) s).append (.granule 3 (BitVec.ofNat 12 c) first n)

/-- The granules bound to a context. -/
def State.granulesOf (s : State) (c : Nat) : List Nat :=
  (s.xlat.dir.filter (fun e => e.2.bound && e.2.ctx.toNat == c)).map (fun e => e.1)

/-- Poisons every leaf of a granule without a hole-list record (R312 step 6). -/
def State.sweepGranule (s : State) (g : Nat) : State :=
  ((s.leafState .poisoned (g * 4096) 4096 0 false).leaveHoles (g * 4096) 4096).checkSpace

/-- Poisons every leaf of a context's granules (R312 step 6), and clears SWEEP. -/
def State.sweepCtx (s : State) (c : Nat) : State :=
  let s := (s.granulesOf c).foldl State.sweepGranule s
  s.storeCtx c { s.ctx c with sweep := false }

/-- Erases a LOADED key (R312 steps 2 and 3). -/
def State.destroyKey (s : State) (c : Nat) : State :=
  let s := s.erase [recKey0 + c]
  s.storeCtx c { s.ctx c with key := .destroyed, sweep := true }

/-- The leader's mailbox granule is gone, or its context was crypto-erased (Table 9.10). -/
def State.checkMailbox (s : State) : State :=
  let g := s.harness.mailbox / 2 ^ 24
  let e := s.entry g
  if s.harness.role.getLsbD 1 && !s.harness.mailboxLost && (!e.bound || (s.ctx e.ctx.toNat).key == KeyState.destroyed) then
    ({ s with harness := { s.harness with mailboxLost := true } }).event portCore 0x0904 s.devicePath (le 8 s.harness.mailbox)
  else s

/-! ### Progress of commands over runs -/

/-- The first leaf of [first, last] that a tack holds, `last + 1` when none does; `first` itself is held only by tacks born before
`serial`, at which the tack that asks was born on it (R21). -/
def State.firstHeld (s : State) (first last serial : Nat) : Nat :=
  ((s.tacks.filter (fun (e : Nat × Tack) => e.2.holdsLine && (e.2.leaf.toNat != first || decide (e.2.serial < serial)))).map
    (fun e => e.2.leaf.toNat)).foldl (fun m l => if first ≤ l ∧ l < m then l else m) (last + 1)

/-- UNMAP_RANGE and ZERO_RANGE take leaves in ascending order up to the first that a tack holds, granule by granule, each once its segment
is in the cache and no rebuild holds its line (R171, R175, R181): the state and the next leaf. The tack on the first leaf was born at
`serial`. A ZERO_RANGE stops when READ_ONLY sets (R344). -/
def State.clearLeaves (s : State) (zero : Bool) (first last serial fuel : Nat) : State × Nat :=
  match fuel with
  | 0 => (s, first)
  | n + 1 =>
    if last < first ∨ (zero = true ∧ s.dev.readOnly = true) then (s, first)
    else
      let stop := Nat.min last (granuleOf first * 4096 + 4095)
      let upto := s.firstHeld first stop serial
      if upto = first ∨ (if zero then s.updatable (granuleOf first) else s.reachable (granuleOf first)) = false then (s, first)
      else if upto ≤ stop then (s.clearRun zero first (upto - first), upto)
      else (s.clearRun zero first (stop + 1 - first)).clearLeaves zero (stop + 1) last s.serial n

/-- The engine tack with which a command over leaves takes them (R343), with its slot. Between two stops one tack stands for the
tacks of the leaves it takes (log 67). -/
def State.runTack (s : State) (id : Nat) : Option (Nat × Tack) :=
  s.tacks.find? (fun e => e.2.op == .lineOp && e.2.origin == .engine engDiag && e.2.owner == some id)

/-- The engine tack of a command on leaf `first`: the one it has, or a new one when a slot is free (R19). -/
def State.needRunTack (s : State) (id first : Nat) : State × Option (Nat × Tack) :=
  match s.runTack id with
  | some x => (s, some x)
  | none =>
    let t := Tack.of .lineOp (.engine engDiag) 3 first
    match s.birth { t with wait := .leaf, owner := some id } none with
    | (s, some k) => (s, (Tab.find s.tacks k).map (fun t => (k, t)))
    | (s, none) => (s, none)

/-- The engine tack of a command retires. -/
def State.endRunTack (s : State) (id : Nat) : State :=
  match s.runTack id with | some (k, _) => s.retire k | none => s

/-- Unbinds granules in order, up to the first that a tack holds. -/
def State.unbindRun (s : State) (gs : List Nat) : State × List Nat :=
  match gs with
  | [] => (s, [])
  | g :: r => if s.firstHeld (g * 4096) (g * 4096 + 4095) s.serial ≤ g * 4096 + 4095 ∨ s.reachable g = false then (s, gs) else (s.unbindGranule g).unbindRun r

/-- The RSEQ of the last record appended. -/
def State.lastRseq (s : State) : Nat := s.nextRseq - 1

/-- Takes a command over leaves or granules as far as it can go; then it waits for the commit of its last record. -/
def State.stepRunCommand (s : State) (c : Cmd) : State :=
  let ctx := c.pkt.u 4 2 % 4096
  match c.step with
  | .leaves zero first last =>
    match s.needRunTack c.id first with
    | (s, none) => s
    | (s, some (_, t)) =>
      let (s, next) := s.clearLeaves zero first last t.serial (last / 4096 - first / 4096 + 1)
      let done := c.done + (next - first)
      let s := if next = first ∧ ¬ (zero ∧ s.dev.readOnly = true) then s else s.endRunTack c.id
      if last < next then s.updCmd c.id (fun x => { x with done := done, step := .journal s.lastRseq })
      else if zero ∧ s.dev.readOnly = true then s.finish { c with done := done } stReadOnly 0 (some (le 8 done))
      else ((s.needRunTack c.id next).1).updCmd c.id (fun x => { x with done := done, step := .leaves zero next last })
  | .unbind gs =>
    let (s, rest) := s.unbindRun gs
    match rest with
    | [] =>
      let s := if c.opcode = 0x12 then s.storeCtx ctx { s.ctx ctx with valid := false, sweep := false } else s
      s.checkMailbox.updCmd c.id (fun x => { x with step := .journal s.lastRseq })
    | _ => s.updCmd c.id (fun x => { x with step := .unbind rest })
  | .sweep serial =>
    if s.tacks.any (fun e => e.2.origin.ctx? == some ctx && decide (e.2.serial < serial)) then s
    else
      let ks := (s.cache.lines.filter (fun e => e.2.ctx.toNat == ctx)).map (fun e => e.1)
      (ks.foldl State.dropLine s).updCmd c.id (fun x => { x with step := .poison (s.granulesOf ctx) })
  | .poison gs =>
    match gs with
    | [] =>
      let s := s.storeCtx ctx { s.ctx ctx with sweep := false }
      s.checkMailbox.updCmd c.id (fun x => { x with step := .journal s.lastRseq })
    | g :: rest =>
      if s.updatable g then (s.sweepGranule g).updCmd c.id (fun x => { x with step := .poison rest }) else s
  | .held first n =>
    if s.heldRun first n then s
    else match c.opcode with
      | 0x33 => (s.pinRun ctx first n).updCmd c.id (fun x => { x with step := .segments (granuleRun first n) })
      | 0x34 => (s.unpinRun ctx first n).finish c stSuccess 0 none
      | _ => (s.bindRun ctx first n).updCmd c.id (fun x => { x with step := .journal (s.bindRun ctx first n).lastRseq })
  | _ => s

/-- The segments that commands over runs and pins wait for (R180, R181). -/
def State.segmentsWanted (s : State) : List Nat :=
  (s.cmdq.cmds.filterMap (fun c => match c.step with
    | .leaves _ first _ => some (granuleOf first)
    | .unbind (g :: _) | .poison (g :: _) => some g
    | _ => none)) ++ s.cmdq.cmds.flatMap (fun c => match c.step with | .segments gs => gs | _ => []) ++ s.xlat.queue.map (fun i => granuleOf i.leaf)
    ++ (s.xlat.dir.filter (fun e => e.2.pinned && e.2.st == .inMedia)).map (fun e => e.1)

/-- The command that wants a segment, if one does. -/
def State.segmentCmd (s : State) (g : Nat) : Option Nat :=
  (s.cmdq.cmds.find? (fun c => match c.step with
    | .leaves _ first _ => granuleOf first == g
    | .unbind (x :: _) | .poison (x :: _) => x == g
    | .segments gs => gs.contains g
    | _ => false)).map (fun c => c.id)

/-- Every such command goes as far as it can, where the map is up. -/
def State.stepRunCommands (s : State) : State :=
  if s.dev.state = .serving ∨ s.dev.state = .maintenance then s.cmdq.cmds.foldl State.stepRunCommand s else s

end Sys2Proof.Machine
end

