-- ==== Sys2Proof/Machine/Access.lean ====
section
/-! DEFINITION. Host accesses: the pieces of a request, their way through directory, line cache and segment cache
(Table 1.7, R243), their completions (R284), and the progress of every tack that waits. -/

namespace Sys2Proof.Machine

/-! ### Requests and pieces -/

/-- The leaf of a host address. -/
def leafOf (a : Nat) : Nat := a / 4096

/-- The leaves that a request touches, in ascending order; a request without bytes touches that of its address. -/
def HostReq.leaves (r : HostReq) : List Nat :=
  let a := r.addr.toNat
  (List.range (leafOf (a + (r.len - 1)) - leafOf a + 1)).map (fun i => leafOf a + i)

/-- The part of a request in one leaf. -/
def HostReq.piece (r : HostReq) (leaf : Nat) : HostReq :=
  let a := r.addr.toNat
  let lo := Nat.max a (leaf * 4096)
  let hi := Nat.min (a + r.len) (leaf * 4096 + 4096)
  { r with addr := BitVec.ofNat 46 lo, len := hi - lo, data := (r.data.drop (lo - a)).take (hi - lo) }

/-- The granules of a request. -/
def HostReq.granules (r : HostReq) : List Nat := (r.leaves.map granuleOf).dedup

def State.anyUnbound (s : State) (r : HostReq) : Bool := r.granules.any (fun g => !(s.entry g).bound)
def State.heldLine (s : State) (r : HostReq) : Option Nat := (r.granules.map lineOf).find? (fun l => s.lineHeld l)

/-- Whether a context refuses writes: RD_ONLY, or a key that is EMPTY or DESTROYED (R302, R308). -/
def Ctx.refuses (c : Ctx) : Bool := c.rdOnly || c.key == .empty || c.key == .destroyed

/-- The contexts of a request that refuse writes. -/
def State.refusing (s : State) (r : HostReq) : List Nat :=
  ((r.granules.map (fun g => (s.entry g).ctx.toNat)).dedup).filter (fun c => (s.ctx c).refuses)

/-! ### Completions (R284, R291) -/

/-- The completions of bytes from `a`: cut at 64-byte boundaries as the Max Payload Size makes necessary (R284). -/
def chunks (mps a : Nat) (bs : List Byte) (fuel : Nat) : List (List Byte) :=
  match fuel with
  | 0 => [bs]
  | f + 1 =>
    let n := (a + mps) / 64 * 64 - a
    if bs.length ≤ mps ∨ n = 0 then [bs] else bs.take n :: chunks mps (a + n) (bs.drop n) f

/-- What answers a read with bytes: a completion, or CXL.mem data with MetaField No-Op (R284, R292). -/
def HostReq.answer (r : HostReq) (poison : Bool) (bs : List Byte) : Out :=
  if r.cxl then .cxlData r.tag.toNat poison "No-Op" bs else .cpl r.tag.toNat (if poison then .poisoned else .success) bs

/-- Sends the bytes of a read piece; a poisoned piece is sent as zero bytes with EP set, and counted (R284, R299). -/
def State.sendPiece (s : State) (r : HostReq) (c : Nat) (tag : Tag) (bs : List Byte) : State :=
  let bs := if r.poison then zeros r.len else bs
  let parts := chunks s.host.mps r.addr.toNat bs (bs.length / 64 + 2)
  let s := parts.foldl (fun s p => s.emit (r.answer r.poison p)) s
  if r.poison then
    let s := (s.bump rHpPoison 0 32 parts.length).count 0x0F tag
    s.updCtx c (fun x => { x with poison := satAdd 0xFFFFFFFF x.poison 1 })
  else s

/-- Host-read tacks of a request, by tag, with the slots that hold them in birth order. -/
def State.readsOf (s : State) (tag : BitVec 14) : List (Nat × Tack) :=
  sortBy (fun a b => decide (a.2.serial < b.2.serial)) (s.tacks.filter (fun e =>
    e.2.op == .hostRead && !e.2.draining && (match e.2.req with | some r => r.tag == tag | none => false)))

/-- Whether a piece of a read has not passed the directory stage: none of the read's bytes is sent before, since an unbound granule
fails it whole (R283). -/
def Tack.atDirectory (t : Tack) : Bool := match t.wait with | .dirLine _ => true | _ => false

/-- Sends the pieces of a request that are ready, as far as no earlier one is missing (R281). -/
def State.sendReady (s : State) (ps : List (Nat × Tack)) : State :=
  match ps with
  | [] => s
  | (k, t) :: rest =>
    if t.wait ≠ .order then s
    else match t.req with
      | some r =>
        let s := s.sendPiece r t.origin.code (t.tag (some (t.media.toNat / 2 ^ 29))) r.data
        (s.retire k).sendReady rest
      | none => s

/-- Counts a host read that was outside the conditions of R149. "Reads outside these conditions" is taken as the bound conditions, not
the narrower ones of the six-nines figures (DESIGN CHOICE, log 73). -/
def State.countOutside (s : State) (t : Tack) : State :=
  if !t.outside then s
  else if t.cls = 1 then s.bump rDriftOutside1 0 32 1
  else if t.cls = 2 then s.bump rDriftOutside2 0 32 1
  else s

/-- Whether a read waits for an earlier write-through write of its context to be media-committed: one whose commit is awaited, or one
that has not merged yet (R249, R285). -/
def State.wtHeld (s : State) (t : Tack) : Bool :=
  s.cache.commits.any (fun x => x.owner == .write && t.origin == .ctx x.ctx && decide (x.serial < t.serial))
    || s.tacks.any (fun e => e.2.op == .hostWrite && e.2.origin == t.origin && decide (e.2.serial < t.serial) && s.actsWt (e.2.flag fWT))

/-- The pieces of a read that have their bytes complete in order (R281). -/
def State.complete (s : State) (k : Nat) : State :=
  let s := s.updTack k (fun t => { t with wait := .order })
  match Tab.find s.tacks k with
  | some t =>
    match t.req with
    | some r => if (s.readsOf r.tag).any (fun e => e.2.atDirectory) then s.countOutside t else (s.countOutside t).sendReady (s.readsOf r.tag)
    | none => s
  | none => s

/-- A read piece has its bytes, or is poisoned. It has finished with its line; its completion waits for the earlier write-through writes
of its context, and lies outside the bound conditions then (R149, R249). -/
def State.deliver (s : State) (k : Nat) (bs : List Byte) (poison : Bool) : State :=
  let s := s.updTack k (fun t =>
    let t := if poison then t.setFlag fPoison else t
    { t with rd := none, req := t.req.map (fun r => { r with data := bs, poison := poison }) })
  match Tab.find s.tacks k with
  | some t => if s.wtHeld t then s.updTack k (fun t => { t with wait := .commit, outside := true }) else s.complete k
  | none => s

/-- A read whose completion waits for media commits completes once they have come. -/
def State.tryComplete (s : State) (k : Nat) : State :=
  match Tab.find s.tacks k with
  | some t => if s.wtHeld t then s else s.complete k
  | none => s

/-- Completes a whole read with an error status; its tacks retire (R283). -/
def State.failRead (s : State) (r : HostReq) (st : CplStatus) : State :=
  let s := (s.readsOf r.tag).foldl (fun s e => s.retire e.1) s
  let s := if r.cxl then s.emit (r.answer true (zeros r.len)) else s.emit (.cpl r.tag.toNat st [])
  let s := if r.cxl then s.bump rHpPoison 0 32 1 else s
  if r.cxl then s else s.aer (if st = .abort then .abort else .unsupported) (r.header s)

/-! ### Media reads -/

/-- Queues a media read of a codeword for its die (Table 1.7 stage 7). -/
def Tack.reads (t : Tack) (a : MediaAddr) : Tack :=
  { t with wait := .none, media := a, retry := 0
           rd := some { addr := a, phase := .queued, hist := false, histTaken := none, noAge := false, repeats := 0, waited := false
                        ctx := match t.origin with | .ctx c => c | .engine _ => 0, leaf := t.leaf, rest := [], members := [], lost := 0 } }

/-- The segment that a SEG_READ reads. -/
def Tack.segment? (t : Tack) : Option Nat := match t.op, t.wait with | .segRead, .segment g => some g | _, _ => none

/-- Whether a host tack waits on the segment of a SEG_READ (R95, R140). -/
def State.hostAwaits (s : State) (t : Tack) : Bool :=
  match t.segment? with
  | some g => s.tacks.any (fun e => (e.2.op == .hostRead || e.2.op == .hostWrite) && e.2.wait == .segment g)
  | none => false

/-- The suspend settings of a channel (R87, Tables 2.19, 2.24): whether a requester suspends, and HR1_RESERVE. -/
def State.suspPolicy (s : State) (ch code : Nat) : Bool × Nat :=
  if bit (s.reg (rChCtrl ch)) 3 then
    let v := s.reg (rChSusp ch)
    ((match code with | 0 => bit v 0 | 1 => bit v 1 | 2 => bit v 2 | 9 => bit v 3 | _ => false), bits v 4 4)
  else if s.field rMediaCtrl 0 2 = 0 then (decide (code ≤ 2), 4)
  else (code == 0, 0)

/-- Whether a read meets, for now, the conditions of R149 on its channel. -/
def State.inBounds (s : State) (t : Tack) (ch : Nat) : Bool :=
  let a := s.arbOf ch
  (s.dev.state == .serving || s.dev.state == .maintenance) &&
    (if t.cls = 1 then !a.unbound && !a.boundOff && (s.suspPolicy ch 0).1 else (s.suspPolicy ch 1).1 && (s.suspPolicy ch 2).1)

/-- Marks the host reads whose own reads, or the SEG_READs they wait on, meet a condition that R149 excludes. -/
def State.markReads (s : State) (p : Tack → MediaRead → Bool) : State :=
  let hit := fun (t : Tack) => match t.rd with | some r => p t r | none => false
  let segs := (s.tacks.filter (fun e => hit e.2)).filterMap (fun e => e.2.segment?)
  { s with tacks := s.tacks.map (fun e =>
      if hit e.2 || (e.2.op == .hostRead && segs.any (fun g => e.2.wait == .segment g)) then (e.1, { e.2 with outside := true }) else e) }

def State.markOutside (s : State) (p : MediaRead → Bool) : State := s.markReads (fun _ r => p r)

/-- A write of the suspend settings: reads that no longer meet the conditions of R149 are marked. -/
def State.rejudge (s : State) : State := s.markReads (fun t r => !s.inBounds t (chanOf r.addr))

/-- Every read that is outstanding, born or not, is outside the conditions of R149: DEV_STATE leaves SERVING, or an activation pauses. -/
def State.markAll (s : State) : State :=
  { s with tacks := s.tacks.map (fun (e : Nat × Tack) => if e.2.op = .hostRead then (e.1, { e.2 with outside := true }) else e)
           cache := { s.cache with requests := s.cache.requests.map (fun (r : HostReq) => { r with outside := true }) } }

/-- The host reads that wait for a segment whose SEG_READ met a condition that R149 excludes. -/
def State.markSegment (s : State) (g : Nat) (out : Bool) : State :=
  if !out then s
  else { s with tacks := s.tacks.map (fun (e : Nat × Tack) =>
    if e.2.op = .hostRead ∧ e.2.wait = .segment g then (e.1, { e.2 with outside := true }) else e) }

/-- An activation pause ends: the reads that were outstanding during it are outside the conditions of R149. -/
def State.endPause (s : State) : State :=
  if !s.cache.pause then s else { s.markAll with cache := { s.markAll.cache with pause := false } }

/-- Whether a media read that begins now is outside the conditions of R149 from the start: the settings of its channel, its channel
retrains, its die is being initialised anew, or another page's sense is queued, runs or is held ready on its die. -/
def State.startsOutside (s : State) (t : Tack) (a : MediaAddr) : Bool :=
  !s.inBounds t (chanOf a) || (s.chan (chanOf a)).st == .retraining || (s.ctlOf (dieOf a)).reinit.isSome
    || s.tacks.any (fun e => match e.2.rd with
        | some r => dieOf r.addr == dieOf a && r.addr.toNat / 8 % 2 ^ 21 != a.toNat / 8 % 2 ^ 21 && (r.phase == .queued || r.phase == .sensing || r.phase == .ready)
        | none => false)

/-- A tack begins its media read (Table 1.7 stage 7). One whose address is invalid is never issued: the tack retires (R47), and a
host read of it receives poison. -/
def State.beginRead (s : State) (k : Nat) (a : MediaAddr) (lost : State → State) : State :=
  if !validAddr a.toNat then lost s
  else
    match Tab.find s.tacks k with
    | some t => (s.setTack k { (t.reads a) with outside := t.outside || s.startsOutside t a }).count 0x05 (t.tag (some (chanOf a)))
    | none => s

/-- The flags that a tack takes from its leaf's context (Table 1.5): WT and ENC. -/
def Tack.withCtx (t : Tack) (x : Ctx) : Tack :=
  let t := if x.wt then t.setFlag fWT else t
  if x.enc then t.setFlag fEnc else t

/-- Spawns the SECTOR_FILL child of a tack (R243): it draws as its parent's ticket class, or as WB. -/
def State.spawnFill (s : State) (k : Nat) (t : Tack) (a : MediaAddr) (ctx : BitVec 12) : State :=
  let c := s.ctx ctx.toNat
  let rein := if t.op = .leafWriteback then Rein.wb else if c.ticket then Rein.hr2 else Rein.hr1
  let child := ((Tack.of .sectorFill (.ctx ctx) t.cls t.leaf.toNat).setFlag fChild).withCtx c
  let child := { child.reads a with rein := some rein, parent := some k }
  match s.birth child (some (chanOf a)) with
  | (s, some _) => (s.updTack k (fun t => { t with wait := .fill })).count 0x05 (t.tag (some (chanOf a)))
  | (s, none) => s

/-- Spawns the one SEG_READ of a segment into a slot that is LOADING, unless one runs (R179, R181): it reads the eight codewords of the primary, one after the other.
A read that serves a host tack counts as a miss; `cmd` is the command that one is born for. -/
def State.spawnSegRead (s : State) (g : Nat) (host : Bool) (parent : Option Nat) (cmd : Option Nat := none) : State :=
  if s.tacks.any (fun e => e.2.segment? == some g && !e.2.draining) then s
  else
    match s.segRoom g with
    | (_, none) => s
    | (s, some slot) =>
    let a := (s.entry g).loc
    let sl : SegSlot := { index := g, st := .loading, firstDirty := none, imageRseq := 0, primary := a, mirror := 0, leaves := [] }
    let t := (Tack.engine .segRead engSegment (pageOfAddr a.toNat) true).reads a
    let t := { t with parent := parent, wait := .segment g, owner := cmd, outside := s.startsOutside t a
                      rd := t.rd.map (fun r => { r with rest := (List.range 7).map (fun i => a + BitVec.ofNat 36 (i + 1)) }) }
    let t := if parent.isSome then t.setFlag fChild else t
    match s.birth t (some (chanOf a)) with
    | (s, some _) =>
      let s := s.setXlat { s.xlat with slots := Tab.put s.xlat.slots slot sl }
      if host then (s.bump rXlatSegMisses 0 32 1).count 0x06 (t.tag (some (chanOf a))) else s
    | (s, none) => s

/-- Drops the line of a leaf that just became POISONED when it holds nothing dirty. -/
def State.dropStale (s : State) (leaf : Nat) : State :=
  match s.lineAt leaf with
  | some (w, l) => if l.isDirty || l.wbBusy then s else s.dropLine w
  | none => s

/-- Leaves that wait to be POISONED: those whose segments are there become so, and the other segments are read (R143, R181). -/
def State.poisonDue (s : State) : State :=
  s.xlat.poisons.foldl (fun s p =>
    let (leaf, reason, at') := p
    let g := granuleOf leaf
    if s.updatable g then
      let s := s.setXlat { s.xlat with poisons := s.xlat.poisons.filter (fun x => x.1 != leaf) }
      (s.poisonLeaf leaf reason at').dropStale leaf
    else if s.lineHeld (lineOf g) then s
    else s.spawnSegRead g false none) s

/-- The map updater reads the segments that its changes wait for (R171, R181). -/
def State.updaterReads (s : State) : State :=
  if s.dev.state = .serving ∨ s.dev.state = .maintenance ∨ s.dev.state = .cinch then
    ((s.segmentsWanted.filter (fun g => (s.entry g).st == .inMedia && !s.lineHeld (lineOf g))).dedup).foldl
      (fun s g => s.spawnSegRead g false none (s.segmentCmd g)) s
  else s

/-- A tack waits for its segment, which is read when no read of it runs. -/
def State.awaitSegment (s : State) (k g : Nat) (host : Bool) : State :=
  (s.spawnSegRead g host (some k)).updTack k (fun t => { t with wait := .segment g })

/-! ### One piece of a read (Table 1.7, R243) -/

/-- The attributes a tack takes from its context at the directory stage (R14, R300, Table 1.5). -/
def Tack.direct (t : Tack) (c : BitVec 12) (x : Ctx) : Tack :=
  let t : Tack := { t with origin := .ctx c, cls := x.cls, rein := if t.op = .hostRead then some (if x.ticket then Rein.hr2 else Rein.hr1) else t.rein
                           deadline := deadlineOf x.cls.toNat }
  t.withCtx x

/-- An uncorrectable sector of a resident line, found by whoever reads it (R245): a clean one loses its VALID, a dirty one loses the
leaf. -/
def State.sectorLost (s : State) (leaf sector tackId : Nat) : State :=
  match s.lineAt leaf with
  | none => s
  | some (k, l) =>
    if l.dirty.getLsbD sector then
      let s := ((s.dropLine k).voidWritebacks leaf 1).poisonLeaf leaf 4
      (s.bump rCacheUncorr 0 32 1).event portCache 0x0701 s.devicePath (le 5 leaf ++ le 1 sector) tackId
    else s.setLine k { l with valid := l.valid &&& ~~~sectors sector (sector + 1), bad := l.bad &&& ~~~sectors sector (sector + 1) }

/-- Whether the sector code corrects a number of erroneous bytes: any 2 of the 72 (R244). -/
def correctable (n : Nat) : Bool := decide (n ≤ 2)

/-- The sectors of `m` whose stored bytes cannot be corrected are met, the lowest first (R245); true when one of them was dirty, so that
the line is gone. -/
def State.meetBad (s : State) (leaf : Nat) (m : BitVec 64) (tack : Nat) : State × Bool :=
  (List.range 64).foldl (fun (a : State × Bool) i =>
    match a.1.lineAt leaf with
    | some (_, l) => if !a.2 && m.getLsbD i && l.bad.getLsbD i then (a.1.sectorLost leaf i tack, l.dirty.getLsbD i) else a
    | none => a) (s, false)

/-- Sectors of resident lines that can no longer be corrected (R245). -/
def State.strike (s : State) (xs : List (BitVec 34 × Fin 64)) : State :=
  xs.foldl (fun s x => match s.lineAt x.1.toNat with
    | some (w, l) => s.setLine w { l with bad := l.bad ||| sectors x.2.val (x.2.val + 1) }
    | none => s) s

/-- The storage faults that an access meets on the sectors `m` of its line, taken once: corrected sectors are counted (R244), and those
that cannot be corrected are met (R245). True when the access completes with poison. -/
def State.meetFaults (s : State) (k : Nat) (t : Tack) (ev : AccessEv) (m : BitVec 64) : State × Bool :=
  let leaf := t.leaf.toNat
  match s.lineAt leaf with
  | none => (s, false)
  | some (w, l) =>
    let s := s.bump rCacheCorr 0 32 (ev.sectors.filter (fun x => correctable x.2)).length
    let s := s.updTack k (fun t => { t with req := t.req.map (fun r => { r with ev := { ev with sectors := [] } }) })
    let worse := (ev.sectors.filter (fun x => !correctable x.2)).map (fun x => sectors x.1.val (x.1.val + 1))
    let new := worse.foldl (· ||| ·) 0
    if (l.bad ||| new) == 0#64 then (s, false)
    else (s.setLine w { l with bad := l.bad ||| new }).meetBad leaf (m ||| new) k

/-- Bytes [off, off + n) of a line. -/
def Line.bytes (l : Line) (off n : Nat) : List Byte := Memory.readBytes 0 l.data off n

/-- A read whose sectors are not all valid: formed without media, poisoned, or from the medium. -/
def State.readMiss (s : State) (k : Nat) (t : Tack) (r : HostReq) (e : DirEntry) (c : Ctx) (off : Nat) (blocked : Bool) : State :=
  let leaf := t.leaf.toNat
  match s.leafEntry leaf with
  | none => s.awaitSegment k (granuleOf leaf) true
  | some le =>
    match le.st with
    | .poisoned => s.deliver k [] true
    | .mapped =>
      if blocked then s.deliver k [] true
      else
        let start := fun (s : State) => s.beginRead k le.addr (fun s => s.deliver k [] true)
        match s.lineAt leaf with
        | some _ => start s
        | none =>
          match s.allocate leaf k with
          | (s, .way w) => start (s.setLine w (Line.empty leaf e.ctx c.wt))
          | (s, .victim w) => s.updTack k (fun t => { t with wait := .victim w })
          | (s, .none) => s.updTack k (fun t => { t with wait := .way })
    | st =>
      let byte := fun (_ : Nat) => unmappedByte st c.zeroOnUnmap
      let s := s.updTack k (fun t => t.setFlag fZero)
      match s.lineAt leaf with
      | some (w, l) => (s.setLine w (l.fill byte)).deliver k ((l.fill byte).bytes off r.len) false
      | none => s.deliver k ((List.range r.len).map byte) false

/-- Takes a read piece as far as it can go. One that has passed the directory stage goes on with the context it read there (R171). -/
def State.tryRead (s : State) (k : Nat) : State :=
  match Tab.find s.tacks k with
  | none => s
  | some t =>
    match t.req with
    | none => s
    | some r =>
      let leaf := t.leaf.toNat
      let g := granuleOf leaf
      let passed := match t.wait with | .dirLine _ => false | _ => true
      let e := if passed then { s.entry g with ctx := match t.origin with | .ctx x => x | .engine _ => (s.entry g).ctx } else s.entry g
      let c := s.ctx e.ctx.toNat
      let off := r.addr.toNat % 4096
      if !passed && s.lineHeld (lineOf g) then s
      else if !passed && !e.bound then s.failRead r .unsupported
      else
        let s := s.updTack k (fun t => if passed then t else { (t.direct e.ctx c) with wait := .leaf })
        if s.mustWait t then s.updTack k (fun t => { t with wait := .leaf })
        else if r.len = 0 then s.deliver k (zeros 4) false
        else
          let (s, lost) := s.meetFaults k t r.ev (touched off r.len)
          if lost then s.deliver k [] true
          else
            let blocked := c.key == .empty || c.key == .destroyed
            match s.lineAt leaf with
            | some (_, l) =>
              if l.poisoned || blocked then s.deliver k [] true
              else if (touched off r.len &&& ~~~l.valid) == 0#64 then
                let s := if s.cache.enabled then (s.updTack k (fun t => t.setFlag fHit)).count 0x04 (t.tag none) else s
                s.deliver k (l.bytes off r.len) false
              else s.readMiss k t r e c off blocked
            | none => s.readMiss k t r e c off blocked

/-! ### One piece of a write (R243, R248) -/

/-- The data bytes of a codeword, for a reader with a key; one that gives no codeword reads as any bytes (R72, log 11). -/
def State.cellByte (s : State) (c : Option Cell) (key : Option Nat) : Nat → Byte :=
  match Cell.decoded c key with
  | some (data, _, _) => fun i => Memory.read 0 data i
  | none => fun i => Config.rawByte s.nonce i

/-- The mapped version of a leaf on the medium. -/
def State.mediaBytes (s : State) (a : MediaAddr) : Nat → Byte := s.cellByte (s.cell a.toNat) none

/-- Waits for media commits that a merged write begins: of a write-through context, and of withheld credit (R249, R259,
R265). -/
def State.noteWrite (s : State) (t : Tack) (r : HostReq) (ctx : BitVec 12) : State :=
  let c : CommitFor → Commit := fun o => { serial := t.serial, ctx := ctx, leaf := t.leaf.toNat, snap := false, rseq := none, owner := o }
  let new := (if s.actsWt (t.flag fWT) then [c .write] else []) ++ (if s.cache.ceilFloored && r.posted then [c (.credit r.id r.whole r.cxl)] else [])
  s.setCache { s.cache with commits := s.cache.commits ++ new }

/-- The credit of a write whose pieces have all merged returns, unless it waits for their media commits (R243, R265). -/
def State.returnCredit (s : State) (r : HostReq) : State :=
  if !r.posted || s.tacks.any (fun e => e.2.op == .hostWrite && e.2.req.any (fun p => p.id == r.id)) || s.cache.commits.any (fun c => c.owner == .credit r.id r.whole r.cxl) then s
  else s.sendCredit r.whole r.cxl

/-- Step 4 of a cinch: credits freeze, and write-back of what is dirty follows (Table 7.8). -/
def State.acceptEnds (s : State) : State :=
  match s.power.cinch with
  | some x =>
    if x.step = .accept ∧ s.dev.state = .cinch then
      { s with cache := { s.cache with frozen := true }, power := { s.power with cinch := some { x with step := .writeback } } }
    else s
  | none => s

/-- Step 4 comes early when the dirty level reaches the ceiling (Table 7.8). -/
def State.acceptFull (s : State) : State :=
  if s.cache.ceiling * linesPerMib ≤ s.dirtyLines then s.acceptEnds else s

/-- Merges a write into its line, with the write policy that its tack took at the directory stage (R303); the line enters the dirty list,
the tack retires and the credit returns (R243). -/
def State.mergeWrite (s : State) (k w : Nat) (t : Tack) (r : HostReq) (l : Line) (off : Nat) : State :=
  let wt := t.flag fWT
  let s := (s.setLine w { (l.merge off r.data) with wt := wt }).listDirty w wt
  (((s.noteWrite t r l.ctx).retire k).returnCredit r).acceptFull

/-- The line a write merges into, when it is resident or can be placed; a POISONED leaf's is VALID and POISON (R248). -/
def State.placeLine (s : State) (k leaf : Nat) (ctx : BitVec 12) (c : Ctx) (poisoned : Bool) : State × Option (Nat × Line) :=
  match s.lineAt leaf with
  | some x => (s, some x)
  | none =>
    match s.allocate leaf k with
    | (s, .way w) =>
      let l := Line.empty leaf ctx c.wt
      let l := if poisoned then l.toPoison else l
      (s.setLine w l, some (w, l))
    | (s, .victim w) => (s.updTack k (fun t => { t with wait := .victim w }), none)
    | (s, .none) => (s.updTack k (fun t => { t with wait := .way }), none)

/-- Takes a write piece as far as it can go. From step 4 of a cinch none merges any more (Table 7.10). -/
def State.tryWrite (s : State) (k : Nat) : State :=
  match Tab.find s.tacks k with
  | none => s
  | some t =>
    match t.req with
    | none => s
    | some r =>
      let leaf := t.leaf.toNat
      let e := s.entry (granuleOf leaf)
      let c := s.ctx t.origin.code
      let off := r.addr.toNat % 4096
      let passed := match t.wait with | .dirLine _ => false | _ => true
      if (!passed && s.lineHeld (lineOf (granuleOf leaf))) || s.cache.frozen then s
      else if s.mustWait t then s.updTack k (fun t => { t with wait := .leaf })
      else
        let (s, _) := s.meetFaults k t r.ev (touched off r.len &&& ~~~covered off r.len)
        match s.leafEntry leaf with
        | none => s.awaitSegment k (granuleOf leaf) true
        | some le =>
          match s.placeLine k leaf (match t.origin with | .ctx x => x | .engine _ => e.ctx) c (le.st == LeafSt.poisoned) with
          | (s, none) => s
          | (s, some (w, l)) =>
            let part := touched off r.len &&& ~~~covered off r.len
            if (part &&& ~~~l.valid) == 0#64 then s.mergeWrite k w t r l off
            else match le.st with
              | .mapped => s.spawnFill k t le.addr l.ctx
              | .poisoned => s.mergeWrite k w t r l.toPoison off
              | st => s.mergeWrite k w t r (l.fill (fun _ => unmappedByte st c.zeroOnUnmap)) off

/-! ### Prefetches and LOCK (Table 7.6) -/

/-- Takes a PREFETCH tack as far as it can go: it allocates and fills an absent line. `lock` is set on its tack when LOCK
asked for it; then a leaf without media, or POISONED, gets its line too. -/
def State.tryPrefetch (s : State) (k : Nat) : State :=
  match Tab.find s.tacks k with
  | none => s
  | some t =>
    let leaf := t.leaf.toNat
    let e := s.entry (granuleOf leaf)
    let c := s.ctx e.ctx.toNat
    let lock := t.owner == some 1
    let s := s.updTack k (fun t => t.withCtx c)
    if s.lineHeld (lineOf (granuleOf leaf)) then s.updTack k (fun t => { t with wait := .dirLine (lineOf (granuleOf leaf)) })
    else if !e.bound then s.retire k
    else if s.mustWait t then s.updTack k (fun t => { t with wait := .leaf })
    else match s.leafEntry leaf with
      | none => s.awaitSegment k (granuleOf leaf) false
      | some le =>
        if le.st = .poisoned ∧ ¬ lock ∧ (s.lineAt leaf).isNone then s.retire k
        else match s.placeLine k leaf e.ctx c (le.st == LeafSt.poisoned) with
          | (s, none) => s
          | (s, some (w, l)) =>
            let s := if lock then s.setLine w { l with locked := true } else s
            let l := { l with locked := l.locked || lock }
            if l.full then s.retire k
            else match le.st with
              | .mapped => s.beginRead k le.addr (fun s => s.retire k)
              | .poisoned => (s.setLine w l.toPoison).retire k
              | st => (s.setLine w (l.fill (fun _ => unmappedByte st c.zeroOnUnmap))).retire k

/-! ### Write-back (R251, R252, R307) -/

/-- A LEAF_WRITEBACK whose line is FULL takes its snapshot and is offered to the HOST stream; a line with POISON is
dropped, and one that is not FULL fills first (R248, R251, R252). One that finds a dirty sector uncorrectable ends without programming
(Table 7.10). -/
def State.tryWriteback (s : State) (k : Nat) : State :=
  match Tab.find s.tacks k with
  | none => s
  | some t =>
    let leaf := t.leaf.toNat
    if s.lineHeld (lineOf (granuleOf leaf)) then s.updTack k (fun t => { t with wait := .dirLine (lineOf (granuleOf leaf)) })
    else if s.mustWait t then s.updTack k (fun t => { t with wait := .leaf })
    else
      let (s, lost) := s.meetBad leaf (BitVec.allOnes 64) k
      match s.lineAt leaf with
      | none => s.retire k
      | some (w, l) =>
        let c := s.ctx l.ctx.toNat
        if lost then s.retire k
        else if l.poisoned then (s.poisonDrop w k).retire k
        else if c.key = .destroyed then (s.dropLine w).retire k
        else if l.full then
          let flush := s.actsWt l.wt || s.cache.commits.any (fun x => x.leaf == leaf && x.rseq.isNone) || s.dev.state == .cinch
          let o : Offer := { leaf := leaf, ctx := l.ctx, data := l.data, key := if c.enc then some l.ctx.toNat else none
                             sub := 0, source := none, tack := some k, flush := flush }
          let s := s.setLine w { l with wbBusy := true, redirty := false, named := false }
          let commits := s.cache.commits.map (fun (x : Commit) => if x.leaf = leaf ∧ x.rseq = none then { x with snap := true } else x)
          let s := s.setCache { s.cache with commits := commits }
          (s.setBlocks { s.blocks with hostOffers := s.blocks.hostOffers ++ [o] }).updTack k (fun t => { t with wait := .program })
        else match s.leafEntry leaf with
          | none => s.awaitSegment k (granuleOf leaf) false
          | some le =>
            match le.st with
            | .mapped => s.spawnFill k t le.addr l.ctx
            | .poisoned => s.setLine w l.toPoison
            | st => s.setLine w (l.fill (fun _ => unmappedByte st c.zeroOnUnmap))

/-! ### Progress -/

/-- Whether a tack waits on something that a change elsewhere may end. -/
def TackWait.mayEnd (w : TackWait) : Bool :=
  match w with
  | .leaf | .dirLine _ | .segment _ | .way | .victim _ | .fill | .pause | .commit => true
  | .none | .order | .program | .switch => false

/-- Whether a victim's write-back is over: the line is gone or clean, or has been locked meanwhile and is a victim no longer (R254, R255).
One that REDIRTY keeps dirty is released by the end of its program. -/
def State.victimSettled (s : State) (w : Nat) : Bool :=
  match Tab.find s.cache.lines w with
  | some l => l.locked || (!l.wbBusy && !l.isDirty)
  | none => true

/-- Whether a child fill of a tack still runs. -/
def State.filling (s : State) (k : Nat) : Bool := s.tacks.any (fun e => e.2.op == .sectorFill && e.2.parent == some k)

/-- An allocation whose victim has settled takes that way when it is clean, else chooses again (R254). -/
def State.takeVictim (s : State) (k w : Nat) : State :=
  match Tab.find s.tacks k with
  | none => s
  | some t =>
    let leaf := t.leaf.toNat
    let e := s.entry (granuleOf leaf)
    let clean : Bool := match Tab.find s.cache.lines w with | some l => !l.isDirty && !l.locked | none => true
    let s := s.updTack k (fun t => { t with wait := .way })
    if clean && (s.lineAt leaf).isNone && e.bound then
      let poisoned := t.op == .hostWrite && ((s.leafEntry leaf).map (fun x => x.st)) == some LeafSt.poisoned
      let l := Line.empty leaf e.ctx (s.ctx e.ctx.toNat).wt
      (s.invalidate w k).setLine w (if poisoned then l.toPoison else l)
    else s

/-! ### The range engine's leaves (R256, R257) -/

/-- Asks for the media commit of a dirty line for an owner: its line is named for write-back (R251). A locked line that carries POISON cannot be written,
and the owner is done without it (R248). -/
def State.flushLine (s : State) (k : Nat) (o : CommitFor) : State :=
  match Tab.find s.cache.lines k with
  | none => s
  | some l =>
    if l.locked && l.poisoned then s else
    let c : Commit := { serial := s.serial, ctx := l.ctx, leaf := l.leaf, snap := l.wbBusy && !l.redirty, rseq := none, owner := o }
    let s := s.setCache { s.cache with commits := s.cache.commits ++ [c] }
    if l.wbBusy && !l.redirty then s else s.setLine k { l with named := true }

/-- Locked lines of the set of a leaf, with the LOCKs of earlier leaves of the operation that still allocate or fill (R255, R256). -/
def State.locksOf (s : State) (leaf : Nat) : Nat :=
  s.lockedIn leaf + (s.tacks.filter (fun e => e.2.op == .prefetch && e.2.owner == some 1 && e.2.leaf.toNat != leaf
    && setOf e.2.leaf.toNat == setOf leaf && (s.lineAt e.2.leaf.toNat).isNone)).length

/-- What becomes of a tack of the range engine once it has taken its leaf: it is over, it waits for the line in a way to be clean and then
invalidates it, or it goes on as a PREFETCH. -/
inductive RangeEnd where
  | over
  | clean (w : Nat)
  | fill
  deriving DecidableEq, Repr

/-- What the engine does to a leaf for its tack (Table 7.6, R257). -/
def State.rangeLeaf (s : State) (r : RangeOp) (leaf tack : Nat) : State × RangeOp × RangeEnd :=
  let r := { r with next := leaf + 1, leaves := r.leaves + 1 }
  match s.lineAt leaf with
  | none =>
    match r.op with
    | 3 => if 12 ≤ s.locksOf leaf then (s, { r with lockFull := r.lockFull + 1 }, .over) else (s, r, .fill)
    | 5 => (s, r, .fill)
    | _ => (s, r, .over)
  | some (k, l) =>
    match r.op with
    | 0 =>
      if !l.isDirty then (s, r, .over)
      else if l.poisoned && l.locked then (s, { r with skipped := r.skipped + 1 }, .over)
      else if l.poisoned then (s.poisonDrop k tack, { r with dropped := r.dropped + 1 }, .over)
      else (s.flushLine k .range, { r with written := r.written + 1 }, .over)
    | 1 =>
      if l.locked && !r.includeLocked then (s, { r with skipped := r.skipped + 1 }, .over)
      else if l.poisoned then (s.poisonDrop k tack, { r with dropped := r.dropped + 1 }, .over)
      else if l.isDirty then
        (s.setLine k { l with locked := false, named := l.named || !l.wbBusy || l.redirty }, { r with written := r.written + 1 }, .clean k)
      else (s.dropLine k, r, .over)
    | 2 =>
      if l.locked && !r.includeLocked then (s, { r with skipped := r.skipped + 1 }, .over)
      else if l.wbBusy then (s.setLine k { l with locked := false, redirty := false }, r, .clean k)
      else if l.poisoned then (s.poisonDrop k tack, { r with dropped := r.dropped + 1 }, .over)
      else (s.dropLine k, r, .over)
    | 3 =>
      if l.locked then (s, r, .over)
      else if 12 ≤ s.locksOf leaf then (s, { r with lockFull := r.lockFull + 1 }, .over)
      else (s.setLine k { l with locked := true }, r, .over)
    | 4 => ((s.setLine k { l with locked := false }), r, .over)
    | _ => (s, r, .over)

/-- Whether a tack of the range engine has not taken its leaf yet. -/
def State.rangeUntaken (s : State) (t : Tack) : Bool :=
  t.origin == .engine engRange && t.owner.isSome && (match s.cache.rng with | some r => r.next == t.leaf.toNat | none => false)

/-- Takes a tack of the range engine as far as it can go: it takes its leaf after the tacks born before (R21, R256), and one whose line is
still to be written invalidates it once it is clean. -/
def State.tryRange (s : State) (k : Nat) : State :=
  match Tab.find s.tacks k with
  | none => s
  | some t =>
    let leaf := t.leaf.toNat
    match t.wait with
    | .victim w =>
      match Tab.find s.cache.lines w with
      | some l => if l.leaf ≠ leaf then s.retire k else if l.wbBusy || l.isDirty then s else (s.invalidate w k).retire k
      | none => s.retire k
    | _ =>
      if s.lineHeld (lineOf (granuleOf leaf)) || s.mustWait t || !s.rangeUntaken t then s
      else match s.cache.rng with
        | none => s
        | some r =>
          let (s, r, e) := s.rangeLeaf r leaf k
          let s := s.setCache { s.cache with rng := some r }
          match e with
          | .over => s.retire k
          | .clean w => s.updTack k (fun t => { t with wait := .victim w })
          | .fill => s.tryPrefetch k

/-- Takes one waiting tack as far as it can go. -/
def State.tryTack (s : State) (k : Nat) : State :=
  match Tab.find s.tacks k with
  | none => s
  | some t =>
    if t.draining || !t.wait.mayEnd then s
    else
      let ready := match t.wait with | .fill => !s.filling k | .victim w => s.victimSettled w || t.op == TackOp.lineOp | _ => true
      if !ready then s
      else
        let s := match t.wait with | .victim w => if t.op = .lineOp then s else s.takeVictim k w | _ => s
        match t.op with
        | .hostRead => if t.wait = .commit then s.tryComplete k else s.tryRead k
        | .hostWrite => s.tryWrite k
        | .prefetch => if s.rangeUntaken t then s.tryRange k else s.tryPrefetch k
        | .leafWriteback => s.tryWriteback k
        | .lineOp => if t.origin = .engine engRange then s.tryRange k else s
        | _ => s

/-- Host-read tacks live or draining, the partition of R16. -/
def State.hostReadSlots (s : State) : Nat := (s.tacks.filter (fun e => decide (e.1 < 16384))).length

/-- Refuses a write: its credit returns, it is counted, reported and logged, and it never reaches the line cache
(R282, R302, R308). -/
def State.refuseWrite (s : State) (r : HostReq) (reason : Nat) (abort : Bool) : State :=
  let s := if reason = 1 then s.bump rHpRefused 16 16 1 else s.bump rHpRefused 0 16 1
  let s := if reason = 3 then (s.refusing r).foldl (fun s c => s.updCtx c (fun x => { x with refused := satAdd 0xFFFF x.refused 1 })) s else s
  let s := if r.cxl || !r.posted then s else s.aer (if abort then .abort else .unsupportedWrite) (r.header s)
  let s := if r.posted then s.sendCredit r.addr r.cxl else s
  s.event portHost 0x0803 s.devicePath (le 8 r.addr.toNat ++ le 1 reason)

/-- Gives birth to the pieces of a request, and takes each as far as it can go once all are born. -/
def State.birthPieces (s : State) (r : HostReq) : State :=
  let r := { r with id := s.serial, whole := r.addr }
  let (s, ks) := r.leaves.foldl (fun (a : State × List Nat) leaf =>
    let s := a.1
    let e := s.entry (granuleOf leaf)
    let p := r.piece leaf
    let t := Tack.of (if r.write then .hostWrite else .hostRead) (.ctx e.ctx) 0 leaf
    let t := { (t.direct e.ctx (s.ctx e.ctx.toNat)) with req := some p, wait := .dirLine (lineOf (granuleOf leaf)), outside := r.outside }
    let t := if p.len < 4096 then t.setFlag fPartial else t
    match s.birth t ((s.leafEntry leaf).bind (fun le => if le.st = .mapped then some (chanOf le.addr) else none)) with
    | (s, some k) => (s, a.2 ++ [k])
    | (s, none) => (s, a.2)) (s, [])
  ks.foldl (fun s k => if r.write then s.tryWrite k else s.tryRead k) s

/-- Free slots that host writes may take: those of the shared partition, and during CINCH those of the reserve (R16). -/
def State.writeSlots (s : State) : Nat :=
  let used := fun (lo hi : Nat) => (s.tacks.filter (fun e => decide (lo ≤ e.1) && decide (e.1 < hi))).length
  (45056 - used 16384 61440) + (if s.dev.state = .cinch then 4096 - used 61440 65536 else 0)

/-- Whether the host-read partition has slots for a read (R16, R19). -/
def State.readSlots (s : State) (r : HostReq) : Bool := decide (s.hostReadSlots + r.leaves.length ≤ 16384)

/-- Whether a write would make a clean or absent line dirty (R264). -/
def State.dirties (s : State) (r : HostReq) : Bool :=
  r.leaves.any (fun l => match s.lineAt l with | some (_, x) => !x.isDirty | none => true)

/-- Whether an activation's pause has ended before an attempt succeeded: requests are answered as in MOUNTING (R466). -/
def State.bootOpen (s : State) : Bool :=
  (s.dev.state == .serving || s.dev.state == .maintenance) && (s.boot.step == .boot || s.boot.step == .attempt)

/-- What becomes of the oldest request that is not yet born (R281, R282, Table 8.6): none when it waits. -/
def State.takeIn (s : State) (r : HostReq) : Option State :=
  if s.cache.frozen || s.cache.pause then none
  else if s.dev.state = .fault then some (if r.write then s.refuseWrite r 0 true else s.failRead r .abort)
  else if s.dev.state ≠ .serving ∧ s.dev.state ≠ .maintenance ∧ s.dev.state ≠ .cinch then
    some (if r.write then s.refuseWrite r 0 false else s.failRead r .unsupported)
  else if s.bootOpen then some (if r.write then s.refuseWrite r 0 false else s.failRead r .unsupported)
  else if s.power.shutdown ≠ .none ∧ r.write then some (s.refuseWrite r 0 false)
  else if (s.heldLine r).isSome ∧ r.write then none
  else if r.write then
    if s.tacks.any (fun e => e.2.op == .hostWrite) then none
    else if s.anyUnbound r then some (s.refuseWrite r 2 false)
    else if s.dev.readOnly ∧ s.dev.state ≠ .cinch then some (s.refuseWrite r 1 false)
    else if s.refusing r ≠ [] then some (s.refuseWrite r 3 false)
    else if s.withholds ∧ s.dirties r then none
    else if s.writeSlots < r.leaves.length then none
    else some (s.birthPieces r)
  else if s.readSlots r then
    if (s.heldLine r).isNone ∧ s.anyUnbound r then some (s.failRead r .unsupported)
    else some (s.birthPieces r)
  else none

/-- Gives birth to waiting requests in arrival order, as far as none waits (R281). Reads for which the host-read partition has no
slot have had no credit and have not arrived; posted writes behind them pass (R19). -/
def State.pump (s : State) (fuel : Nat) : State :=
  match fuel with
  | 0 => s
  | n + 1 =>
    match s.cache.requests with
    | [] => s
    | r :: rest =>
      match (s.setCache { s.cache with requests := rest }).takeIn r with
      | some s => s.pump n
      | none =>
        if r.write || s.readSlots r then s
        else match rest.find? (fun x => x.write) with
          | none => s
          | some w =>
            match (s.setCache { s.cache with requests := s.cache.requests.erase w }).takeIn w with
            | some s => s.pump n
            | none => s

/-- Ends the waits for media commits that have come (R188). -/
def State.endCommits (s : State) : State :=
  s.keepCommits (fun c => match c.rseq with | some n => !s.committed n | none => true)

/-- Every waiting tack, in birth order, goes as far as it can, which gives birth to children; then requests not yet born, whose writes
ask for slots next; then lines that are to go, commands over runs of leaves, and the segment cache's reads; tacks of the engines that found
no slot before ask among them, each category in its place (R17, R491). -/
def State.advance (s : State) : State :=
  let s := s.endCommits
  let ks := (sortBy (fun a b => decide (a.2 < b.2)) ((s.tacks.filter (fun e => e.2.wait.mayEnd)).map (fun e => (e.1, e.2.serial)))).map (fun e => e.1)
  let s := (ks.foldl State.tryTack s).bear (fun t => decide (t.category < 5))
  let s := (s.pump (s.cache.requests.length + 1)).bear (fun t => decide (t.category < 7))
  let s := if s.cache.enabled then s else (s.cache.lines.map (fun e => e.1)).foldl State.sweepLine s
  let s := s.stepRunCommands.poisonDue.updaterReads.bear (fun _ => true)
  s.pump (s.cache.requests.length + 1)

end Sys2Proof.Machine
end

