-- ==== Sys2Proof/Machine/Retire.lean ====
section
/-! DEFINITION. Retirement of plane-blocks (R226, R227), the erases of the system band, and runs of reads over a die-block (R216,
R225). -/

namespace Sys2Proof.Machine

/-- Plane-blocks erased in this step: their cells, and the counts of erases (R223, R234). -/
def State.eraseNow (s : State) (ks : List Nat) (f : PbRec → PbRec) : State :=
  let s := ks.foldl (fun s k => (s.updPb k (fun r => { f r with erases := r.erases + 1 })).updLife (pbDie k) (fun l => { l with erases := l.erases + 1 }))
    (s.eraseCells ks)
  s.setBlocks { s.blocks with totals := { s.blocks.totals with erases := s.blocks.totals.erases + ks.length } }

/-! ### Retirement (R226, R227) -/

/-- A plane of die-block `db` has lost its plane-block: its spare from the reserve, or the drop of the die-block (R227). Planes of the
die-block that are to be retired themselves are not good; once it is dropped, they only leave service. -/
def State.replacePb (s : State) (db plane : Nat) (gone : Bool) : State :=
  let die := dbDie db
  let own := pbKey die plane (dbBlock db)
  if 1024 ≤ dbBlock db ∨ gone = true then s
  else
    let best := (s.reserveOf die plane).foldl (fun (b : Option Nat) j =>
      match b with
      | some x => if (s.pb j).erases < (s.pb x).erases then some j else some x
      | none => some j) none
    match best with
    | some j =>
      let s := s.eraseNow [j] (fun r => { r with st := .free, link := dbBlock db, lastPage := none, valid := 0 })
      s.updPb own (fun r => { (r.setFlag pbRemapped) with st := .retired, link := pbBlock j })
    | none =>
      let s := s.updPb own (fun r => { (r.clrFlag pbRemapped) with st := .retired, link := 0 })
      let s := ((List.range 4).filter (fun p => p != plane)).foldl (fun s p =>
        let j := s.serving db p
        if (s.pb j).st = .retired ∨ (s.pb j).reason ≠ 0 then s
        else
          let s := s.updPb j (fun r => { r with st := .reserve, stitch := none, member := none, link := 0 })
          let mine := pbKey die p (dbBlock db)
          if mine = j then s else s.updPb mine (fun r => { (r.clrFlag pbRemapped) with link := 0 })) s
      let s := s.setBlocks { s.blocks with dropped := s.blocks.dropped + 1 }
      s.event portCore 0x0603 (s.diePath die) (le 2 (dbBlock db) ++ le 1 plane)

/-- A plane-block leaves service with a reason: BLOCK record, event, and what replaces it (R226, R227). -/
def State.retirePb (s : State) (k reason : Nat) : State :=
  let die := pbDie k
  let plane := pbPlane k
  let db := s.servedBy k
  let gone := s.droppedDb db
  let s := s.updPb k (fun r => { r with st := .retired, reason := reason, stitch := none, member := none, valid := 0, link := 0 })
  let s := s.setBlocks { s.blocks with totals := { s.blocks.totals with retired := s.blocks.totals.retired + 1 } }
  let s := s.append (.block 2 die (dbBlock db) (BitVec.ofNat 4 (2 ^ plane)) 0 [])
  let s := s.event portCore 0x0602 (s.diePath die) (le 2 (pbBlock k) ++ le 1 plane ++ le 1 reason)
  s.replacePb db plane gone

/-- Retires the plane-blocks of an empty die-block that carry a retirement reason (R226). -/
def State.retireMarked (s : State) (db : Nat) : State :=
  ((s.servingAll db).filter (fun k => (s.pb k).reason != 0 && (s.pb k).st != .retired)).foldl
    (fun s k => s.retirePb k (s.pb k).reason) s

/-! ### Erases of the system band -/

/-- Whether a program or an erase of an engine, born or waiting for its slot, is for `w`. -/
def State.underWay (s : State) (w : ProgFor → Bool) : Bool := s.programs.any (fun e => w e.2.what)

/-- Erases a die-block of the system band: the planes that R48 uses and that have not been retired (R190, R193, R225). -/
def State.spawnSystemErase (s : State) (e : BitVec 12) (db : Nat) : State :=
  let planes := (List.range 4).filter (fun q => systemUse (dbDie db) q (dbBlock db) && (s.pb (pbKey (dbDie db) q (dbBlock db))).st != .retired)
  let p : Program := { s.programOf db 0 [] (.eraseSystem db) with groups := [(dbBlock db, planes)] }
  if planes.isEmpty then s
  else (s.ask { Tack.engine .erase e (pageRef (dbDie db) (dbBlock db) 0) true with wait := .program, pg := some p }).1

/-! ### Runs of reads (R216, R225) -/

/-- A codeword of a run of reads has ended; `bad` marks its plane (R216, R225). -/
def ReadRun.ended (x : ReadRun) (a : MediaAddr) (bad : Bool) : ReadRun :=
  { x with waiting := x.waiting.filter (fun y => y != a.toNat)
           bad := if bad then x.bad ||| BitVec.ofNat 4 (2 ^ (bits a.toNat 24 2)) else x.bad }

def ReadRun.holds (x : ReadRun) (a : MediaAddr) : Bool := x.waiting.contains a.toNat

/-- Whether all reads of a run have ended. -/
def ReadRun.over (x : ReadRun) : Bool := x.toRead.isEmpty && x.waiting.isEmpty

/-- The reads of a run begin, as far as tack slots have room. -/
def State.pumpRun (s : State) (op : TackOp) (e : BitVec 12) (x : ReadRun) (fuel : Nat) : State × ReadRun :=
  match fuel with
  | 0 => (s, x)
  | n + 1 =>
    match x.toRead with
    | [] => (s, x)
    | a :: rest =>
      let t := (Tack.engine op e (pageOfAddr a) true).reads (BitVec.ofNat 36 a)
      match s.birth t (some (a / 2 ^ 29)) with
      | (s, some _) => s.pumpRun op e { x with toRead := rest, waiting := x.waiting ++ [a] } n
      | (_, none) => (s, x)

end Sys2Proof.Machine
end

