-- ==== Sys2Proof/Machine/ImageWriter.lean ====
section
/-! DEFINITION. Copies of images, boot records and medium profiles on the medium: what stands in a slot, the image writer (R462, R463),
boot records (R387), and copies renewed (R225) or rewritten (R467). -/

namespace Sys2Proof.Machine

def State.setImg (s : State) (i : Images) : State := { s with img := i }

/-! ### The slot pointer (R388) -/

/-- The slot pointer; an absent record is slot A, no previous slot, STABLE, no attempt. -/
structure SlotPtr where
  active : Nat
  previous : Nat
  trial : Bool
  attempts : Nat
  deriving DecidableEq, Repr

def State.slotPtr (s : State) : SlotPtr :=
  match s.store.record recSlotPointer with
  | some b => { active := recField b 0 1, previous := recField b 1 1, trial := recField b 2 1 == 1, attempts := recField b 3 1 }
  | none => { active := 0, previous := 0xFF, trial := false, attempts := 0 }

def State.setSlotPtr (s : State) (p : SlotPtr) : State :=
  s.save recSlotPointer (le 1 p.active ++ le 1 p.previous ++ le 1 (flag p.trial) ++ le 1 p.attempts ++ zeros 4)

/-! ### Headers and slots (R457) -/

/-- IMAGE_VERSION, ROLLBACK and IMAGE_LEN of a header. -/
def headerVersion (h : List Byte) : Nat := recField h 0x048 8
def headerRollback (h : List Byte) : Nat := recField h 0x040 2
def headerLen (h : List Byte) : Nat := recField h 0x008 4

/-- Where part entry `i` stands. -/
def partAt (i : Nat) : Nat := 0x050 + 80 * i

/-- VERSION, OFFSET and LENGTH of the medium profile among a header's parts. -/
def profilePart (h : List Byte) : Option (Nat × Nat × Nat) :=
  ((List.range 16).find? (fun i => decide (i < recField h 0x044 1) && recField h (partAt i) 1 == 3)).map (fun i =>
    (recField h (partAt i + 4) 8, recField h (partAt i + 12) 4, recField h (partAt i + 16) 4))

/-- The header of a slot's image; none is that of the image that slot A holds from manufacture (log 12). -/
def State.slotHeader (s : State) (slot : Nat) : Option (List Byte) := (Tab.find s.img.slots slot).map ImgSlot.header

/-! ### Boot positions (R48, R387) -/

/-- Boot positions: die 0 of channels 0, 24, 48 and 72 (R387). -/
def bootDie (p : Nat) : Nat := 192 * p

/-- The position of a boot die. -/
def bootPos (die : Nat) : Nat := die / 192

/-- Positions online, as a mask. -/
def State.onlinePositions (s : State) : BitVec 4 := BitVec.ofNat 4 (ofBits ((List.range 4).map (fun p => (s.ctlOf (bootDie p)).online)))

/-- The positions of a mask. -/
def positionsOf (m : BitVec 4) : List Nat := (List.range 4).filter (fun p => m.getLsbD p)
def positionCount (m : BitVec 4) : Nat := (positionsOf m).length

/-- The mask of some positions. -/
def positionMask (ps : List Nat) : BitVec 4 := BitVec.ofNat 4 (ofBits ((List.range 4).map (fun p => ps.contains p)))

/-- A firmware slot's first block; the second is the next (R48, R462). -/
def slotBlock (slot : Nat) : Nat := if slot = 0 then 1032 else 1034

/-- Whether a block of a position can still hold a copy: none of its plane-blocks is retired or to be retired. -/
def State.sound (s : State) (p block : Nat) : Bool :=
  (List.range 4).all (fun q => let r := s.pb (pbKey (bootDie p) q block); r.st != .retired && r.reason == 0)

/-- The die-pages of `n` bytes. -/
def diePages (n : Nat) : Nat := ceilDiv n 131072

/-! ### Boot records (R387) -/

/-- The block and die-pages of a slot's copy at a position as its boot record names them; zeros for none. -/
def State.copyAt (s : State) (slot p : Nat) : Nat × Nat :=
  match Tab.find s.img.slots slot with
  | some x => if x.copies.getLsbD p then (Tab.get x.blocks p (slotBlock slot), diePages x.len) else (0, 0)
  | none => if slot = 0 then (1032, Config.factoryPages.toNat) else (0, 0)

/-- The block and die-pages of a position's profile. -/
def State.profileAt (s : State) (p : Nat) : Nat × Nat := Tab.get s.img.profBlock p (1037, Config.factoryProfilePages.toNat)

/-- A boot record (Table 12.4). -/
def State.bootRecord (s : State) (p gen : Nat) : List Byte :=
  let (a, na) := s.copyAt 0 p
  let (b, nb) := s.copyAt 1 p
  let (c, nc) := s.profileAt p
  let r := le 4 0x42524543 ++ le 2 1 ++ le 1 p ++ [0] ++ le 8 gen ++ le 2 a ++ le 2 na ++ le 2 b ++ le 2 nb ++ le 2 c ++ le 2 nc ++ zeros 32
  r ++ le 4 (crc32c r)

/-- Rewrites the boot record of a position that is online: block 1,036 is erased, and the record follows; one whose last rewriting is under way is
written once more after it. -/
def State.rewriteBoot (s : State) (p : Nat) : State :=
  let db := dbKey (bootDie p) 1036
  if !(s.ctlOf (bootDie p)).online then s
  else if s.underWay (fun w => w == .eraseSystem db || w == .boot p) then s.setImg { s.img with bootTodo := s.img.bootTodo.filter (fun x => x != p) ++ [p] }
  else s.spawnSystemErase engImage db

def State.rewriteBoots (s : State) : State := (List.range 4).foldl State.rewriteBoot s

/-- Block 1,036 is erased: the record is programmed, with GEN + 1. -/
def State.writeBoot (s : State) (p : Nat) : State :=
  let gen := Tab.get s.img.bootGen p 0 + 1
  let s := s.setImg { s.img with bootGen := Tab.put s.img.bootGen p gen }
  let db := dbKey (bootDie p) 1036
  let pg := { s.programOf db 0 [(0, PageCw.own .bootRecord 0 0 0 (s.bootRecord p gen))] (.boot p) with groups := [(1036, [0])] }
  (s.ask { Tack.engine .imageWrite engImage (pageRef (bootDie p) 1036 0) true with
    wait := .program, pg := some pg, media := BitVec.ofNat 36 (mla (bootDie p / 8) 0 0 1036 0 0) }).1

/-- A slot has no copy at a position any more. -/
def State.loseCopy (s : State) (p block : Nat) : State :=
  s.setImg { s.img with slots := s.img.slots.map (fun (e : Nat × ImgSlot) =>
    if Tab.get e.2.blocks p (slotBlock e.1) = block then (e.1, { e.2 with copies := e.2.copies &&& ~~~positionMask [p] }) else e) }

/-- The program of a boot record has ended. A position without a boot record names no copy (R389). -/
def State.bootEnded (s : State) (p : Nat) (fail : Bool) : State :=
  let s := if fail then (s.retireMarked (dbKey (bootDie p) 1036)).setImg { s.img with slots := s.img.slots.map (fun (e : Nat × ImgSlot) =>
      (e.1, { e.2 with copies := e.2.copies &&& ~~~positionMask [p] })) } else s
  if s.img.bootTodo.contains p then (s.setImg { s.img with bootTodo := s.img.bootTodo.filter (fun x => x != p) }).rewriteBoot p else s

/-! ### The bytes of copies -/

/-- The codewords of a die-page of a copy: `n` bytes a codeword, plane by plane, with LEAF the number of the codeword (log 72). -/
def imageCws (kind : CwKind) (page : Nat) (bytes : Nat → List Byte) : Tab PageCw :=
  (List.range 32).map (fun i => (i, PageCw.own kind (32 * page + i) 0 0 (bytes (32 * page + i))))

/-- Codeword `c` of a copy, as it stands on the medium. -/
def State.copyBytes (s : State) (p block c : Nat) : List Byte :=
  let f := s.cellByte (s.cell (mla (bootDie p / 8) 0 (c / 8 % 4) block (c / 32) (c % 8))) none
  (List.range 4096).map f

/-- The position of a copy of a slot, other than `p`, that can be read: its block comes with it. -/
def State.otherCopy (s : State) (slot p : Nat) : Option (Nat × Nat) :=
  (Tab.find s.img.slots slot).bind (fun x =>
    ((positionsOf (x.copies &&& s.onlinePositions)).find? (fun j => j != p && !s.img.badCopies.contains (dbKey (bootDie j) (Tab.get x.blocks j (slotBlock slot))))).map
      (fun j => (j, Tab.get x.blocks j (slotBlock slot))))

/-! ### The image writer (R462, R463) -/

/-- The command whose image is being staged. -/
def State.stager (s : State) : Option Cmd :=
  s.cmdq.cmds.find? (fun c => c.opcode == 0x80 && (c.step == .image || c.step == .verify || c.step == .fifo))

def State.setCopies (s : State) (cs : Tab ImgCopy) : State :=
  s.setImg { s.img with copies := cs, writing := positionMask (cs.map (fun e => e.1)) }

/-- Nothing is being staged. -/
def Images.empty (i : Images) : Images :=
  { i with st := .empty, received := 0, header := [], writing := 0, page := [], pages := [], formed := 0, copies := [] }

/-- Staging fails with a sub-reason (R458, R463); the command that stages, if one runs, completes with it. -/
def State.rejectStage (s : State) (sub : Nat) : State :=
  let c := s.stager
  let s := (s.setImg { s.img.empty with reason := sub }).event portBoot 0x0A09 s.devicePath (le 1 sub)
  match c with | some c => s.finish c stImage sub none | none => s

/-- The bytes of page `k` for a position: those received, or those of another copy. -/
def State.pageFor (s : State) (p k : Nat) : Option (Tab PageCw) :=
  match Tab.find s.img.pages k with
  | some bs => some (imageCws .firmware k (fun c => (bs.drop (4096 * (c - 32 * k))).take 4096))
  | none => (s.img.copies.find? (fun e => e.1 != p && !e.2.again && decide (k < e.2.pages))).map (fun e =>
      imageCws .firmware k (s.copyBytes e.1 e.2.block))

/-- Whether a copy of a position has a program or an erase of its block under way. -/
def State.copyBusy (s : State) (p : Nat) (x : ImgCopy) : Bool :=
  s.underWay (fun w => w == .image p x.pages || w == .eraseSystem (dbKey (bootDie p) x.block))

/-- The next page of a position's copy is programmed. A position that is offline, or whose page no copy has any more, is left without one. -/
def State.copyOn (s : State) (p : Nat) (x : ImgCopy) : State :=
  if !(s.ctlOf (bootDie p)).online then s.setCopies (Tab.del s.img.copies p)
  else if !x.erased || decide (s.img.formed ≤ x.pages) || s.copyBusy p x then s
  else match s.pageFor p x.pages with
    | some cws => (s.spawnProgram .imageWrite engImage (some .dia) (dbKey (bootDie p) x.block) x.pages cws (.image p x.pages)).1
    | none => s.setCopies (Tab.del s.img.copies p)

/-- Every copy being written goes on. With fewer than two positions staging fails with MEDIA; once every whole page is in every copy, the chunk
that filled them completes (R461, R462). -/
def State.imageOn (s : State) : State :=
  if s.img.st ≠ .receiving ∧ s.img.st ≠ .verifying then s
  else
    let s := s.img.copies.foldl (fun s e => s.copyOn e.1 e.2) s
    if s.img.copies.length < 2 then s.rejectStage 9
    else if s.img.copies.all (fun e => decide (s.img.formed ≤ e.2.pages)) then
      let s := s.setImg { s.img with pages := [] }
      match s.stager with
      | some c => if c.step = .image then s.finish c stSuccess 0 none else s
      | none => s
    else s

/-- Begins, or begins anew, the copy of a position in a block: its erase comes first. -/
def State.beginCopy (s : State) (p block : Nat) (again : Bool) : State :=
  (s.setCopies (Tab.put s.img.copies p { block := block, erased := false, pages := 0, again := again })).spawnSystemErase engImage (dbKey (bootDie p) block)

/-- A block of a copy failed: its planes that failed are retired, and the copy moves to the slot's second block, or is lost (R48, R226,
R462). -/
def State.moveCopy (s : State) (p : Nat) (x : ImgCopy) : State :=
  let s := s.retireMarked (dbKey (bootDie p) x.block)
  let second := x.block + 1
  if x.block % 2 = 0 ∧ s.sound p second = true ∧ (s.ctlOf (bootDie p)).online = true then
    let s := s.append (.block 0 (bootDie p) second 15 3 ((List.range 4).map (fun q => (s.pb (pbKey (bootDie p) q second)).erases)))
    s.beginCopy p second x.again
  else s.setCopies (Tab.del s.img.copies p)

/-- The program of a page of a copy has ended. -/
def State.imageEnded (s : State) (p page : Nat) (fail : Bool) : State :=
  match Tab.find s.img.copies p with
  | none => s
  | some x =>
    if !x.erased || x.pages != page then s
    else if fail then (s.moveCopy p x).imageOn
    else (s.setCopies (Tab.put s.img.copies p { x with pages := page + 1 })).imageOn

/-- The erase of a block that a copy is to take has ended; its planes that failed make the copy move (R462). -/
def State.copyErased (s : State) (db : Nat) (failed : Bool) : State :=
  match s.img.copies.find? (fun e => bootDie e.1 == dbDie db && e.2.block == dbBlock db && !e.2.erased) with
  | none => s
  | some (p, x) => (if failed then s.moveCopy p x else s.setCopies (Tab.put s.img.copies p { x with erased := true })).imageOn

/-- A slot holds no image. -/
def State.emptySlot (s : State) (slot : Nat) : State :=
  s.setImg { s.img with slots := Tab.put s.img.slots slot { header := [], len := 0, copies := 0 } }

/-- The slot takes the image that has been verified: boot records name its copies, and it is STAGED (R463). -/
def State.stageDone (s : State) : State :=
  let c := s.stager
  let i := s.img
  let x : ImgSlot := { header := i.header, len := i.received, copies := positionMask (i.copies.map (fun e => e.1))
                       blocks := i.copies.map (fun (e : Nat × ImgCopy) => (e.1, e.2.block)) }
  let s := (s.setImg { i with st := .staged, reason := 0, page := [], pages := [], copies := [], slots := Tab.put i.slots i.slot x }).rewriteBoots
  match c with | some c => s.finish c stSuccess 0 none | none => s

/-- Every copy has been read back; `good` are the positions whose copy yields every part. A copy that fails is rewritten once from a good copy
and read again, and one that fails again is dropped (R463). -/
def State.verified (s : State) (good : BitVec 4) : State :=
  let i := s.img
  if i.st ≠ .verifying ∨ !i.copies.all (fun e => e.2.erased && decide (i.formed ≤ e.2.pages)) then s
  else if !i.copies.any (fun e => good.getLsbD e.1) then s.rejectStage 8
  else
    let bad := i.copies.filter (fun e => !good.getLsbD e.1)
    let s := (bad.filter (fun e => e.2.again)).foldl (fun s e => s.setCopies (Tab.del s.img.copies e.1)) s
    let redo := bad.filter (fun e => !e.2.again)
    let s := redo.foldl (fun s e => s.beginCopy e.1 e.2.block true) s
    if s.img.copies.length < 2 then s.rejectStage 9
    else if redo.isEmpty then s.stageDone else s

/-! ### Copies renewed or rewritten (R225, R467) -/

def State.setRenew (s : State) (r : Option Renew) : State := s.setBlocks { s.blocks with renew := r }

/-- A copy that needs renewal waits for it (R224, R389). -/
def State.queueCopy (s : State) (db : Nat) : State :=
  if s.blocks.refreshQ.contains db then s
  else (s.setBlocks { s.blocks with refreshQ := s.blocks.refreshQ ++ [db] }).updDb db (fun r => r.setFlag pbRefresh)

/-- A copy leaves the renewal queue. -/
def State.unqueueCopy (s : State) (db : Nat) : State :=
  ((s.setBlocks { s.blocks with refreshQ := s.blocks.refreshQ.filter (fun x => x != db) }).setImg { s.img with badCopies := s.img.badCopies.filter (fun x => x != db) }).updDb db
    (fun r => r.clrFlag pbRefresh)

/-- The reads of the copy under renewal go on. -/
def State.renewReads (s : State) : State :=
  match s.blocks.renew with
  | none => s
  | some r =>
    let (s, x) := s.pumpRun .refreshRead engRefresh r.run r.run.toRead.length
    s.setRenew (some { r with run := x })

/-- The renewal of a copy begins: every codeword that stands there is read (R225). -/
def State.startRenew (s : State) (db : Nat) : State :=
  let ks := s.servingAll db
  let as := (s.media.filter (fun e => decide (e.1 / 8192 ∈ ks))).map (fun e => e.1)
  (s.setRenew (some { db := db, run := { db := db, toRead := as, waiting := [], bad := 0 }, pages := [], next := 0 })).renewReads

/-- The pages of the profile blocks: the ACTIVE slot's header, then its profile part (R467). -/
def State.profilePages (s : State) (slot : Nat) : Tab (Tab PageCw) :=
  match Tab.find s.img.slots slot with
  | none => (List.range Config.factoryProfilePages.toNat).map (fun k =>
      (k, imageCws .bootRecord k (fun c => (List.range 4096).map (fun i => Config.factoryProfileByte (4096 * c + i)))))
  | some x =>
    match s.otherCopy slot 4, profilePart x.header with
    | some (p, b), some (_, off, len) =>
      let bytes := fun c => if c = 0 then x.header else (s.copyBytes p b (off / 4096 + c - 1)).take (len - 4096 * (c - 1))
      (List.range (diePages (4096 + len))).map (fun k => (k, imageCws .bootRecord k bytes))
    | _, _ => []

/-- The pages of a copy as they are written again: its own, or when a codeword of it failed or its digest did, those of another copy of its
slot, and for a profile those of the ACTIVE slot. -/
def State.renewPages (s : State) (r : Renew) : Tab (Tab PageCw) :=
  let p := bootPos (dbDie r.db)
  let block := dbBlock r.db
  let n := match (s.dbRec r.db).lastPage with | some l => l + 1 | none => 0
  let kind := if block < 1036 then CwKind.firmware else .bootRecord
  let good : Bool := r.run.bad == 0#4 && !s.img.badCopies.contains r.db
  let other := if good then none else s.otherCopy ((block - 1032) / 2) p
  let src := other.getD (p, block)
  if !good && decide (1036 ≤ block) then s.profilePages s.slotPtr.active
  else (List.range n).map (fun k => (k, imageCws kind k (s.copyBytes src.1 src.2)))

/-- Whether the copy under renewal is a profile that follows the ACTIVE slot (R467). -/
def State.rewritesProfile (s : State) (db : Nat) : Bool := decide (1037 ≤ dbBlock db) && s.img.profTodo.contains (bootPos (dbDie db))

/-- The next page of the copy under renewal is programmed; when all are, the boot record of its position follows (R387). -/
def State.renewProgram (s : State) (r : Renew) : State :=
  let p := bootPos (dbDie r.db)
  match Tab.find r.pages r.next with
  | some cws =>
    if s.rewritesProfile r.db then (s.spawnProgram .imageWrite engBoot (some .dia) r.db r.next cws (.renew r.next)).1
    else (s.spawnProgram .refreshProgram engRefresh (some .drf) r.db r.next cws (.renew r.next)).1
  | none =>
    let i := s.img
    let s := if dbBlock r.db < 1036 then s.setImg { i with slots := Tab.change i.slots ((dbBlock r.db - 1032) / 2) (fun x => { x with blocks := Tab.put x.blocks p (dbBlock r.db) }) }
      else s.setImg { i with profBlock := Tab.put i.profBlock p (dbBlock r.db, r.pages.length), profTodo := i.profTodo.filter (fun x => x != p) }
    ((s.unqueueCopy r.db).setRenew none).rewriteBoot p

/-- The copy under renewal is rewritten: its block is erased. A boot record is formed anew (R387). -/
def State.renewRewrite (s : State) (r : Renew) : State :=
  if dbBlock r.db = 1036 then ((s.unqueueCopy r.db).setRenew none).rewriteBoot (bootPos (dbDie r.db))
  else (s.setRenew (some { r with pages := s.renewPages r })).spawnSystemErase engRefresh r.db

/-- The renewal goes on: reads, and once they have all ended the copy is rewritten. -/
def State.renewOn (s : State) : State :=
  match s.blocks.renew with
  | none => s
  | some r => if !r.run.toRead.isEmpty then s.renewReads else if r.run.over && r.pages.isEmpty then s.renewRewrite r else s

/-- A codeword of the copy under renewal has been read, or is lost. -/
def State.renewRead (s : State) (a : MediaAddr) (bad : Bool) : State :=
  match s.blocks.renew with
  | some r => (s.setRenew (some { r with run := r.run.ended a bad })).renewOn
  | none => s

/-- Whether a read belongs to the copy under renewal. -/
def State.renewing (s : State) (a : MediaAddr) : Bool := match s.blocks.renew with | some r => r.run.holds a | none => false

/-- A block of the copy under renewal failed: it moves to its second block (R48), or the position is left without it. -/
def State.renewMove (s : State) (r : Renew) : State :=
  let p := bootPos (dbDie r.db)
  let s := s.retireMarked r.db
  let b := dbBlock r.db
  if (b = 1032 ∨ b = 1034 ∨ b = 1037) ∧ s.sound p (b + 1) = true ∧ (s.ctlOf (bootDie p)).online = true then
    let s := s.append (.block 0 (bootDie p) (b + 1) 15 3 ((List.range 4).map (fun q => (s.pb (pbKey (bootDie p) q (b + 1))).erases)))
    ((s.unqueueCopy r.db).setRenew (some { r with db := dbKey (bootDie p) (b + 1), next := 0 })).spawnSystemErase engRefresh (dbKey (bootDie p) (b + 1))
  else (((s.unqueueCopy r.db).loseCopy p b).setRenew none).rewriteBoot p

/-- A page of the copy under renewal has programmed or failed. -/
def State.renewEnded (s : State) (db page : Nat) (fail : Bool) : State :=
  match s.blocks.renew with
  | some r =>
    if r.db ≠ db ∨ r.next ≠ page then s
    else if fail then s.renewMove r
    else
      let r := { r with next := page + 1 }
      (s.setRenew (some r)).renewProgram r
  | none => s

/-- The next position's profile is rewritten: one at a time (R467). One that is offline, or whose slot cannot be read, is passed over. -/
def State.profileOn (s : State) : State :=
  if s.blocks.renew.isSome then s
  else match s.img.profTodo.find? (fun p => (s.ctlOf (bootDie p)).online) with
    | none => s
    | some p =>
      let db := dbKey (bootDie p) (s.profileAt p).1
      let pages := s.profilePages s.slotPtr.active
      if pages.isEmpty then s
      else (s.setRenew (some { db := db, run := { db := db, toRead := [], waiting := [], bad := 0 }, pages := pages, next := 0 })).spawnSystemErase engBoot db

/-- The attempt succeeded: when the profile blocks hold another header than the ACTIVE slot's, they are rewritten (R467). -/
def State.followProfile (s : State) : State :=
  let h := s.slotHeader s.slotPtr.active
  let s := if s.img.profHeader = h then s else s.setImg { s.img with profHeader := h, profTodo := List.range 4 }
  s.profileOn

/-- The erase of a block from 1,032 to 1,038 has ended. -/
def State.imageErased (s : State) (db : Nat) (failed : Bool) : State :=
  if dbBlock db = 1036 then (if failed then s.bootEnded (bootPos (dbDie db)) true else s.writeBoot (bootPos (dbDie db)))
  else match s.blocks.renew with
    | some r => if r.db = db then (if failed then s.renewMove r else s.renewProgram r) else s.copyErased db failed
    | none => s.copyErased db failed

/-- A boot position has gone offline: the image writer and a renewal there end (R462). -/
def State.positionOff (s : State) (die : Nat) : State :=
  let s := match s.blocks.renew with
    | some r => if dbDie r.db = die then (s.loseCopy (bootPos die) (dbBlock r.db)).setRenew none else s
    | none => s
  s.imageOn.profileOn

end Sys2Proof.Machine
end

