-- ==== Sys2Proof/Machine/WeltImage.lean ====
section
/-! DEFINITION. The records of the block tables and the allocator (R202, R204), and the pages of a welt image (R147, R167, R191,
Tables 5.6 to 5.8). -/

namespace Sys2Proof.Machine

/-! ### Records -/

/-- A plane-block record (Table 6.1). -/
def PbRec.bytes (r : PbRec) : List Byte :=
  le 2 r.erases ++ le 1 r.st.code ++ le 1 (r.flags.toNat % 128) ++ le 4 r.openAge ++ le 4 r.closeAge
    ++ le 2 (r.lastPage.getD 0xFFFF) ++ le 2 r.link ++ le 2 r.valid ++ le 1 (r.stitch.getD 0xFF) ++ le 1 (r.member.getD 0xFF)
    ++ le 1 (Nat.min 255 r.corrMax) ++ le 1 r.reason ++ zeros 2

/-- The plane-block of pool record `i` (R202). -/
def poolKey (i : Nat) : Nat := pbKey (i / 4096) (i / 1024 % 4) (i % 1024)

/-- The plane-block of record `i` of the system-band table (R202). -/
def systemKey (i : Nat) : Nat := pbKey (i / 64) (i / 16 % 4) (1024 + i % 16)

/-- The number that stands in a stitch for a member whose die-block was erased: no die-block has it. -/
abbrev dbGone : Nat := 768 * 2048

/-- STATE of a stitch (Table 6.2). -/
def StitchSt.code (x : StitchSt) : Nat := match x with | .filling => 1 | .closed => 2 | .burnishing => 3 | .releasing => 4

/-- ROW_DONE: the highest row whose P and Q have both programmed (R211). -/
def Stitch.rowDoneMax (x : Stitch) : Nat :=
  match ((x.rows.filter (fun e => e.2 == 3#2)).map (fun e => e.1)).getLast? with | some p => p | none => 0xFFFF

/-- A stitch record (Table 6.2); the POSITIONS entry of a member that has left is unfilled. -/
def Stitch.bytes (x : Stitch) : List Byte :=
  le 8 x.seq ++ le 1 x.st.code ++ le 1 (flag x.copy) ++ le 1 (flag x.sealed + 2 * flag x.pLost + 4 * flag x.qLost)
    ++ le 1 (total ((bitList x.passMask.toNat 16).map flag)) ++ le 2 x.passMask.toNat ++ le 2 x.rowDoneMax
    ++ (List.range 18).flatMap (fun m => match Tab.find x.positions m with
        | some db => if db = dbGone then le 4 0xFFFFFFFF else le 1 (dbDie db / 8) ++ le 1 (dbDie db % 8) ++ le 2 (dbBlock db)
        | none => le 4 0xFFFFFFFF)
    ++ (List.range 18).flatMap (fun m => le 2 ((Tab.find x.lastPage m).getD 0xFFFF)) ++ zeros 4

/-- A hole-list record (Table 4.4). -/
def Hole.bytes (h : Hole) : List Byte :=
  le 8 h.first ++ le 4 h.count ++ le 2 h.ctx.toNat ++ le 1 h.reason.toNat ++ [0] ++ le 8 h.media.toNat
    ++ le 4 (Nat.min 0xFFFFFFFF h.seconds) ++ le 4 h.unit.toNat

/-! ### The image (R191) -/

/-- The header (Table 5.7); the footer is the header under another MAGIC. -/
def Welt.header (w : Welt) (unit : Nat) (magic : Nat) : List Byte :=
  let b := le 4 magic ++ le 2 1 ++ le 1 (flag w.setB) ++ le 1 (flag w.clean + 2 * flag w.holeFull) ++ le 8 w.seq ++ le 8 w.markRseq
    ++ le 8 w.replayFrom ++ le 2 unit ++ zeros 2 ++ le 4 6518 ++ le 4 w.holes.length ++ le 4 (Nat.min 0xFFFFFFFF w.opSeconds)
    ++ le 8 w.progSeq ++ le 4 (Nat.min 0xFFFFFFFF w.fullSeconds)
  b ++ le 4 (crc32c b)

/-- An entry of the segment table (R167). -/
def segTableBytes (e : MediaAddr × Nat) : List Byte := le 8 e.1.toNat ++ le 8 e.2

/-- The 32 bytes of a die in the drift state (Table 5.8). -/
def WeltAge.bytes (a : WeltAge) : List Byte :=
  le 8 a.counter ++ le 8 a.cBrand ++ le 1 (if a.groups = 0 then 0xFF else a.groups - 1) ++ le 1 (flag a.assumed + 2 * flag a.clamped)
    ++ zeros 2 ++ le 4 a.uLast ++ zeros 8

/-- The 16 bytes of a learned group in the drift state (Table 5.8). -/
def Learned.bytes (x : Learned) : List Byte := ((List.range 15).flatMap (fun i => leInt 1 (x.g.getD i 0))) ++ [0]

/-- Byte `n` of a region of records of `size` bytes each. -/
def recordByte (size : Nat) (f : Nat → List Byte) (n : Nat) : Byte := (f (n / size)).getD (n % size) 0

/-- Byte `n` of the drift state region (Table 5.8). -/
def Welt.driftByte (w : Welt) (n : Nat) : Byte :=
  if n < 0x8000 then
    recordByte 32 (fun i => match Tab.find w.ages i with | some a => a.bytes | none => if i < 768 then zeros 16 ++ [0xFF] ++ zeros 15 else zeros 32) n
  else recordByte 16 (fun q => match Tab.find w.learned q with | some x => x.bytes | none => zeros 16) (n - 0x8000)

/-- Byte `n` of the allocator region (R204): a header of zero bytes, which no rule describes (log 61), and the stitches. -/
def Welt.allocByte (w : Welt) (n : Nat) : Byte :=
  if n < 64 then 0
  else recordByte 128 (fun i => match Tab.find w.stitches i with
    | some x => x.bytes
    | none => if i < 48 then zeros 14 ++ List.replicate 110 0xFF ++ zeros 4 else zeros 128) (n - 64)

/-- Byte `n` of page `k` of a welt image (Table 5.6). Past its pages the last program is padded with zeros. -/
def Welt.byte (w : Welt) (unit : Nat) (blank : Bool) (k n : Nat) : Byte :=
  let pb := fun (j : Nat) =>
    let r := Tab.get w.pbs j (PbRec.initAt blank j)
    match Tab.find w.gone (pbDie j) with
    | some reason => { r with st := .retired, reason := reason, flags := r.flags &&& ~~~2#8 : PbRec }.bytes
    | none => r.bytes
  if k = 0 then (w.header unit 0x57454C54).getD n 0
  else if k < 1025 then recordByte 8 (fun g => le 8 (Tab.get w.dir g DirEntry.unbound).word) (32768 * (k - 1) + n)
  else if k < 3073 then recordByte 16 (fun g => segTableBytes (Tab.get w.segTable g (0, 0))) (32768 * (k - 1025) + n)
  else if k < 5377 then recordByte 24 (fun i => pb (poolKey i)) (32768 * (k - 3073) + n)
  else if k < 5413 then recordByte 24 (fun i => pb (systemKey i)) (32768 * (k - 5377) + n)
  else if k < 5445 then w.allocByte (32768 * (k - 5413) + n)
  else if k < 5461 then BitVec.ofNat 8 (ofBits ((List.range 8).map (fun j => w.pins.contains (8 * (32768 * (k - 5445) + n) + j))))
  else if k < 6485 then recordByte 32 (fun i => match w.holes[i]? with | some h => h.bytes | none => zeros 32) (32768 * (k - 5461) + n)
  else if k < 6517 then w.driftByte (32768 * (k - 6485) + n)
  else if k = 6517 then (w.header unit 0x57454E44).getD n 0
  else 0

/-- The codewords of program `j` of an image: pages 4j to 4j + 3, one a plane (R191). -/
def Welt.codewords (w : Welt) (unit : Nat) (blank : Bool) (j : Nat) : Tab PageCw :=
  (List.range 32).map (fun i =>
    let k := 4 * j + i / 8
    (i, PageCw.own .welt (if k ≤ 6517 then k else 0x3FFFFFFFF) 0 0
      ((List.range 4096).map (fun n => w.byte unit blank k (4096 * (i % 8) + n)))))

/-- The programs of an image. -/
abbrev weltPrograms : Nat := 1630

/-- The die that copy `x` of program `j` goes to (R191). -/
def weltDie (copy : Bool) (j : Nat) : Nat := dieKey (8 * flag copy + j % 8) 0

/-- The die-blocks of a welt set (R48). -/
def weltBlocks (setB : Bool) : List Nat :=
  (List.range 16).flatMap (fun ch => [dbKey (dieKey ch 0) (1024 + 2 * flag setB), dbKey (dieKey ch 0) (1025 + 2 * flag setB)])

end Sys2Proof.Machine
end

