-- ==== Sys2Proof/Machine/Stitches.lean ====
section
/-! DEFINITION. Stitches, erases, retirement and what follows when a page program or an erase ends (R206-R228, R252,
R184, R188). -/

namespace Sys2Proof.Machine

/-! ### Refresh queue (R224, R99) -/

/-- Data age of a die-block in ticks (R114). -/
def State.dataAge (s : State) (db : Nat) : Nat :=
  let o := ((s.servingAll db).filter (fun k => (s.pb k).lastPage.isSome)).map (fun k => (s.pb k).openAge)
  (s.age (dbDie db)).counter / 256 - 64 * o.foldl Nat.min (o.headD 0)

/-- Whether a die-block holds programmed data. -/
def State.holdsData (s : State) (db : Nat) : Bool :=
  let r := s.dbRec db
  r.lastPage.isSome && (r.st == .opened || r.st == .closed || r.st == .burnished || r.st == .map || r.st == .victim || r.st == .system)

/-- Refresh age in force (Table 4.13). -/
def State.refreshAge (s : State) : Nat := s.reg rDriftRefreshAge

/-- Queues a die-block for refresh; one that a job holds or the skiver must empty stays out (R224, R233). -/
def State.queueRefresh (s : State) (db : Nat) : State :=
  let b := s.blocks
  if b.refreshQ.contains db || b.forced.contains db || b.jobs.any (fun j => j.db == db) || !s.holdsData db then s
  else (s.setBlocks { b with refreshQ := b.refreshQ ++ [db] }).updDb db (fun r => r.setFlag pbRefresh)

/-- Whether a die-block of a channel is past 0.95 of its refresh age (R99). -/
def State.pastDue (s : State) (ch : Nat) : Bool :=
  ((s.blocks.pbs.filter (fun e => pbDie e.1 / 8 == ch)).map (fun e => s.servedBy e.1)).dedup.any
    (fun db => s.holdsData db && decide (95 * s.refreshAge < 100 * s.dataAge db))

/-- Brings the integrity override of a channel in step with the ages of its die-blocks (R99). -/
def State.checkOverride (s : State) (ch : Nat) : State := s.setDrfOvr ch (s.pastDue ch)

/-! ### Erases -/

/-- Gives birth to the ERASE tack of a die-block (R223). -/
def State.spawnErase (s : State) (db : Nat) : State :=
  let t := Tack.engine .erase engSkiver (pageRef (dbDie db) (dbBlock db) 0) true
  let p := s.programOf db 0 [] (.erase db)
  let (s, k) := s.birth { t with wait := .program, pg := some p } (some (dbDie db / 8))
  match k with
  | some _ => s.setBlocks { s.blocks with erasing := s.blocks.erasing ++ [db] }
  | none => s

/-- Whether a host read, or a SEG_READ on which one waits, holds programs and erases off a die: it has waited there for one to end,
or has reached step 1 (R140). -/
def State.readFirst (s : State) (die : Nat) : Bool :=
  s.tacks.any (fun e => (e.2.op == .hostRead || s.hostAwaits e.2) && !e.2.draining && (match e.2.rd with
    | some r => dieOf r.addr == die && (r.waited || decide (1 ≤ e.2.retry)) && r.phase != .stitch
    | none => false))

/-- Whether the sequencer may issue a START or an ERASE to a die (R140, R492): retraining uses TRAIN and IDENTIFY alone (R82). -/
def State.dieFree (s : State) (die : Nat) : Bool :=
  let c := s.ctlOf die
  s.framesGo && (s.chan (die / 8)).st == .ready && (s.die die).st == .idle && c.online && c.running.isNone && !c.awaiting && !s.readFirst die

/-- Issues the ERASE frame of an erase tack whose die takes one (R68, R140, R436, R492). -/
def State.startErase (s : State) (k : Nat) (p : Program) : State :=
  match p.groups with
  | [] => s
  | (b, planes) :: _ =>
    let die := p.die
    let mod := BitVec.ofNat 6 (total (planes.map (fun q => 2 ^ q)) * 4)
    if s.dieFree die ∧ s.coolEnough die ∧ ¬ p.started then
      let s := s.setDie die ((s.die die).takeErase mod (BitVec.ofNat 12 b))
      (s.setCtl die { s.ctlOf die with running := some k }).updTack k (fun t => { t with pg := some { p with started := true } })
    else s

/-- A die-block that was emptied and erased leaves its stitch: a member has passed (R217), a parity die-block of a
RELEASING stitch frees its slot with the last (R218). -/
def State.leaveStitch (s : State) (db : Nat) : State :=
  let xs := s.blocks.stitches.map (fun e =>
    let x := e.2
    let at' := (List.range 18).filter (fun m => Tab.find x.positions m == some db)
    let ps := at'.foldl (fun p m => Tab.put p m dbGone) x.positions
    let pass := at'.foldl (fun (v : BitVec 16) m => if m < 16 then v ||| BitVec.ofNat 16 (2 ^ m) else v) x.passMask
    (e.1, { x with positions := ps, passMask := pass }))
  s.setBlocks { s.blocks with stitches := xs.filter (fun e =>
    !(e.2.st == .releasing && e.2.positions.all (fun p => p.2 == dbGone || decide (p.1 < 16)))) }

/-- Filled member positions. -/
def Stitch.filled (x : Stitch) : List Nat := (List.range 16).filter (fun m => (Tab.find x.positions m).isSome)

/-- A parity die-block of a released stitch is erased; one on a die that is offline leaves at once (R218, R228). -/
def State.freeParity (s : State) (db : Nat) : State :=
  let s := s.updDb db (fun r => { r with st := if r.st = .retired then .retired else .erasePending, stitch := none, member := none })
  if (s.ctlOf (dbDie db)).online then s.spawnErase db else s.leaveStitch db

/-- A stitch whose filled members have all passed is released: P and Q are erased, and the records of its members name no
stitch any more (R218). -/
def State.releaseIf (s : State) (i : Nat) : State :=
  match Tab.find s.blocks.stitches i with
  | none => s
  | some x =>
    if (x.st == .closed || x.st == .burnishing) && x.filled.all (fun m => x.passMask.getLsbD m) then
      let members := (x.positions.filter (fun p => decide (p.1 < 16) && p.2 != dbGone)).map (fun p => p.2)
      let parity := (x.positions.filter (fun p => decide (16 ≤ p.1) && p.2 != dbGone)).map (fun p => p.2)
      let x := { x with st := .releasing, positions := x.positions.filter (fun p => decide (16 ≤ p.1)) }
      let s := s.setBlocks { s.blocks with stitches := Tab.put s.blocks.stitches i x }
      let s := members.foldl (fun s db => s.updDb db (fun r => { r with stitch := none, member := none })) s
      (parity.foldl State.freeParity s).checkSpace
    else s

def State.releaseAll (s : State) : State := (s.blocks.stitches.map (fun e => e.1)).foldl State.releaseIf s

/-- The plane-blocks of planes that erased start anew: their counts rise (R223). -/
def State.erasedPbs (s : State) (ks : List Nat) (st : PbSt → PbSt) : State :=
  ks.foldl (fun s k => if (s.pb k).st = .retired then s else s.updPb k (fun r =>
    { r with erases := r.erases + 1, st := st r.st, flags := r.flags &&& 2#8, openAge := 0, closeAge := 0
             lastPage := none, valid := 0, stitch := none, member := none, corrMax := 0 })) s

/-- An erase that completes rejoins its heap: counts rise, the BLOCK record, space (R223, R230). `failed` are the planes that failed to
erase alone (R226). -/
def State.eraseDone (s : State) (db : Nat) (failed : List Nat) : State :=
  let s := s.leaveStitch db
  let ks := s.servingAll db
  let good := (List.range 4).filter (fun q => !failed.contains q)
  let s := s.erasedPbs (good.map (s.serving db)) (fun _ => .free)
  let n := good.length
  let b := s.blocks
  let victim := b.jobs.any (fun j => j.db == db)
  let s := s.setBlocks { b with erasing := b.erasing.filter (fun x => x != db), forced := b.forced.filter (fun x => x != db)
                                refreshQ := b.refreshQ.filter (fun x => x != db), jobs := b.jobs.filter (fun j => j.db != db)
                                credits := if victim && s.dev.spaceLow then Nat.min 64 (b.credits + 1) else b.credits
                                totals := { b.totals with erases := b.totals.erases + n } }
  let s := s.append (.block 1 (dbDie db) (dbBlock db) (BitVec.ofNat 4 (total (good.map (fun q => 2 ^ q)))) 0 (ks.map (fun k => (s.pb k).erases)))
  (((s.retireMarked db).checkSpace).releaseAll).checkOverride (dbDie db / 8)

/-! ### Stitches (R208-R215) -/

/-- A stitch slot not in use. -/
def Stitch.init : Stitch :=
  { seq := 0, st := .filling, copy := false, sealed := false, pLost := false, qLost := false, passMask := 0
    positions := [], lastPage := [], openMask := 0, order := [], rows := [], refreshRows := [], bare := false }

def State.setStitch (s : State) (i : Nat) (x : Stitch) : State :=
  s.setBlocks { s.blocks with stitches := Tab.put s.blocks.stitches i x }

/-- The next page of a position. -/
def Stitch.next (x : Stitch) (m : Nat) : Nat := match Tab.find x.lastPage m with | some p => p + 1 | none => 0

def Stitch.isOpen (x : Stitch) (m : Nat) : Bool := x.openMask.getLsbD m

/-- Whether a position holds its die-block still: filled, and not emptied and erased (R217). -/
def Stitch.holds (x : Stitch) (m : Nat) : Bool := (Tab.find x.positions m).any (fun db => db != dbGone)

/-- The positions of a row whose codewords nothing can read any more: members that programmed it and were emptied and erased (R217). -/
def Stitch.goneAt (x : Stitch) (row : Nat) : BitVec 18 :=
  ((List.range 16).filter (fun m => (Tab.find x.positions m) == some dbGone && decide (row < x.next m))).foldl
    (fun v m => v ||| BitVec.ofNat 18 (2 ^ m)) 0

/-- Rows that need a parity row: pages that some member has programmed. -/
def Stitch.pages (x : Stitch) : Nat := maximum ((x.filled).map x.next)

/-- Whether row `p` has all the parity that is left to it (R211, R214). -/
def Stitch.rowDone (x : Stitch) (p : Nat) : Bool :=
  let r := Tab.get x.rows p 0
  (r.getLsbD 0 || x.pLost) && (r.getLsbD 1 || x.qLost)

/-- The stitch is CLOSED when every filled member has closed and the parity rows of their pages have programmed; one
sealed at mount, whose rows without parity stay bare, closes with its members (R213, R214). -/
def Stitch.settle (x : Stitch) : Stitch :=
  if x.st = .filling ∧ x.openMask = 0 ∧ (x.bare ∨ (List.range x.pages).all x.rowDone) then { x with st := .closed } else x

/-- Settles a stitch; once it is CLOSED its P and Q are open no more (R209, R213). -/
def State.settleAt (s : State) (i : Nat) : State :=
  let x := Tab.get s.blocks.stitches i Stitch.init
  if x.settle.st = x.st then s
  else [16, 17].foldl (fun s m =>
    match Tab.find x.positions m with
    | some db =>
      if (s.dbRec db).st = .opened then (s.updDb db (fun r => { r with st := .closed })).append (.block 3 (dbDie db) (dbBlock db) 15 0 []) else s
    | none => s) (s.setStitch i x.settle)

/-- A member closes at its present LAST_PAGE (R213). -/
def State.closeMember (s : State) (i m : Nat) : State :=
  let x := Tab.get s.blocks.stitches i Stitch.init
  match Tab.find x.positions m with
  | none => s
  | some db =>
    if !x.isOpen m then s
    else
      let x := { x with openMask := x.openMask &&& ~~~BitVec.ofNat 16 (2 ^ m), order := x.order.filter (fun j => j != m) }
      let s := (s.setStitch i x).updDb db (fun r => { r with st := if r.st = .opened then .closed else r.st })
      (s.append (.block 3 (dbDie db) (dbBlock db) 15 0 [])).settleAt i

/-- Seals a stitch: every open member closes, and the stream opens a new one; `bare` is set at mount, after which no parity is
programmed for its rows (R214). -/
def State.sealStitch (s : State) (i : Nat) (bare : Bool := false) : State :=
  let x := Tab.get s.blocks.stitches i Stitch.init
  let s := s.setStitch i { x with sealed := true, bare := x.bare || bare }
  let s := x.filled.foldl (fun s m => s.closeMember i m) s
  let s := (x.filled.filter x.holds).foldl (fun s m =>
    match Tab.find x.positions m with | some db => s.updDb db (fun r => r.setFlag pbSealed) | none => s) s
  s.settleAt i

/-- The position of a stitch that still has its parity, to which a die-block belongs (R138, R218). -/
def State.memberOf (s : State) (db : Nat) : Option (Nat × Nat) :=
  (s.blocks.stitches.filter (fun e => e.2.st != .releasing)).findSome? (fun e => ((List.range 18).find? (fun m => Tab.find e.2.positions m == some db)).map (fun m => (e.1, m)))

/-- Forces a die-block: the skiver empties it (R219), and it leaves the refresh queue (Table 6.4). FORCED sets on the plane-blocks that serve the planes given. -/
def State.force (s : State) (db : Nat) (planes : List Nat := [0, 1, 2, 3]) : State :=
  let b := s.blocks
  let s := if b.forced.contains db then s
    else (s.setBlocks { b with forced := b.forced ++ [db], refreshQ := b.refreshQ.filter (fun x => x != db) }).updDb db (fun r => r.clrFlag pbRefresh)
  planes.foldl (fun s q => s.updPb (s.serving db q) (fun r => r.setFlag pbForced)) s

/-! ### Ends of programs -/

/-- Records the program of a page, by its PROG_AGE, in the records of plane-blocks (R114). -/
def State.notePage (s : State) (ks : List Nat) (page stamp : Nat) : State :=
  ks.foldl (fun s k => s.updPb k (fun r => { r with lastPage := some (Nat.max page (r.lastPage.getD 0))
                                                    openAge := if page = 0 then stamp else r.openAge
                                                    closeAge := stamp })) s

/-- The plane-blocks of the group that a program has come to. -/
def Program.present (p : Program) : List Nat :=
  match p.groups with | (b, ps) :: _ => ps.map (fun q => pbKey p.die q b) | [] => []

/-- A page of a die-block has programmed: its records keep the page's PROG_AGE. Brand rows lie in plane 0 alone (R49). -/
def State.notePages (s : State) (p : Program) : State :=
  let ks := match p.present with
    | [k] => if pbBlock k = 1039 then [k] else s.servingAll (s.servedBy k)
    | k :: _ => s.servingAll (s.servedBy k)
    | [] => []
  s.notePage ks p.page ((p.stamp.map (fun a => a.1)).getD 0)

/-- A START failed: every plane-block in its mask is to be retired (R226). -/
def State.markFailed (s : State) (p : Program) : State :=
  p.present.foldl (fun s k => s.updPb k (fun r => { r with reason := if r.reason = 0 then 1 else r.reason })) s

/-- The line of a write-back whose page has programmed: clean, or at the tail under REDIRTY (R252), where an allocation that waits for its
way releases it (R254). -/
def State.lineWritten (s : State) (leaf : Nat) : State :=
  match s.lineAt leaf with
  | none => s
  | some (w, l) =>
    if !l.wbBusy then s
    else
      let list := s.cache.dirtyList.filter (fun k => k != w)
      if l.redirty then
        let l' := { l with wbBusy := false, redirty := false, named := l.named || s.actsWt l.wt }
        let s := { s with tacks := s.tacks.map (fun (e : Nat × Tack) => if e.2.wait == TackWait.victim w && e.2.op != TackOp.lineOp then (e.1, { e.2 with wait := .way }) else e) }
        let s := s.setLine w l'
        s.setCache { s.cache with dirtyList := list ++ [w], ageDue := s.cache.ageDue && s.cache.dirtyList.head? != some w }
      else
        let s := s.setLine w { l with wbBusy := false, redirty := false, dirty := 0, named := false }
        s.setCache { s.cache with dirtyList := list, ageDue := if s.cache.dirtyList.head? = some w then false else s.cache.ageDue }

/-- The leaves of a member program that passed join the updater's queue (R187, R221). -/
def State.leavesWritten (s : State) (p : Program) (stitch member : Nat) : State :=
  let x := Tab.get s.blocks.stitches stitch Stitch.init
  match Tab.find x.positions member with
  | none => s
  | some db =>
    let refresh := match p.offers with | e :: _ => e.2.sub == 2 | [] => false
    let x := { x with lastPage := Tab.put x.lastPage member p.page
                      refreshRows := x.refreshRows.filter (fun r => r != p.page) ++ (if refresh then [p.page] else []), order := x.order.filter (fun j => j != member) ++ [member] }
    let s := s.setStitch stitch x
    let s := p.offers.foldl (fun s e =>
      let o := e.2
      let a := mla (p.die / 8) (p.die % 8) (e.1 / 8) (pbBlock (s.serving db (e.1 / 8))) p.page (e.1 % 8)
      let i : MapItem := { leaf := o.leaf, ctx := o.ctx, addr := BitVec.ofNat 36 a, sub := o.sub, source := o.source, tack := o.tack }
      let s := s.setXlat { s.xlat with queue := s.xlat.queue ++ [i] }
      match o.tack with
      | some k => ((s.lineWritten o.leaf).updTack k (fun t => { t with wait := .switch, pg := none })).count 0x0D { cls := none, ctx := none, ch := none } false
      | none => s) s
    let b := s.blocks
    let t := b.totals
    let n := p.offers.map (fun e => e.2.sub)
    let t := { t with hostPages := t.hostPages + (if n.contains 0 then 1 else 0), copyPages := t.copyPages + (if n.contains 1 then 1 else 0)
                      refreshPages := t.refreshPages + (if n.contains 2 then 1 else 0) }
    let s := s.setBlocks { b with totals := t }
    let s := if p.page = 1023 then s.closeMember stitch member else s
    s.settleAt stitch

/-- A member program that failed: its member closes, is forced and marked, and the leaves are offered again (R222,
R226, R252). -/
def State.leavesFailed (s : State) (p : Program) (stitch member : Nat) : State :=
  let x := Tab.get s.blocks.stitches stitch Stitch.init
  match Tab.find x.positions member with
  | none => s
  | some db =>
    let s := (s.closeMember stitch member).force db
    let os := p.offers.map (fun e => e.2)
    let s := os.foldl (fun s o => match o.tack with | some k => s.updTack k (fun t => { t with pg := none }) | none => s) s
    let b := s.blocks
    s.setBlocks (if x.copy then { b with copyOffers := os ++ b.copyOffers } else { b with hostOffers := os ++ b.hostOffers })

/-- A parity page has programmed or failed (R211, R214). -/
def State.parityEnded (s : State) (stitch row : Nat) (second fail : Bool) : State :=
  let x := Tab.get s.blocks.stitches stitch Stitch.init
  let pos := if second then 17 else 16
  if fail then
    let x := if second then { x with qLost := true } else { x with pLost := true }
    ((s.setStitch stitch x).sealStitch stitch).releaseIf stitch
  else
    let rows := Tab.put x.rows row (Tab.get x.rows row 0 ||| (if second then 2#2 else 1#2))
    ((s.setStitch stitch { x with rows := rows, lastPage := Tab.put x.lastPage pos row }).settleAt stitch).releaseIf stitch

/-- Both copies of a segment image have programmed: the directory and the segment table take it, SEG_LOC is appended,
and the slot is CLEAN when no record came after the image (R182, R184). -/
def State.segmentWritten (s : State) (g : Nat) : State :=
  match Tab.find s.xlat.segWrites g with
  | none => s
  | some w =>
    if !(w.doneA && w.doneB) || s.lineHeld (lineOf g) then s
    else
      let e := s.entry g
      let s := s.setXlat { s.xlat with segWrites := Tab.del s.xlat.segWrites g }
      if !e.bound || e.ctx != w.image.ctx then s
      else
        let x := s.xlat
        let s := s.setXlat { x with images := Tab.put (Tab.put x.images w.primary.toNat w.image) w.mirror.toNat w.image
                                    segTable := Tab.put x.segTable g (w.mirror, w.imageRseq) }
        let s := s.append (.segLoc e.ctx g w.primary w.mirror w.imageRseq false)
        match s.segSlot g with
        | none => if e.st = .inMedia then s.setEntry g { e with loc := w.primary } else s
        | some sl =>
          let clean := sl.firstDirty.isNone
          let sl := { sl with st := if clean then .clean else .dirty, primary := w.primary, mirror := w.mirror, imageRseq := w.imageRseq }
          (s.setXlat { s.xlat with slots := Tab.put s.xlat.slots e.loc.toNat sl }).setEntry g { e with dirty := !clean }

/-- One copy of a program of segment images has ended (R184): a failed program is repeated at a new location. -/
def State.segmentsEnded (s : State) (ids : List Nat) (second : Bool) : State :=
  ids.foldl (fun s g =>
    let ws := Tab.change s.xlat.segWrites g (fun w => if second then { w with doneB := true } else { w with doneA := true })
    (s.setXlat { s.xlat with segWrites := ws }).segmentWritten g) s

/-- The next group of a program or erase, or none (R207). -/
def Program.advance (p : Program) : Program := { p with groups := p.groups.drop 1, loaded := 0, started := false }

/-! ### Map-area pages (R167, R206) -/

/-- The online die, in ascending order and outside an octet, that has a map-area die-block being filled or can open one:
the segment writer's choice (log 22). -/
def State.mapDie (s : State) (notOctet : Option Nat) : Option Nat :=
  ((s.ctl.filter (fun e => e.2.online && !s.leavingDie e.1 && some (e.1 / 64) != notOctet)).map (fun e => e.1)).find? (fun d =>
    (Tab.find s.xlat.mapFill d).isSome || (s.leastWorn d).isSome)

/-- Takes a die-block out of its heap; one that a blank device has not used is erased first, in the same step (R390). -/
def State.takeBlank (s : State) (db : Nat) : State :=
  if !s.isBlank db then s
  else
    let ks := s.servingAll db
    let s := s.eraseNow ks (fun r => { r with st := .free })
    s.append (.block 1 (dbDie db) (dbBlock db) 15 0 (ks.map (fun k => (s.pb k).erases)))

/-- The next map-area page of a die: the state, the die-block and the page. A full die-block gives way to a new one. -/
def State.mapPage (s : State) (d : Nat) : State × Option (Nat × Nat) :=
  match Tab.find s.xlat.mapFill d with
  | some (b, p) =>
    let fill := if p = 1023 then Tab.del s.xlat.mapFill d else Tab.put s.xlat.mapFill d (b, p + 1)
    (s.setXlat { s.xlat with mapFill := fill }, some (dbKey d b, p))
  | none =>
    match s.leastWorn d with
    | none => (s, none)
    | some db =>
      let s := (s.takeBlank db).updDb db (fun r => { r with st := .map })
      let s := s.append (.block 0 d (dbBlock db) 15 2 ((s.servingAll db).map (fun k => (s.pb k).erases)))
      let s := s.setXlat { s.xlat with mapFill := Tab.put s.xlat.mapFill d (dbBlock db, 1) }
      (s.checkSpace, some (db, 0))

/-- Codewords 8p to 8p + 7 of a segment image in plane `p` (R166). -/
def SegImage.codewords (i : SegImage) (p : Nat) : Tab PageCw :=
  (List.range 8).map (fun c =>
    let bs := (List.range 512).flatMap (fun n => le 8 (Tab.get i.leaves (512 * c + n) LeafEntry.init).word)
    (8 * p + c, PageCw.own .mapSegment i.index i.ctx i.count bs))

/-- One copy of a program of up to four segment images. The state, and the address of the first when it has a page. -/
def State.writeImages (s : State) (is : List SegImage) (second : Bool) (notOctet : Option Nat) : State × Option (Nat × Nat) :=
  match s.mapDie notOctet with
  | none => (s, none)
  | some d =>
    match s.mapPage d with
    | (s, some (db, page)) =>
      let cws := ((List.range is.length).zip is).flatMap (fun e => e.2.codewords e.1)
      let (s, _) := s.spawnProgram .segWrite engSegment (some .map) db page cws (.segments (is.map (fun i => i.index)) second)
      (s, some (db, page))
    | (s, none) => (s, none)

/-- The segment writer takes images of up to four DIRTY segments and writes both copies (R167, R184). A segment whose
leaves are all UNMAPPED is dropped instead. One whose line is being rebuilt waits (R175). -/
def State.writeSegments (s : State) (gs : List Nat) : State :=
  let gs := gs.filter (fun g => !s.lineHeld (lineOf g))
  let (drop, keep) := gs.partition (fun g => match s.segSlot g with | some sl => sl.empty | none => false)
  let s := drop.foldl (fun s g =>
    let e := s.entry g
    (s.append (.segLoc e.ctx g 0 0 s.nextRseq true)).dropSegment g s.nextRseq) s
  let is := keep.filterMap (fun g => (s.segSlot g).map (fun sl =>
    { index := g, ctx := (s.entry g).ctx, count := Tab.get s.xlat.imageCount g 0 + 1, leaves := sl.leaves : SegImage }))
  if is.isEmpty then s
  else
    let rseq := s.nextRseq
    match s.writeImages is false none with
    | (s, none) => s
    | (s, some (dbA, pageA)) =>
      match s.writeImages is true (some (dbDie dbA / 64)) with
      | (s, none) => s
      | (s, some (dbB, pageB)) =>
        let addr := fun (s : State) (db page q : Nat) =>
          BitVec.ofNat 36 (mla (dbDie db / 8) (dbDie db % 8) q (pbBlock (s.serving db q)) page 0)
        ((List.range is.length).zip is).foldl (fun s e =>
          let g := e.2.index
          let d := s.entry g
          match s.segSlot g with
          | none => s
          | some sl =>
            let w : SegWr := { image := e.2, imageRseq := rseq, oldFirst := sl.firstDirty, primary := addr s dbA pageA e.1
                               mirror := addr s dbB pageB e.1, doneA := false, doneB := false }
            let sl := { sl with st := .writing, firstDirty := none }
            s.setXlat { s.xlat with slots := Tab.put s.xlat.slots d.loc.toNat sl, segWrites := Tab.put s.xlat.segWrites g w
                                    imageCount := Tab.put s.xlat.imageCount g e.2.count }) s

/-- A failed copy of a program of segment images is repeated at a new location (R184). -/
def State.segmentsFailed (s : State) (ids : List Nat) (second : Bool) : State :=
  let is := ids.filterMap (fun g => (Tab.find s.xlat.segWrites g).map (fun w => w.image))
  let other := ids.findSome? (fun g => (Tab.find s.xlat.segWrites g).map (fun w => (if second then w.primary else w.mirror).toNat / 2 ^ 32))
  match s.writeImages is second other with
  | (s, none) => s
  | (s, some (db, page)) =>
    ((List.range is.length).zip is).foldl (fun s e =>
      let a := BitVec.ofNat 36 (mla (dbDie db / 8) (dbDie db % 8) e.1 (pbBlock (s.serving db e.1)) page 0)
      s.setXlat { s.xlat with segWrites := Tab.change s.xlat.segWrites e.2.index (fun w => if second then { w with mirror := a } else { w with primary := a }) }) s

/-- The next welt program of a die: none when its stream has ended (R193 step 5). -/
def State.weltNext (s : State) (die : Nat) : State :=
  match s.xlat.run with
  | some (.image w erasing streams) =>
    match Tab.find streams die with
    | some (j, page) =>
      if erasing.any (fun db => dbDie db == die) ∨ 2048 ≤ page then s
      else
        let db := dbKey die (1024 + 2 * flag w.setB + page / 1024)
        (s.spawnProgram .weltWrite engWelt (some .wlt) db (page % 1024) (w.codewords s.dev.unitId.toNat s.blocks.blank j)
          (.welt j (decide (8 ≤ die / 8)))).1
    | none => s
  | _ => s

/-- A welt program has ended: the stream takes its next, or the same one again at the next die-page (R193 step 5). -/
def State.weltEnded (s : State) (die j : Nat) (fail : Bool) : State :=
  match s.xlat.run with
  | some (.image w erasing streams) =>
    match Tab.find streams die with
    | some (n, page) =>
      let next := if fail then n else n + 8
      let streams := if n = j then (if next < weltPrograms then Tab.put streams die (next, page + 1) else Tab.del streams die) else streams
      (s.setXlat { s.xlat with run := some (.image w erasing streams) }).weltNext die
    | none => s
  | _ => s

/-- Programs row `r` of the brand group that a die is writing (R49, R123): plane 0 of block 1,039, page 16g + r. -/
def State.spawnBrandRow (s : State) (die r : Nat) : State :=
  let page := 16 * (s.age die).groups + r
  let p : Program := { s.programOf (dbKey die 1039) page [] (.brand die r) with groups := [(1039, [0])] }
  let t := Tack.engine .brandWrite engBrand (pageRef die 1039 page) true
  (s.ask { t with wait := .program, pg := some p, media := BitVec.ofNat 36 (mla (die / 8) (die % 8) 0 1039 page 0) }).1

/-- Begins the next brand group of a die; with all 64 written, the refresh of block 1,039 does (R49). Without its plane-block there is none. -/
def State.writeBrand (s : State) (die : Nat) : State :=
  if (s.pb (pbKey die 0 1039)).st = .retired then s
  else if 64 ≤ (s.age die).groups then s.spawnSystemErase engBrand (dbKey die 1039) else s.spawnBrandRow die 0

/-- An erase in the system band has ended; planes that failed to erase, or failed a program before, are retired (R226). What the erase was for follows: a
welt set's programs, group 0 of block 1,039 (R49), a boot record, or a copy. -/
def State.systemErased (s : State) (db : Nat) (failed : List Nat) : State :=
  let die := dbDie db
  let ks := ((List.range 4).filter (fun q => systemUse die q (dbBlock db) && !failed.contains q)).map (fun q => pbKey die q (dbBlock db))
  let s := s.erasedPbs ks (fun st => st)
  let b := s.blocks
  let s := s.setBlocks { b with erasing := b.erasing.filter (fun x => x != db), totals := { b.totals with erases := b.totals.erases + ks.length } }
  let s := s.append (.block 1 die (dbBlock db) (BitVec.ofNat 4 (total (ks.map (fun k => 2 ^ pbPlane k)))) 0
    ((List.range 4).map (fun q => (s.pb (pbKey die q (dbBlock db))).erases)))
  let lost := (List.range 4).any (fun q => let r := s.pb (pbKey die q (dbBlock db)); systemUse die q (dbBlock db) && (r.reason != 0 || r.st == .retired))
  let s := s.retireMarked db
  if dbBlock db = 1039 then
    let s := s.setBlocks { s.blocks with refreshQ := s.blocks.refreshQ.filter (fun x => x != db) }
    (s.setAge die { s.age die with groups := 0 }).spawnBrandRow die 0
  else if dbBlock db < 1028 then
    match s.xlat.run with
    | some (.image w erasing streams) =>
      (s.setXlat { s.xlat with run := some (.image w (erasing.filter (fun x => x != db)) streams) }).weltNext die
    | _ => s
  else s.imageErased db lost

/-- An erase has ended: the next group, its planes alone when it failed (R207, R226), or what the erase was for. -/
def State.eraseEnded (s : State) (k : Nat) (t : Tack) (p : Program) (fail : Bool) (db : Nat) (system : Bool) : State :=
  let alone := fun (q : Nat) => p.loaded.getLsbD q
  let mark := fun (qs : List Nat) (at' : Nat) => qs.foldl (fun (v : BitVec 32) q => v ||| BitVec.ofNat 32 (2 ^ (at' + q))) p.loaded
  let p' : Program :=
    match p.groups with
    | (b, ps) :: rest =>
      if fail && !ps.all alone then { p with groups := ps.map (fun q => (b, [q])) ++ rest, started := false, loaded := mark ps 0 }
      else { p with groups := rest, started := false, loaded := if fail then mark ps 4 else p.loaded }
    | [] => p
  let s := if fail && p'.groups.length < p.groups.length then
      p.present.foldl (fun s j => s.updPb j (fun r => { r with reason := 2 })) s
    else s
  if p'.groups.isEmpty then
    let failed := (List.range 4).filter (fun q => p'.loaded.getLsbD (4 + q))
    if system then (s.retire k).systemErased db failed else (s.retire k).eraseDone db failed
  else (s.setTack k { t with pg := some p' }).startErase k p'

/-- A program or erase of a tack has ended: the next group, or what its page was for (R76, R207). -/
def State.programEnded (s : State) (k : Nat) (t : Tack) (p : Program) (fail : Bool) : State :=
  let page := fun (next : State → State) =>
    let p' := p.advance
    if !fail && !p'.groups.isEmpty then s.updTack k (fun t => { t with pg := some p' })
    else
      let s := s.updTack k (fun t => { t with pg := none })
      next (if fail then s.markFailed p else s.notePages p)
  match p.what with
  | .erase db => s.eraseEnded k t p fail db false
  | .eraseSystem db => s.eraseEnded k t p fail db true
  | .leaves i m => page (fun s =>
      let s := if fail then s.leavesFailed p i m else s.leavesWritten p i m
      if t.op = .leafWriteback then s else s.retire k)
  | .parity i row q => page (fun s => (s.retire k).parityEnded i row q fail)
  | .segments ids q => page (fun s => if fail then (s.retire k).segmentsFailed ids q else (s.retire k).segmentsEnded ids q)
  | .journal n q => page (fun s =>
      let s := s.retire k
      if fail then
        match s.xlat.pages.find? (fun pg => pg.jseq == n && pg.epoch == s.xlat.epoch) with
        | some pg => s.writeJournal pg q
        | none => s
      else s.journalProgrammed n q)
  | .welt j _ => page (fun s => (s.retire k).weltEnded p.die j fail)
  | .brand die row => page (fun s =>
      let s := s.retire k
      if row = 15 then s.setAge die { s.age die with groups := (s.age die).groups + 1, cBrand := (s.age die).counter }
      else s.spawnBrandRow die (row + 1))
  | .image p n => page (fun s => (s.retire k).imageEnded p n fail)
  | .boot p => page (fun s => (s.retire k).bootEnded p fail)
  | .renew n => page (fun s => (s.retire k).renewEnded (dbKey p.die (match p.groups with | g :: _ => g.1 | [] => 0)) n fail)

/-- A program or an erase of a die that can no longer end: a program fails, a loading one too (R222); an erase leaves its lists (R228). -/
def State.programOff (s : State) (k : Nat) (t : Tack) (p : Program) : State :=
  match p.what with
  | .erase db =>
    let s := (s.retire k).leaveStitch db
    s.setBlocks { s.blocks with erasing := s.blocks.erasing.filter (fun x => x != db), jobs := s.blocks.jobs.filter (fun j => j.db != db)
                                forced := s.blocks.forced.filter (fun x => x != db) }
  | .eraseSystem db => (s.retire k).setBlocks { (s.retire k).blocks with erasing := (s.retire k).blocks.erasing.filter (fun x => x != db) }
  | _ => s.programEnded k t p true

/-- Programs and erases of a die that can no longer end; those that wait for a slot are none any more. -/
def State.programsOff (s : State) (die : Nat) : State :=
  let on := fun (t : Tack) => match t.pg with | some p => p.die == die | none => false
  let waiting := s.unborn.filter on
  let s := { s with unborn := s.unborn.filter (fun t => !on t) }
  let s := waiting.foldl (fun s t => match t.pg with | some p => s.programOff 65536 t p | none => s) s
  (s.tacks.filter (fun e => on e.2)).foldl (fun s e =>
    match (Tab.find s.tacks e.1).bind (fun t => t.pg.map (fun p => (t, p))) with
    | some (t, p) => if p.die = die then s.programOff e.1 t p else s
    | none => s) s

end Sys2Proof.Machine
end

