-- ==== Sys2Proof/Machine/Units.lean ====
section
/-! DEFINITION. Units that leave service (R228), uncorrectable codewords and their leaves (R142, R143, R145), and the
drift refresh queue (R99, R141, R224). -/

namespace Sys2Proof.Machine

/-! ### Finding leaves -/

/-- Every leaf entry of the map: those of resident slots, and those of images of the other segments. -/
def State.mapEntries (s : State) : List (Nat × LeafEntry) :=
  s.xlat.dir.flatMap (fun e =>
    let ls := match e.2.st with
      | .resident => (match Tab.find s.xlat.slots e.2.loc.toNat with | some sl => sl.leaves | none => [])
      | .inMedia => (match s.imageOf e.1 with | some i => i.leaves | none => [])
      | .absent => []
    ls.map (fun l => (e.1 * 4096 + l.1, l.2)))

/-- The host leaf of a segment in the cache that is MAPPED at an address (R143). -/
def State.leafIn (s : State) (g : Nat) (a : MediaAddr) : Option Nat :=
  (s.segSlot g).bind (fun sl => (sl.leaves.find? (fun e => e.2.st == .mapped && e.2.addr == a)).map (fun e => g * 4096 + e.1))

/-- Looks segments through for an address (R143): those in the cache at once, another by its SEG_READ. The leaf if it is found, and the
segments still to be looked at. -/
def State.lookFor (s : State) (a : MediaAddr) (gs : List Nat) : State × Option Nat × List Nat :=
  match gs with
  | [] => (s, none, [])
  | g :: rest =>
    if (s.entry g).st = .inMedia then (if s.lineHeld (lineOf g) then s else s.spawnSegRead g false none, none, gs)
    else match s.leafIn g a with
      | some l => (s, some l, [])
      | none => s.lookFor a rest

/-- The die-block that an address belongs to (R203). -/
def State.dbOf (s : State) (a : MediaAddr) : Nat := s.servedBy (planeBlock a.toNat)

/-! ### Uncorrectable codewords (R142, R143, R145) -/

/-- The codeword `a` of a SEG_READ has ended (R181): a failed one of the primary is read from the mirror, one that failed in both
marks the read POISON, and the next of those left follows. On a die where it has waited or climbed it keeps programs and erases off until its
last data phase from there (R140). A page that its die still holds is not sensed again (R88). -/
def State.segNext (s : State) (k : Nat) (t : Tack) (r : MediaRead) (ok : Bool) : State :=
  let mirror := match t.segment? with | some g => (Tab.get s.xlat.segTable g (0, 0)).1 | none => 0
  let slot := BitVec.ofNat 36 (r.addr.toNat % 8)
  let again := !ok && r.addr == t.media + slot && mirror != 0 && mirror != t.media
  let rest := if again then r.rest ++ [mirror + slot] else r.rest
  let t := if !ok && !again then t.setFlag fPoison else t
  match rest with
  | [] => s.setTack k { t with rd := none }
  | a :: more =>
    let d := s.die (dieOf a)
    let same := a.toNat / 8 == r.addr.toNat / 8 && t.retry == 0 && !(d.st == .sense || d.qSense.isSome)
      && (match d.done with
          | some x => x.sense.kind == .page && x.sense.block == bits a.toNat 13 11 && x.sense.page == bits a.toNat 3 10
              && x.sense.planes.getLsbD (bits a.toNat 24 2)
          | none => false)
    s.setTack k { t with retry := 0, rd := some { r with addr := a, rest := more, phase := if same then .ready else .queued, hist := false
                                                         histTaken := none, noAge := false, repeats := 0
                                                         waited := dieOf a == dieOf r.addr && (r.waited || decide (1 ≤ t.retry)) } }

/-- A burnish read has ended (R216). -/
def State.burnishEnded (s : State) (a : MediaAddr) (bad : Bool) : State :=
  s.setBlocks { s.blocks with burnishing := s.blocks.burnishing.map (fun e => if e.2.holds a then (e.1, e.2.ended a bad) else e) }

/-- A scrub read has ended; a die-block all of whose samples have been read leaves the patrol, and the commands that wait for it
(R225). -/
def State.scrubEnded (s : State) (a : MediaAddr) : State :=
  let xs := s.blocks.scrubbing.map (fun e => if e.2.holds a then (e.1, e.2.ended a false) else e)
  let done := (xs.filter (fun e => e.2.over)).map (fun e => e.2.db)
  let s := s.setBlocks { s.blocks with scrubbing := xs.filter (fun e => !e.2.over) }
  if done.isEmpty then s
  else s.setCmdq { s.cmdq with cmds := s.cmdq.cmds.map (fun (c : Cmd) =>
    match c.step with | .scrub dbs => { c with step := .scrub (dbs.filter (fun x => !done.contains x)) } | _ => c) }

/-! ### Reads of brand rows (R125, R130, R132) -/

/-- Asks for the rows of a die's newest brand group that are still to be read: BRAND_HIST tacks, drawing as DRF (R125, Table 1.4). -/
def State.brandOn (s : State) (die : Nat) : State :=
  match (s.age die).brandRun with
  | none => s
  | some b =>
    b.toRead.foldl (fun s r =>
      let a := BitVec.ofNat 36 (mla (die / 8) (die % 8) 0 1039 (16 * ((s.age die).groups - 1) + r) 0)
      match s.birth ((Tack.engine .brandHist engBrand (pageOfAddr a.toNat) true).reads a) (some (die / 8)) with
      | (s, some _) =>
        s.setAge die { s.age die with brandRun := (s.age die).brandRun.map (fun x => { x with toRead := x.toRead.erase r, waiting := x.waiting ++ [r] }) }
      | (s, none) => s) s

/-- Begins the reads of a die's newest group. -/
def State.brandBegin (s : State) (die : Nat) : State :=
  (s.setAge die { s.age die with brandRun := some { toRead := List.range 16, waiting := [], rows := [] } }).brandOn die

/-- Whether all reads of a run have ended. -/
def BrandRun.over (b : BrandRun) : Bool := b.toRead.isEmpty && b.waiting.isEmpty

/-- The result of a reassessment of a die whose reads have ended (R132); no counter changes. -/
def State.reassessed (s : State) (die : Nat) : State :=
  let a := s.age die
  let rows := match a.brandRun with | some b => b.rows | none => []
  let s := match (if a.groups = 0 then none else dieEstimate s.drift.profile.version a.band rows) with
    | none => s.setAge die { a with unpow := 0xFFFFFFFF, reassessed := true, brandRun := none, brandState := if a.groups = 0 then a.brandState else 3 }
    | some l => s.setAge die { a with unpow := unpowered (brandAge l) a.counter a.cBrand / 256, reassessed := true, brandRun := none, brandState := 2 }
  if s.drift.dies.any (fun e => e.2.brandRun.isSome && !e.2.provisional) || s.drift.reassessQ.any (fun d => (s.ctlOf d).online) then s else { s with drift := { s.drift with reassessing := false } }

/-- A row of a brand group has been read, or gives nothing (R125); a reassessment of the die ends with its last row (R132). -/
def State.brandRow (s : State) (a : MediaAddr) (h : Option (List Nat)) : State :=
  let die := dieOf a
  let x := s.age die
  match x.brandRun with
  | some b =>
    let b := { b with waiting := b.waiting.filter (fun r => r != bits a.toNat 3 10 % 16), rows := b.rows ++ h.toList }
    let s := s.setAge die { x with brandRun := some b }
    if b.over && s.drift.reassessing && !x.provisional then s.reassessed die else s
  | none => s

/-- A member or parity read of a step 7 has failed (R138). -/
def State.memberLost (s : State) (t : Tack) (a : MediaAddr) : State :=
  match t.parent, s.memberOf (s.dbOf a) with
  | some p, some (_, m) =>
    s.updTack p (fun t => { t with rd := t.rd.map (fun r => { r with lost := r.lost ||| BitVec.ofNat 18 (2 ^ m) }) })
  | _, _ => s

/-- A codeword is uncorrectable (R143): it is counted, and its plane-block is to be retired (R226). -/
def State.countLost (s : State) (a : MediaAddr) : State :=
  let s := s.bump rDriftUncorr 0 32 1
  let s := s.updLife (dieOf a) (fun l => { l with uncorrectable := l.uncorrectable + 1 })
  s.updPb (planeBlock a.toNat) (fun r => { r with reason := if r.reason = 0 then 4 else r.reason })

/-- The event of an uncorrectable codeword, with the leaf that it held (R143). -/
def State.logLost (s : State) (k : Nat) (a : MediaAddr) (leaf : Option Nat) : State :=
  let c := match leaf with | some l => (s.entry (granuleOf l)).ctx.toNat | none => 0
  s.event portCore 0x0403 (s.diePath (dieOf a)) (le 5 (leaf.getD 0x3FFFFFFFF) ++ le 2 c ++ le 5 a.toNat) k

/-- A leaf stored on a unit that is being emptied or salvaged was lost: it counts among the unit's holes (R228, R237). -/
def State.holedOn (s : State) (die : Nat) : State :=
  s.setBlocks { s.blocks with leaving := s.blocks.leaving.map (fun u =>
    if decide (u.first ≤ die) && decide (die < u.first + u.count) then { u with holes := u.holes + 1 } else u) }

/-- A leaf whose codeword `a` was lost: POISONED while it is mapped there (R142, R143, R145). -/
def State.loseLeaf (s : State) (a : MediaAddr) (leaf reason : Nat) : State :=
  ((s.poisonLeaf leaf reason (some a)).dropStale leaf).holedOn (dieOf a)

/-- A search has ended: the event, the leaf that was found, and the job that waits for the codeword (R143). -/
def State.endSearch (s : State) (x : Search) (leaf : Option Nat) : State :=
  let s := s.setXlat { s.xlat with searches := s.xlat.searches.filter (fun y => y != x) }
  let s := if x.reason = 2 then s else s.logLost x.tack x.addr leaf
  let s := match leaf with | some l => s.loseLeaf x.addr l x.reason | none => s
  let b := s.blocks
  s.setBlocks { b with jobs := b.jobs.map (fun (j : Job) => { j with waiting := j.waiting.filter (fun y => y != x.addr.toNat) }) }

/-- The searches of the map go on as far as they can. -/
def State.searchOn (s : State) : State :=
  s.xlat.searches.foldl (fun s x =>
    match s.lookFor x.addr x.rest with
    | (s, none, g :: r) => s.setXlat { s.xlat with searches := s.xlat.searches.map (fun y => if y = x then { y with rest := g :: r } else y) }
    | (s, leaf, _) => s.endSearch x leaf) s

/-- The search for the leaf of a codeword begins (R143); in the system band no host leaf is stored. -/
def State.searchLost (s : State) (k : Nat) (a : MediaAddr) (reason : Nat) : State :=
  let gs := if 1024 ≤ bits a.toNat 13 11 then [] else (s.xlat.dir.filter (fun e => e.2.st != .absent)).map (fun e => e.1)
  (s.setXlat { s.xlat with searches := s.xlat.searches ++ [{ addr := a, reason := reason, tack := k, rest := gs }] }).searchOn

/-- A read ends without data: its leaf is poisoned with a reason, and whoever waits for it goes on (R142, R143, R145).
A read for an engine searches the map for its leaf. A lost codeword of a segment is read from the mirror (R181); one of a step 7
counts as missing there (R138). -/
def State.readLost (s : State) (k : Nat) (t : Tack) (a : MediaAddr) (reason : Nat) : State :=
  match t.op with
  | .parityRead => (s.memberLost t a).retire k
  | .burnishRead => (s.burnishEnded a true).retire k
  | .brandHist => (s.brandRow a none).retire k
  | .segRead =>
    let s := if reason = 2 then s else (s.countLost a).logLost k a none
    (match t.rd with | some r => s.segNext k t r false | none => s)
  | op =>
    let host := op == .hostRead || op == .sectorFill || op == .prefetch
    let s := if reason = 2 then s else s.countLost a
    if host then
      let s := (if reason = 2 then s else s.logLost k a (some t.leaf.toNat)).loseLeaf a t.leaf.toNat reason
      if op = .hostRead ∧ ¬ t.draining then s.deliver k [] true else s.retire k
    else
      let s := if s.renewing a then s.renewRead a true else if op = .scrubRead then s.scrubEnded a else s
      (s.retire k).searchLost k a reason

/-! ### Units (R228) -/

/-- Dies of a unit: `n` dies from `first`. -/
def unitDies (first n : Nat) : List Nat := (List.range n).map (fun i => first + i)

/-- Closes the open members on a die (R213). -/
def State.closeOpen (s : State) (d : Nat) : State :=
  let on := s.blocks.stitches.flatMap (fun e => (e.2.filled.filter (fun m => e.2.isOpen m
    && ((Tab.find e.2.positions m).map dbDie) == some d)).map (fun m => (e.1, m)))
  on.foldl (fun s e => s.closeMember e.1 e.2) s

/-- A die goes offline: its open members close, its programs count as failed (R78, R213, R222). -/
def State.dieOff (s : State) (d : Nat) : State :=
  let s := s.setCtl d { s.ctlOf d with online := false, running := none, awaiting := false, reinit := none }
  let s := (s.programsOff d).closeOpen d
  if d % 192 = 0 then s.positionOff d else s

/-- Whether a die-block is the P or Q of a stitch: it holds no leaf, and the skiver has nothing to read from it. -/
def State.isParity (s : State) (db : Nat) : Bool := (s.memberOf db).any (fun e => decide (16 ≤ e.2))

/-- Die-blocks of a unit that hold data, in order. Parity die-blocks are no victims: they leave with the unit (DEDUCED, log 74). -/
def State.dataBlocks (s : State) (first n : Nat) : List Nat :=
  ((s.blocks.pbs.filter (fun e => decide (first ≤ pbDie e.1) && decide (pbDie e.1 < first + n))).map (fun e => s.servedBy e.1)).dedup.filter
    (fun db => decide (dbBlock db < 1024) && s.holdsData db && !s.isParity db)

/-- The unit path of a unit by its level and first die. -/
def State.unitPathOf (s : State) (level first : Nat) : Nat :=
  match level with | 0 => s.diePath first | 1 => s.channelPath (first / 8) | 2 => s.octetPath (first / 64) | _ => s.devicePath

def Leaving.holds (u : Leaving) (die : Nat) : Bool := decide (u.first ≤ die) && decide (die < u.first + u.count)

def State.setLeaving (s : State) (us : List Leaving) : State := s.setBlocks { s.blocks with leaving := us }

/-- The leaves of a segment that lie on a unit are lost with it: POISONED, with reason OFFLINE (R228). -/
def State.sweepSegment (s : State) (u : Leaving) (g : Nat) : State :=
  match s.segSlot g with
  | none => s
  | some sl =>
    let ls := (sl.leaves.filter (fun e => e.2.st == .mapped && u.holds (dieOf e.2.addr))).map (fun e => g * 4096 + e.1)
    let s := ls.foldl (fun s l => (s.poisonLeaf l 3).dropStale l) s
    s.setLeaving (s.blocks.leaving.map (fun x => if x.first = u.first ∧ x.count = u.count then { x with holes := x.holes + ls.length } else x))

/-- Takes the sweep of a unit as far as it can go (R228): the segments in the cache at once, the others by their SEG_READs, one at a time.
True when none is left. -/
def State.sweepOn (s : State) (u : Leaving) (gs : List Nat) : State × Bool :=
  match gs with
  | [] => (s, true)
  | g :: rest =>
    match (s.entry g).st with
    | .inMedia =>
      let s := s.spawnSegRead g false none
      (s.setLeaving (s.blocks.leaving.map (fun x => if x.first = u.first ∧ x.count = u.count then { x with sweep := some gs } else x)), false)
    | _ => (s.sweepSegment u g).sweepOn u rest

/-- The plane-blocks of a unit are retired: BLOCK records and events (R226). -/
def State.retireUnitPbs (s : State) (u : Leaving) : State :=
  let reason := if u.fault then 6 else 5
  (unitDies u.first u.count).foldl (fun s d =>
    if (s.ctlOf d).retired || (s.ctlOf d).lost then s
    else
      let s := (List.range 1040).foldl (fun s b =>
        let s := s.append (.block 2 d b 15 0 [])
        (List.range 4).foldl (fun s q => s.event portCore 0x0602 (s.diePath d) (le 2 b ++ le 1 q ++ le 1 reason)) s) s
      let c := s.ctlOf d
      s.setCtl d { c with online := false, retired := c.retired || !u.fault, lost := c.lost || u.fault }) s

/-- The end of a unit's emptying or salvage, after the sweep: its plane-blocks are retired, and the event is logged (R228). -/
def State.endUnit (s : State) (u : Leaving) : State :=
  let n := match s.blocks.leaving.find? (fun x => x.first == u.first && x.count == u.count) with | some x => x.holes | none => u.holes
  let s := s.retireUnitPbs u
  let b := s.blocks
  let s := s.setBlocks { b with leaving := b.leaving.filter (fun x => !(x.first == u.first && x.count == u.count))
                                forced := b.forced.filter (fun db => !u.holds (dbDie db)), refreshQ := b.refreshQ.filter (fun db => !u.holds (dbDie db)) }
  let s := s.event portCore 0x0604 (s.unitPathOf u.level u.first) (le 1 (flag u.fault) ++ le 8 n)
  let s := s.setCmdq { s.cmdq with cmds := s.cmdq.cmds.map (fun c =>
    if c.step == .retire u.level u.first u.count then { c with holed := n, code := if n = 0 then stSuccess else stPartial } else c) }
  s.checkSpace

/-- Ends the units whose forced die-blocks have all been emptied, once the sweep has read every segment. -/
def State.endUnits (s : State) : State :=
  s.blocks.leaving.foldl (fun s u =>
    if s.blocks.forced.any (fun db => u.holds (dbDie db)) then s
    else
      match s.sweepOn u (u.sweep.getD (s.xlat.dir.map (fun e => e.1))) with
      | (s, true) => s.endUnit u
      | (s, false) => s) s

/-- A unit that faulted goes offline: its stitched members are forced victims, read through step 7 (R228). -/
def State.faultUnit (s : State) (level first n : Nat) : State :=
  let dies := (unitDies first n).filter (fun d => (s.ctlOf d).online)
  if dies.isEmpty then s
  else
    let s := dies.foldl State.dieOff s
    let s := ((s.dataBlocks first n).filter (fun db => (s.memberOf db).isSome)).foldl (fun s db => s.force db) s
    let u : Leaving := { level := level, first := first, count := n, fault := true, holes := 0, sweep := none }
    ((s.setLeaving (s.blocks.leaving ++ [u])).checkSpace).endUnits

/-! ### Data ages (R99, R157, R224) -/

/-- Die-blocks of online dies that hold data, the system band's among them. -/
def State.agingBlocks (s : State) : List Nat :=
  ((s.blocks.pbs.filter (fun e => (s.ctlOf (pbDie e.1)).online)).map (fun e => s.servedBy e.1)).dedup.filter s.holdsData

/-- Whether drift refresh renews a die-block: one of the pool, or a firmware copy, boot record or profile block (R225). -/
def refreshable (db : Nat) : Bool :=
  decide (dbBlock db < 1024) || (decide (1032 ≤ dbBlock db) && decide (dbBlock db < 1039) && systemUse (dbDie db) 0 (dbBlock db))

/-- Queues the die-blocks whose data age has reached 0.8 of the refresh age and judges the integrity overrides (R99, R224). -/
def State.checkAges (s : State) : State :=
  if !s.mounted then s
  else
    let s := (s.agingBlocks.filter (fun db => refreshable db && decide (8 * s.refreshAge ≤ 10 * s.dataAge db))).foldl State.queueRefresh s
    (List.range 96).foldl State.checkOverride s

end Sys2Proof.Machine
end

