-- ==== Sys2Proof/Machine/Opcodes.lean ====
section
/-! DEFINITION. The opcode table (Tables 10.7 and 10.8): levels, states, ports, aborts, contexts and result lengths; and the
changes of DEV_STATE that act on commands in progress (R338). -/

namespace Sys2Proof.Machine

/-- Abort behaviour (R346): only before its start, at a point, never. -/
inductive AbortKind where
  | q | p | n
  deriving DecidableEq, Repr

/-- Use on the service port: refused, accepted, accepted also in STANDBY. -/
inductive SvcUse where
  | no | y | s
  deriving DecidableEq, Repr

/-- A row of Tables 10.7 and 10.8. `states` lists HELD, MOUNTING, SERVING, MAINTENANCE, FAULT; `top` is the highest unit-path
level accepted; `min` is the smallest RESULT_LEN; `lock` marks the opcodes of a context-locked pair (R337). -/
structure OpRow where
  code : Nat
  top : Option Nat
  states : BitVec 5
  admin : Bool
  svc : SvcUse
  abort : AbortKind
  ctx : Bool
  min : Option Nat
  lock : Bool

def opRow (code : Nat) (top : Option Nat) (states : BitVec 5) (admin : Bool) (svc : SvcUse) (abort : AbortKind) (ctx : Bool)
    (min : Option Nat) (lock : Bool := false) : OpRow :=
  { code := code, top := top, states := states, admin := admin, svc := svc, abort := abort, ctx := ctx, min := min, lock := lock }

def opRowsA : List OpRow :=
  [opRow 0x01 none 0b11111 false .s .q false (some 128) true, opRow 0x02 none 0b11111 false .s .q false (some 64) true,
   opRow 0x03 (some 4) 0b11111 false .y .q false (some 264), opRow 0x04 none 0b11111 false .y .q false none,
   opRow 0x05 none 0b01100 true .y .q false none, opRow 0x06 none 0b01100 true .y .q false none,
   opRow 0x07 none 0b01100 true .y .n false (some 128), opRow 0x08 none 0b11111 false .y .n false none true,
   opRow 0x10 none 0b01100 true .no .q true none, opRow 0x11 none 0b01100 true .no .q true none,
   opRow 0x12 none 0b01100 true .no .q true none, opRow 0x13 none 0b01100 false .y .q true (some 48) true,
   opRow 0x14 none 0b01100 true .no .q true none, opRow 0x15 none 0b01100 true .no .n true none,
   opRow 0x20 none 0b01100 false .no .p true (some 64) true, opRow 0x21 none 0b01100 true .no .q false none,
   opRow 0x22 none 0b01100 true .no .n false none, opRow 0x23 none 0b01110 false .y .q false (some 64) true,
   opRow 0x30 none 0b01100 false .no .p true (some 16) true, opRow 0x31 none 0b01100 false .no .p true (some 16) true,
   opRow 0x32 none 0b01100 false .no .q true (some 24) true, opRow 0x33 none 0b01100 false .no .q true none true,
   opRow 0x34 none 0b01100 false .no .q true none true, opRow 0x35 none 0b01100 false .no .q true (some 64) true,
   opRow 0x36 none 0b01100 true .y .q false none]

def opRowsB : List OpRow :=
  [opRow 0x40 (some 3) 0b01100 false .y .p false (some 32), opRow 0x41 (some 3) 0b01100 false .y .p false (some 32),
   opRow 0x42 (some 3) 0b01100 false .y .p false (some 32), opRow 0x43 (some 2) 0b01100 true .y .n false (some 32),
   opRow 0x44 (some 2) 0b01000 true .y .n false (some 32), opRow 0x45 (some 3) 0b01100 false .y .q false (some 128),
   opRow 0x46 (some 3) 0b01100 false .y .q false (some 128), opRow 0x50 none 0b11110 false .s .q false (some 64),
   opRow 0x51 none 0b01100 true .y .n false (some 64), opRow 0x52 none 0b01100 true .y .q false none,
   opRow 0x60 none 0b11111 false .s .q false (some 16), opRow 0x61 none 0b01001 true .s .q false none,
   opRow 0x62 none 0b01001 true .s .n false none, opRow 0x63 none 0b11111 false .s .q false (some 24),
   opRow 0x64 none 0b01101 true .s .q false none, opRow 0x70 none 0b11111 false .y .q false none,
   opRow 0x71 none 0b11111 false .y .q false (some 184), opRow 0x72 none 0b11111 false .y .q false none,
   opRow 0x73 none 0b11111 false .s .q false (some 48), opRow 0x74 none 0b11111 true .s .q false none,
   opRow 0x80 none 0b01100 true .y .p false none, opRow 0x81 none 0b11111 false .y .q false (some 64),
   opRow 0x82 none 0b01100 true .y .n false none, opRow 0x83 none 0b01100 true .y .q false none,
   opRow 0x90 none 0b01100 true .y .q false none, opRow 0x91 none 0b01100 true .y .q false none,
   opRow 0x92 none 0b01100 false .y .q false (some 64)]

def opRows : List OpRow := opRowsA ++ opRowsB

/-- The row of an opcode; none when it is reserved (R341). -/
def opRowOf (code : Nat) : Option OpRow := opRows.find? (fun r => r.code == code)

/-- Legality by DEV_STATE (Table 10.7). -/
def OpRow.legal (r : OpRow) (st : DevState) : Bool :=
  match st with
  | .held => r.states.getLsbD 0
  | .mounting => r.states.getLsbD 1
  | .serving => r.states.getLsbD 2
  | .maintenance => r.states.getLsbD 3
  | .fault => r.states.getLsbD 4
  | _ => false

/-- Legality of a packet from a port in the present state (R347: in STANDBY, POWERING, CINCH and POWERING_DOWN the service port
serves the S opcodes). -/
def State.legalNow (s : State) (r : OpRow) (port : Port) : Bool :=
  match port with
  | .sq _ => r.legal s.dev.state
  | .svc =>
    match s.dev.state with
    | .standby | .powering | .cinch | .poweringDown => r.svc == .s
    | st => r.legal st

/-- A transition that no command asked for has taken effect: a command still in progress that asks for one completes with
STATE_CONFLICT, and its completion shows the new state (R32, log 63). -/
def State.crossedCommands (s : State) : State :=
  s.cmdq.cmds.foldl (fun s c => if c.opcode = 0x05 ∨ c.opcode = 0x06 then s.finish c stState 0 none else s) s

/-- Commands in progress when DEV_STATE enters FAULT: those that Table 10.7 does not accept there end with INTERNAL_ERROR
(R338). -/
def State.faultCommands (s : State) : State :=
  s.cmdq.cmds.foldl (fun s c =>
    match opRowOf c.opcode with
    | some r => if r.legal .fault then s else s.finish c stInternal 0 none
    | none => s) s

/-- Commands in progress when DEV_STATE enters CINCH post no completion (R338). -/
def State.cinchCommands (s : State) : State :=
  s.setCmdq { s.cmdq with cmds := s.cmdq.cmds.map (fun c => { c with posts := false }) }

end Sys2Proof.Machine
end

