-- ==== Sys2Proof/Machine/Params.lean ====
section
/-! DEFINITION. The parameters of Tables 6.6 and 9.8 as the store holds them, and the values in force (R236, R320). -/

namespace Sys2Proof.Machine

/-- Whether the device's main domains have power. -/
def State.powered (s : State) : Bool := s.dev.state != .standby

/-- The stored value of a parameter: that of the parameter record whose PARAM_ID is `id` (Table 13.3). -/
def State.stored (s : State) (id : Nat) : Option Nat :=
  (List.range 256).findSome? (fun i =>
    match s.store.record (recParam0 + i) with
    | some p => if ofLe (p.take 2) = id then some (ofLe ((p.drop 8).take 8)) else none
    | none => none)

/-- The stored value of a parameter, or its default. -/
def State.param (s : State) (id dflt : Nat) : Nat := (s.stored id).getD dflt

/-- The record that a write of a parameter takes: its own, or the first free one (Table 13.3). -/
def State.paramRecord (s : State) (id : Nat) : Option Nat :=
  let own := (List.range 256).find? (fun i =>
    match s.store.record (recParam0 + i) with | some p => decide (ofLe (p.take 2) = id) | none => false)
  match own with
  | some i => some (recParam0 + i)
  | none => ((List.range 256).find? (fun i => (s.store.record (recParam0 + i)).isNone)).map (fun i => recParam0 + i)

/-- Stores a parameter. -/
def State.setParam (s : State) (id v : Nat) : State :=
  match s.paramRecord id with
  | some r => s.save r (le 2 id ++ zeros 6 ++ le 8 v)
  | none => s

/-- BL_POLICY (Table 6.6). -/
def State.blPolicy (s : State) : Nat := s.param 0x0600 0

/-- SKV_START, SKV_STOP and SCRUB_HOURS in force (Tables 6.6, 6.7). -/
def State.skvStart (s : State) : Nat :=
  match s.blPolicy with | 0 => 47186 | 1 => 31458 | 2 => 78644 | _ => s.param 0x0601 47186
def State.skvStop (s : State) : Nat :=
  match s.blPolicy with | 0 => 62915 | 1 => 39322 | 2 => 110101 | _ => s.param 0x0602 62915
def State.scrubHours (s : State) : Nat :=
  match s.blPolicy with | 0 => 168 | 1 => 672 | 2 => 84 | _ => s.param 0x0603 168
def State.burnishLimit (s : State) : Nat := s.param 0x0604 40
def State.scrubLimit (s : State) : Nat := s.param 0x0605 96
def State.stitchSkew (s : State) : Nat := s.param 0x0606 8
def State.wbPadUs (s : State) : Nat := s.param 0x0607 200
def State.blBudget (s : State) : Nat := s.param 0x0608 800

/-- HARNESS_PERIOD and HARNESS_LOST in force (Table 9.8). -/
def State.harnessPeriod (s : State) : Nat := s.param 0x0900 10
def State.harnessLost (s : State) : Nat := s.param 0x0901 3

end Sys2Proof.Machine
end

