-- ==== Sys2Proof/Machine/Recorder.lean ====
section
/-! DEFINITION. Commands of the event recorder and its clocks: EVENT_GRANT, OP_SECONDS_TICK, OP_SECONDS_SAVE,
EVT_OVERFLOW_SAVE, EVT_WIN_READ, and the interrupt controller's CLAIM, EOI and SOFT_SET. -/

namespace Sys2Proof.Machine

/-- The event arbiter grants one queued event (R407-R411). -/
def execEventGrant (s : State) : Host.Outcome State Fault Refusal :=
  match s.store.nextEvent with
  | none => s.done s
  | some (p, e, q) =>
    let st := { s.store with ports := Tab.put s.store.ports p q, nextPort := (p + 1) % 16 }
    s.done ((s.setStore st).recordEvent e)

/-- One operating second, in every state except STANDBY (R403); the always-on clock counts it too, and in STANDBY the seconds since entry
(R128, R133). -/
def execOpSecondsTick (s : State) : Host.Outcome State Fault Refusal :=
  s.done (if s.dev.state = .standby then { s with power := { s.power with aonSeconds := s.power.aonSeconds + 1, dark := s.power.dark + 1 } }
    else { s with store := { s.store with opSeconds := s.store.opSeconds + 1 }
                  power := { s.power with aonSeconds := s.power.aonSeconds + 1 } })

/-- Writes OP_SECONDS, every 60 s in every state except STANDBY (R403). -/
def execOpSecondsSave (s : State) : Host.Outcome State Fault Refusal :=
  s.done (if s.dev.state = .standby then s else s.save recOpSeconds (le 8 s.store.opSeconds))

/-- Writes EVT_OVERFLOW to record 0x0005 when it has changed (R411). -/
def execEvtOverflowSave (s : State) : Host.Outcome State Fault Refusal :=
  s.done (if s.store.evOverflowDirty then
      (s.setStore { s.store with evOverflowDirty := false }).save recEvtOverflow (le 8 s.store.evOverflow)
    else s)

/-- An aligned 32-bit read of EVT_WIN (R416); an offset outside the window, or unaligned, is no such read. -/
def execEvtWinRead (off : BitVec 24) (s : State) : Host.Outcome State Fault Refusal :=
  if s.barOpen = true ∧ 0xD4000 ≤ off.toNat ∧ off.toNat ≤ 0xD7FFF ∧ off.toNat % 4 = 0 then
    let (v, bad) := s.evtWord off.toNat
    let s' := s.emit (.regRead off.toNat v)
    s.done (if bad then (s'.setBit rPstoreStatus 2).bump rPstoreUncorr 0 32 1 else s')
  else s.done s

/-! ### Interrupt controller -/

/-- A claim by host target `t` (R420, R421). -/
def State.claim (s : State) (t : Nat) : State × Nat :=
  let x := Tab.get s.intc.targets t Target.init
  match s.bestRoute t x.runPrio with
  | some (id, r) =>
    let x' := { x with stack := x.runPrio :: x.stack, runPrio := r.prio, notified := false }
    let r' := { r with edge := false, active := true, activeAt := t }
    ({ s with intc := { s.intc with targets := Tab.put s.intc.targets t x', host := Tab.put s.intc.host id r' } }, id)
  | none =>
    if x.notified then
      let s' := { s with intc := { s.intc with targets := Tab.put s.intc.targets t { x with notified := false } } }
      (s'.bump rIntcStatus 16 16 1, 511)
    else (s, 0)

def execClaim (t : Fin 64) (s : State) : Host.Outcome State Fault Refusal :=
  let (s', id) := s.claim t
  s.done (if s.barOpen then s'.emit (.regRead (0x22000 + 32 * t.val) id) else s)

/-- An EOI to host target `t` (R422); an EOI of 511 is ignored (R421). -/
def State.eoi (s : State) (t id : Nat) : State :=
  let x := Tab.get s.intc.targets t Target.init
  if id = 511 then s
  else match Tab.find s.intc.host id, x.stack with
    | some r, p :: rest =>
      if r.active && r.activeAt == t then
        let x' := { x with runPrio := p, stack := rest }
        { s with intc := { s.intc with targets := Tab.put s.intc.targets t x'
                                       host := Tab.put s.intc.host id { r with active := false } } }
      else
        ({ s with intc := { s.intc with targets := Tab.put s.intc.targets t { x with eoiErr := true } } }).bump
          rIntcStatus 0 16 1
    | _, _ =>
      ({ s with intc := { s.intc with targets := Tab.put s.intc.targets t { x with eoiErr := true } } }).bump
        rIntcStatus 0 16 1

def execEoi (t : Fin 64) (v : Word) (s : State) : Host.Outcome State Fault Refusal :=
  s.done (if s.barOpen then s.eoi t (bits v.toNat 0 9) else s)

/-- A write of INTC_SOFT_SET: an edge on a source of 320-508; any other ID is ignored (R424). -/
def State.softSet (s : State) (id : Nat) : State := if 320 ≤ id ∧ id ≤ 508 then s.raise id else s

def execSoftSet (v : Word) (s : State) : Host.Outcome State Fault Refusal :=
  s.done (if s.barOpen then s.softSet (bits v.toNat 0 9) else s)

end Sys2Proof.Machine
end

