-- ==== Sys2Proof/Machine/Window.lean ====
section
/-! DEFINITION. The memory window and CXL.mem: reads, writes, flush reads, the watchdog, errors of requests (R280-R292,
R296). -/

namespace Sys2Proof.Machine

/-- A request without storage faults. -/
def AccessEv.none : AccessEv := { dirCrc := false, sectors := [] }

/-- Raises the directory CRC errors that a request meets (R172); a corrupt entry is one of its line (R169). -/
def State.meetDirError (s : State) (r : HostReq) : State :=
  match r.granules.find? (fun g => (s.entry g).corrupt) with
  | some g => s.dirError (lineOf g) 0
  | none =>
    match r.granules with
    | g :: _ => if r.ev.dirCrc then s.dirError (lineOf g) 0 else s
    | [] => s

/-- Takes a request in arrival order (R281): what can be born is born. -/
def State.enqueue (s : State) (r : HostReq) : State :=
  let s := (s.meetDirError r).strike r.ev.struck
  (s.setCache { s.cache with requests := s.cache.requests ++ [r] }).advance

/-- Whether the memory window decodes a request: not in D3hot; through BAR2/3 only with Memory Space Enable set and inside the
BAR's size (R275, R277, R278). -/
def State.decodes (s : State) (r : HostReq) : Bool :=
  !s.host.d3hot && (r.cxl || (s.host.memSpace && decide (r.addr.toNat + r.len ≤ 2 ^ s.host.barBits)))

/-- A read request, by state (Table 8.6). Under CXL.mem an error is data with Poison set (R292). -/
def State.takeRead (s : State) (r : HostReq) : State :=
  if !s.host.up then s
  else if !s.decodes r then s.failRead r .unsupported
  else match s.dev.state with
    | .serving | .maintenance | .cinch => s.enqueue r
    | .fault => s.failRead r .abort
    | _ => s.failRead r .unsupported

/-- A write request, by state (Table 8.6). -/
def State.takeWrite (s : State) (r : HostReq) : State :=
  if !s.host.up then s
  else if r.poison then (if r.cxl then s else s.aer .poisoned (r.header s)).sendCredit r.addr r.cxl
  else if !s.decodes r then (if r.cxl then s else s.aer .unsupportedWrite (r.header s)).sendCredit r.addr r.cxl
  else match s.dev.state with
    | .serving | .maintenance | .cinch => s.enqueue r
    | .fault => s.refuseWrite r 0 true
    | _ => s.refuseWrite r 0 false

def execMemoryWindowRead (addr : HostAddr) (len : Nat) (tag : BitVec 14) (ev : AccessEv) (s : State) :
    Host.Outcome State Fault Refusal :=
  s.done (s.takeRead { write := false, addr := addr, len := len, tag := tag, data := [], poison := false, cxl := false, ev := ev })

def execMemoryWindowWrite (addr : HostAddr) (data : List Byte) (ep : Bool) (ev : AccessEv) (s : State) :
    Host.Outcome State Fault Refusal :=
  s.done (s.takeWrite { write := true, addr := addr, len := data.length, tag := 0, data := data, poison := ep, cxl := false, ev := ev })

/-- A zero-length read (R285): ordered as any read, 4 zero bytes, and for a write-through context a flush. -/
def execZeroLengthRead (addr : HostAddr) (tag : BitVec 14) (s : State) : Host.Outcome State Fault Refusal :=
  s.done (s.takeRead { write := false, addr := addr, len := 0, tag := tag, data := [], poison := false, cxl := false
                       ev := AccessEv.none })

/-- A BAR0 access of another length or alignment (R280). -/
def execBar0BadAccess (write : Bool) (tag : BitVec 14) (s : State) : Host.Outcome State Fault Refusal :=
  s.done (if !s.barOpen then s
    else if write then s.bump rHpRefused 0 16 1
    else (s.emit (.cpl tag.toNat .unsupported [])).aerFree .unsupported)

/-- The DPA of a host physical address through one decoder: the address bits that select the interleave way drop out (R292). -/
def Hdm.dpa (d : Hdm) (hpa : Nat) : Option Nat :=
  let off := hpa - d.hpa.toNat
  if d.hpa.toNat ≤ hpa ∧ off < d.size.toNat * d.ways then some (d.base.toNat + off / (d.gran * d.ways) * d.gran + off % d.gran) else none

/-- The DPA that the committed decoders give a host physical address. -/
def State.dpaOf (s : State) (hpa : Nat) : Option Nat := s.host.decoders.findSome? (fun e => e.2.dpa hpa)

/-- CXL.mem reads 64 bytes (R292). Without the CXL personality there is no such request; an address that no decoder holds gives data with
Poison (log 70). -/
def execCxlMemRd (hpa : BitVec 64) (tag : BitVec 14) (ev : AccessEv) (s : State) : Host.Outcome State Fault Refusal :=
  let r : HostReq := { write := false, addr := 0, len := 64, tag := tag, data := [], poison := false, cxl := true, ev := ev }
  s.done (if s.host.cxl && s.host.up then
      match s.dpaOf hpa.toNat with
      | some a => s.takeRead { r with addr := BitVec.ofNat 46 a }
      | none => s.failRead r .unsupported
    else s)

/-- A CXL.mem write enters the persistence domain at its Cmp, which follows its merge; one that is refused gets its Cmp too (R260,
R292), and so does one to an address that no decoder holds (log 70). -/
def execCxlMemWr (hpa : BitVec 64) (data : List Byte) (poison : Bool) (ev : AccessEv) (s : State) :
    Host.Outcome State Fault Refusal :=
  let r : HostReq := { write := true, addr := 0, len := data.length, tag := 0, data := data, poison := poison, cxl := true, ev := ev }
  s.done (if s.host.cxl && s.host.up then
      match s.dpaOf hpa.toNat with
      | some a => s.takeWrite { r with addr := BitVec.ofNat 46 a }
      | none => s.sendCredit (BitVec.ofNat 46 hpa.toNat) true
    else s)

/-- MemSpecRd is a PREFETCH hint that the device may drop (R292). -/
def execCxlMemSpecRd (hpa : BitVec 64) (taken : Bool) (s : State) : Host.Outcome State Fault Refusal :=
  s.done (match s.dpaOf hpa.toNat with
    | some a =>
      if s.host.cxl && taken && s.cache.enabled && (s.dev.state == .serving || s.dev.state == .maintenance) then
        let t := { Tack.engine .prefetch engRange (leafOf a) false with wait := .leaf }
        match s.birth t none with
        | (s, some k) => s.tryPrefetch k
        | (s, none) => s
      else s
    | none => s)

/-! ### Watchdog and deadlines (R15, R289) -/

/-- Whether a die operation still refers to a tack (Table 1.6). -/
def Tack.onDie (t : Tack) : Bool :=
  match t.rd with | some r => r.phase == .sensing || r.phase == .decoding | none => false

/-- Whether a tack owns a data phase that runs. -/
def State.ownsPhase (s : State) (k : Nat) : Bool := s.arbs.any (fun e => e.2.grant == some k)

/-- A read that is abandoned during its ladder leaves a SCRUB_READ of its page behind (R144). -/
def State.rescrub (s : State) (t : Tack) (r : MediaRead) : State :=
  if t.op = .hostRead ∨ t.op = .prefetch then
    let x := (Tack.engine .scrubRead engBurnish (pageOfAddr r.addr.toNat) true).reads r.addr
    (s.ask { x with rd := some { r with phase := .queued, hist := false, histTaken := none, repeats := 0, waited := false
                                        members := [], lost := 0, rest := [] } }).1
  else s

/-- The children of a step 7 end with their parent's: one on a die drains (R18). -/
def State.dropMembers (s : State) (k : Nat) : State :=
  (s.tacks.filter (fun e => e.2.op == .parityRead && e.2.parent == some k && !e.2.draining)).foldl (fun s e =>
    let ch := match e.2.rd with | some r => chanOf r.addr | none => 0
    let s := s.withdraw ch e.1
    if e.2.onDie || s.ownsPhase e.1 then s.setTack e.1 { e.2 with draining := true } else s.retire e.1) s

/-- A tack leaves service: DRAINING while a die operation refers to it, else it retires (R18). A draw it has won gives a dead slot
(R96), and its page is read again by the scrubber (R144). -/
def State.drain (s : State) (k : Nat) : State :=
  match Tab.find s.tacks k with
  | none => s
  | some t =>
    let s := match t.rd with | some r => ((s.rescrub t r).withdraw (chanOf r.addr) k).dropMembers k | none => s
    if t.onDie || s.ownsPhase k then s.setTack k { t with draining := true } else s.retire k

/-- The watchdog of a read that has no tack yet: it is answered with poison and never born (R156, R289). -/
def State.watchUnborn (s : State) (r : HostReq) : State :=
  let s := s.setCache { s.cache with requests := s.cache.requests.erase r }
  let s := r.leaves.foldl (fun s leaf =>
    s.sendPiece { (r.piece leaf) with poison := true } (s.entry (granuleOf leaf)).ctx.toNat { cls := none, ctx := none, ch := none } []) s
  ((s.bump rHpWdog 0 32 1).event portHost 0x0804 s.devicePath (le 8 r.addr.toNat)).advance

/-- At 60 ms the host port answers every byte of a read still without completion with poison, in address order; its
tacks become DRAINING (R289). The watchdog times memory-window and CXL.mem reads only, and not through an activation
pause. Slot 0xFFFF, in which no host read can stand (R16), means the oldest read that is not yet born (log 48). -/
def execReadWatchdog (slot : BitVec 16) (s : State) : Host.Outcome State Fault Refusal :=
  match Tab.find s.tacks slot.toNat with
  | none =>
    match (if slot = 0xFFFF ∧ s.cache.pause = false then s.cache.requests.find? (fun r => !r.write) else none) with
    | some r => s.done (s.watchUnborn r)
    | none => s.done s
  | some t =>
    match t.req with
    | none => s.done s
    | some r =>
      if t.op = .hostRead ∧ ¬ t.draining ∧ ¬ s.cache.pause then
        let s' := (s.readsOf r.tag).foldl (fun s e =>
          match e.2.req with
          | some p =>
            let s := (s.countOutside e.2).sendPiece { p with poison := true } e.2.origin.code (e.2.tag none) []
            (s.updTack e.1 (fun t => (t.setFlag fAbandoned).setFlag fPoison)).drain e.1
          | none => s) s
        let s' := (s'.bump rHpWdog 0 32 1).event portHost 0x0804 s.devicePath (le 8 r.addr.toNat) slot.toNat
        s.done s'.advance
      else s.done s

/-- A tack's age passes DEADLINE (R15, R301): LATE is set and counted; a late read counts for its context, late L1 and
L2 tacks in DRIFT_LATE. -/
def execTackLate (slot : BitVec 16) (s : State) : Host.Outcome State Fault Refusal :=
  match Tab.find s.tacks slot.toNat with
  | none => s.done s
  | some t =>
    if t.flag fLate ∨ t.deadline = 0xFFFF then s.done s
    else
      let s' := (s.updTack slot.toNat (fun t => t.setFlag fLate)).count 0x03 (t.tag none)
      let s' := if t.cls = 1 then s'.bump rDriftLate 0 16 1 else if t.cls = 2 then s'.bump rDriftLate 16 16 1 else s'
      match t.op, t.origin with
      | .hostRead, .ctx c =>
        let s' := s'.updCtx c.toNat (fun x => { x with late := satAdd 0xFFFFFFFF x.late 1 })
        s.done s'
      | _, _ => s.done s'

/-! ### Errors of requests (R291) -/

def execEcrcError (s : State) : Host.Outcome State Fault Refusal :=
  s.done (if s.host.up then s.aerFree .ecrc else s)

def execMalformedTlp (s : State) : Host.Outcome State Fault Refusal :=
  s.done (if s.host.up then s.aerFree .malformed else s)

/-- AtomicOp and Deferrable Memory Write complete with Unsupported Request (R270, Table 8.8). -/
def execUnsupportedFeatureRequest (tag : BitVec 14) (s : State) : Host.Outcome State Fault Refusal :=
  s.done (if s.host.up then (s.emit (.cpl tag.toNat .unsupported [])).aerFree .unsupported else s)

/-! ### The Global Persistent Flush (R262, R296) -/

/-- A GPF phase 2 request: every dirty line is written back and the open journal page closes; in a state that refuses
writes it is answered at once (R262, R296). -/
def execCxlGpf (s : State) : Host.Outcome State Fault Refusal :=
  if !s.host.cxl then s.done s
  else if s.dev.state ≠ .serving ∧ s.dev.state ≠ .maintenance then s.done (s.emit (.message "GPF response" 0))
  else
    let s' := s.cache.dirtyList.foldl (fun s k => s.flushLine k .gpf) s
    let s' := (s'.setCache { s'.cache with gpf := true }).closePage
    s.done s'.endGpf

/-- A flush still running at 200 ms completes late (R296). -/
def execGpfLate (ms : Word) (s : State) : Host.Outcome State Fault Refusal :=
  s.done (if s.cache.gpf && !s.cache.gpfLate then
      (s.setCache { s.cache with gpfLate := true }).event portHost 0x0805 s.devicePath (le 4 ms.toNat)
    else s)

/-- Where the model puts an HDM decoder's registers in CXLC (log 70): base at 0x00, size at 0x08, control at 0x10, DPA skip at 0x14. -/
abbrev rHdm (i : Nat) : Nat := 0x111110 + 0x20 * i

/-- The commit of an HDM decoder of a DPA range, at the host physical address that its base register holds; a range beyond 64 TiB, or ways or
a granularity not supported, fails to commit (R292). -/
def State.commitHdm (s : State) (i : Nat) (dpaBase size : BitVec 64) (ways gran : Nat) : State :=
  if dpaBase.toNat + size.toNat ≤ 2 ^ 46 ∧ ways ∈ [1, 2, 4, 8] ∧ gran ∈ [256, 512, 1024, 2048, 4096, 8192, 16384] then
    let hpa := BitVec.ofNat 64 (s.reg (rHdm i + 4) * 2 ^ 32 + s.reg (rHdm i))
    let d : Hdm := { hpa := hpa, base := dpaBase, size := size, ways := ways, gran := gran }
    ({ s with host := { s.host with decoders := Tab.put s.host.decoders i d } }).emit (.message "HDM committed" i)
  else s.emit (.message "HDM commit error" i)

/-- HDM_DECODER_COMMIT. -/
def execHdmDecoderCommit (i : Fin 4) (dpaBase : BitVec 64) (size : BitVec 64) (ways : Nat) (gran : Nat) (s : State) :
    Host.Outcome State Fault Refusal :=
  s.done (if s.host.cxl then s.commitHdm i.val dpaBase size ways gran else s)

end Sys2Proof.Machine
end

