-- ==== Sys2Proof/Machine/Sequencer.lean ====
section
/-! DEFINITION. The channel sequencer: senses in rank order (R73-R75), program pages (R76), bus CRC (R77), timeouts (R78),
retraining (R81, R82), alerts (R83, R84), housekeeping windows (R492), and the retry ladder (R134-R146). -/

namespace Sys2Proof.Machine

/-! ### Reference sets of a read (R114-R119, R135-R137) -/

def planeOf (a : MediaAddr) : Nat := bits a.toNat 24 2
def blockOf (a : MediaAddr) : Nat := bits a.toNat 13 11
def pageOf (a : MediaAddr) : Nat := bits a.toNat 3 10
def slotOf (a : MediaAddr) : Nat := a.toNat % 8

/-- The predicted stamp of a page, in units of 64 ticks (R114): the quotient is rounded down, whatever the sign of the difference. -/
def PbRec.stamp (r : PbRec) (page : Nat) : Int :=
  match r.lastPage with
  | none | some 0 => r.openAge
  | some l => r.openAge + ((r.closeAge : Int) - r.openAge) * page / l

/-- The reference set of an address at ladder step 0-3 (R117, R119, R135). -/
def State.readSet (s : State) (a : MediaAddr) (step : Nat) : List Int :=
  let k := dieOf a
  let r := s.pb (planeBlock a.toNat)
  let age := (((s.age k).counter / 256 : Nat) - 64 * r.stamp (pageOf a)).toNat
  let g := (s.learnedAt (groupOf k (planeOf a) (blockOf a))).g
  refSet s.drift.profile.version (classOf s.drift.profile.edges r.erases) (stepAge (logAge age) step) (s.age k).band g
    (bit (s.reg rDriftCtrl) 0)

/-- The set a media read senses with: from step 4 the derived one, or the step-0 set when there is none (R137). -/
def State.senseSet (s : State) (r : MediaRead) (step : Nat) : List Int :=
  if step < 4 then s.readSet r.addr step
  else match r.histTaken with
    | some h => h.map (fun (x : Nat) => (x : Int))
    | none => s.readSet r.addr 0

/-- The kind of sense of a ladder step (Table 4.3). -/
def MediaRead.kind (r : MediaRead) (step : Nat) : SenseKind :=
  if r.hist then .hist else if step = 5 ∨ step = 6 then .soft else .page

/-- DELTA of steps 5 and 6 (R137). -/
def State.deltaOf (s : State) (step : Nat) : Nat :=
  match step with | 5 => s.field rDriftTune 0 6 | 6 => s.field rDriftTune 8 6 | _ => 0

/-! ### Retraining (R81, R82) -/

/-- A channel that holds slots begins to retrain, at the end of its data phase (R82). RETRAIN written to a channel that is not READY has
no effect: R81 says so of RETRAIN_ALL alone (DEDUCED, log 48). -/
def State.wantRetrain (s : State) (ch : Nat) : State :=
  let c := s.chan ch
  if c.st ≠ .ready then s
  else if (s.arbOf ch).grant.isSome then s.setChan ch { c with retrainWant := true }
  else (s.setChan ch { c with st := .retraining, retrainWant := false, retrainTry := 0 }).markOutside (fun r => chanOf r.addr == ch)

/-- The data phase of a channel ends; a retraining that waits for it begins (R67, R82). -/
def State.phaseEnds (s : State) (ch : Nat) : State :=
  let s := s.endPhase ch
  let c := s.chan ch
  if c.retrainWant then
    (s.setChan ch { c with st := .retraining, retrainWant := false, retrainTry := 0 }).markOutside (fun r => chanOf r.addr == ch)
  else s

/-- A bus CRC error on a channel: its event bit and count, and a retraining at 16 within a second, 20,000 conversions (R77, R81). -/
def State.busError (s : State) (ch : Nat) (wr : Bool) : State :=
  let s := (s.setBit (rChEvents ch) (if wr then 3 else 4)).bump (rChBuserr ch) (if wr then 16 else 0) 16 1
  let c := s.chan ch
  let es := (s.power.conv :: c.crcErrors).filter (fun n => decide (s.power.conv - n < 20000))
  if 16 ≤ es.length then (s.setChan ch { c with crcErrors := [] }).wantRetrain ch else s.setChan ch { c with crcErrors := es }

/-! ### Starting programs and erases (R76, R131, R140, R436, R492) -/

/-- A STATUS with CLEAR is owed to a die (R492 item 1). -/
def State.owe (s : State) (ch : Nat) (i : HkItem) : State :=
  let c := s.chan ch
  if c.hk.any (fun e => e.1 == i) then s else s.setChan ch { c with hk := c.hk ++ [(i, 0)] }

/-- Sends START of a program whose LOADs are all done; a rejected one is followed by a STATUS (R76). -/
def State.tryStart (s : State) (k : Nat) (p : Program) : State :=
  match p.groups with
  | [] => s
  | (b, planes) :: _ =>
    if !p.toLoad.isEmpty || p.started || !s.dieFree p.die || !s.maySend p.die then s
    else
      let mod := BitVec.ofNat 6 (total (planes.map (fun q => 2 ^ q)) * 4 + 1)
      let d := (s.die p.die).takeStart mod (BitVec.ofNat 12 b) (BitVec.ofNat 12 p.page) (BitVec.ofNat 12 (s.age p.die).band)
      let s := s.setDie p.die d
      let c := s.ctlOf p.die
      if d.st = .prog then
        (s.setCtl p.die { c with running := some k }).updTack k (fun t => { t with pg := some { p with started := true } })
      else
        ((s.setCtl p.die { c with awaiting := true }).updTack k (fun t => { t with pg := some { p with rejected := true } })).owe
          (p.die / 8) (.statusClear (p.die % 8))

/-- The oldest program or erase of a die starts, when it can. -/
def State.kick (s : State) (die : Nat) : State :=
  match (s.loader die).bind (fun k => (Tab.find s.tacks k).bind (fun t => t.pg.map (fun p => (k, p)))) with
  | some (k, p) => match p.what with | .erase _ | .eraseSystem _ => s.startErase k p | _ => s.tryStart k p
  | none => s

def State.kickChannel (s : State) (ch : Nat) : State := (List.range 8).foldl (fun s d => s.kick (ch * 8 + d)) s

/-! ### Senses (R73-R75) -/

/-- Whether a read of a requester suspends what a die runs (R75). -/
def State.suspends (s : State) (die code : Nat) (guardOver : Bool) : Bool :=
  let d := s.die die
  let (on, reserve) := s.suspPolicy (die / 8) code
  on && (match d.st with
    | .prog => if code = 0 then decide (d.suspCount < 16) else decide (d.suspCount < 16 - reserve)
    | .erase => guardOver
    | _ => false)

/-- The rank of a requester (R74). -/
def rankOf (code : Nat) : Nat := if code = 0 then 0 else if code ≤ 2 then 1 else 2

def State.rank (s : State) (t : Tack) : Nat := rankOf ((s.reinOf t).getD 9)

/-- The media reads on a die that are in a phase, with their tacks. -/
def State.readsOn (s : State) (die : Nat) (p : ReadPhase → Bool) : List (Nat × Tack × MediaRead) :=
  s.tacks.filterMap (fun e => match e.2.rd with
    | some r => if dieOf r.addr = die ∧ p r.phase then some (e.1, e.2, r) else none
    | none => none)

/-- Reads of a die without a predicted age start at step 4 with the whole-range search (R146). -/
def State.startLate (s : State) (die : Nat) : State :=
  if (s.age die).restored then s
  else (s.readsOn die (fun p => p == .queued)).foldl (fun s e =>
    let (k, t, r) := e
    if t.retry < 4 ∧ t.op ≠ .brandHist then
      (s.updTack k (fun t => { t with retry := 4, rd := some { r with noAge := true, hist := true } })).count 0x07
        (t.tag (some (chanOf r.addr)))
    else s) s

/-- Whether a queued read may be sensed now: a cinch past its acceptance starts no host sense (Table 7.8), and a SEG_READ on which
no host tack waits is sensed only while the MAP hint is below 4 (R95). -/
def State.maySense (s : State) (t : Tack) (r : MediaRead) : Bool :=
  s.framesGo && !t.draining && !(s.cache.frozen && t.op == .hostRead)
    && (t.op != .segRead || s.hostAwaits t || decide (s.hint (chanOf r.addr) 2 < 4))

/-- The queued read that a die senses next (R74), of those that `p` admits: by rank, then birth. -/
def State.nextRead (s : State) (die : Nat) (p : Tack → Bool) : Option (Nat × Tack × MediaRead) :=
  (s.readsOn die (fun p => p == .queued)).foldl (fun b e =>
    if !s.maySense e.2.1 e.2.2 || !p e.2.1 then b
    else match b with
      | none => some e
      | some x =>
        let re := s.rank e.2.1
        let rx := s.rank x.2.1
        if re < rx ∨ (re = rx ∧ e.2.1.serial < x.2.1.serial) then some e else some x) none

/-- The queued reads merged into one sense with `x` (R74): the same die, block, page, kind and DELTA, a plane of their own
or the same set; with the set of each plane. -/
def State.merged (s : State) (die : Nat) (x : Nat × Tack × MediaRead) : List Nat × Tab (List Int) :=
  let (_, t0, r0) := x
  (s.readsOn die (fun p => p == .queued)).foldl (fun b e =>
    let (k, t, r) := e
    let q := planeOf r.addr
    let set := s.senseSet r t.retry
    if blockOf r.addr = blockOf r0.addr ∧ pageOf r.addr = pageOf r0.addr ∧ r.kind t.retry = r0.kind t0.retry
        ∧ s.deltaOf t.retry = s.deltaOf t0.retry ∧ s.maySense t r = true then
      match Tab.find b.2 q with
      | none => (b.1 ++ [k], Tab.put b.2 q set)
      | some other => if other = set then (b.1 ++ [k], b.2) else b
    else b) ([], Tab.put [] (planeOf r0.addr) (s.senseSet r0 t0.retry))

/-- Sends the frames of a sense to a die: SUSPEND first when it suspends, SET_REF for each plane, SENSE, and RESUME
behind a held or suspended operation (R75). -/
def Die.takeRead (d : Die) (suspend : Bool) (sets : Tab (List Int)) (x : Sense) : Die :=
  let held := suspend || d.st == .susp
  let d := if suspend then d.takeSuspend else d
  let d := sets.foldl (fun (d : Die) e => d.takeSetRef (BitVec.ofNat 6 (2 ^ e.1 * 4)) (e.2.map (fun v => BitVec.ofNat 12 v.toNat))) d
  let d := d.takeSense x
  if held then d.takeResume else d

/-- Issues the next sense of a die when it may (R74, R75): in IDLE or SUSP the first read, else the first of those whose requester suspends
what the die runs. -/
def State.issueSense (s : State) (die : Nat) (guardOver : Bool) : State :=
  let s := s.startLate die
  let d := s.die die
  let direct := d.st == .idle || d.st == .susp
  match s.nextRead die (fun (t : Tack) => direct || s.suspends die ((s.reinOf t).getD 9) guardOver) with
  | none => s
  | some x =>
    let (_, t0, r0) := x
    let waiting := s.readsOn die (fun p => p == .sensing || p == .ready)
    let suspend := !direct
    let held := waiting.any (fun e => s.ownsPhase e.1 || decide (s.rank e.2.1 ≤ s.rank t0))
    if held then s
    else
      let (ks, sets) := s.merged die x
      let sense : Sense := { kind := r0.kind t0.retry, planes := BitVec.ofNat 4 (total (sets.map (fun e => 2 ^ e.1)))
                             block := blockOf r0.addr, page := pageOf r0.addr, delta := s.deltaOf t0.retry }
      let s := waiting.foldl (fun s e => if e.2.1.draining then s.retire e.1
        else (s.withdraw (die / 8) e.1).updTack e.1 (fun t => { t with rd := some { e.2.2 with phase := .queued } })) s
      let s := s.setDie die (d.takeRead suspend sets sense)
      let s := ks.foldl (fun s k => s.updTack k (fun t =>
        { t with rd := t.rd.map (fun r => { r with phase := .sensing }), senses := t.senses + 1
                 outside := t.outside || !s.inBounds t (die / 8) })) s
      let s := s.markOutside (fun r => dieOf r.addr == die && r.phase == .queued)
      if suspend then (s.updTack x.1 (fun t => t.setFlag fSuspended)).count 0x0C (t0.tag (some (die / 8))) else s

/-! ### The retry ladder (R134-R146) -/

/-- Whether step 7 is available for a codeword: its die-block is stitched and STITCH_STEP is set (R138). -/
def State.stitchStep (s : State) (a : MediaAddr) : Bool :=
  bit (s.reg rDriftCtrl) 4 && (s.memberOf (s.dbOf a)).isSome

/-- The positions of a row that a step 7 reads beside position `own` (R138): members that have programmed the row, and the parity
that stands. -/
def Stitch.others (x : Stitch) (own row : Nat) : List Nat :=
  let r := Tab.get x.rows row 0
  (List.range 18).filter (fun m => m != own && x.holds m
    && (if m < 16 then decide (row < x.next m) else if m = 16 then r.getLsbD 0 else r.getLsbD 1))

/-- Gives birth to the PARITY_READs of a step 7 that are still to be asked for (R138): the same page and slot of each position, for
the requester of the read. -/
def State.askMembers (s : State) (k : Nat) : State :=
  match (Tab.find s.tacks k).bind (fun t => t.rd.map (fun r => (t, r))) with
  | none => s
  | some (t, r) =>
    match s.memberOf (s.dbOf r.addr) with
    | none => s
    | some (i, _) =>
      let x := Tab.get s.blocks.stitches i Stitch.init
      r.members.foldl (fun s m =>
        match Tab.find x.positions m with
        | none => s
        | some db =>
          let q := planeOf r.addr
          let a := BitVec.ofNat 36 (mla (dbDie db / 8) (dbDie db % 8) q (pbBlock (s.serving db q)) (pageOf r.addr) (slotOf r.addr))
          let c := ((Tack.of .parityRead t.origin t.cls (pageOfAddr a.toNat)).setFlag fChild).setFlag fLeafKind
          let c := { c.reads a with rein := t.rein, parent := some k }
          match s.birth c (some (chanOf a)) with
          | (s, some _) => s.updTack k (fun t => { t with rd := t.rd.map (fun r => { r with members := r.members.erase m }) })
          | (s, none) => s) s

/-- A read goes to step 7, or is lost for a reason when that step is unavailable (R138, R143, R145). The reads of a step 7 have none of
their own. -/
def State.toStitch (s : State) (k : Nat) (t : Tack) (r : MediaRead) (reason : Nat) : State :=
  match (if s.stitchStep r.addr && t.op != .parityRead && t.op != .burnishRead then s.memberOf (s.dbOf r.addr) else none) with
  | some (i, m) =>
    let ms := (Tab.get s.blocks.stitches i Stitch.init).others m (pageOf r.addr)
    ((s.updTack k (fun t => { t with retry := 7, rd := some { r with phase := .stitch, members := ms, lost := 0 } })).count 0x07
      (t.tag (some (chanOf r.addr)))).askMembers k
  | none => s.readLost k t r.addr reason

/-- A step failed: the read takes the next one (R134, R137). A DRAINING tack climbs no further (R144), and a burnish read never
climbs (R216). -/
def State.stepFailed (s : State) (k : Nat) (t : Tack) (r : MediaRead) : State :=
  if t.draining then s.retire k
  else if t.op = .burnishRead then s.readLost k t r.addr 1
  else if 6 ≤ t.retry ∨ (4 ≤ t.retry ∧ r.noAge ∧ r.histTaken.isNone) then s.toStitch k t r 1
  else
    let n := t.retry + 1
    (s.updTack k (fun t => { t with retry := n, rd := some { r with phase := .queued, hist := n == 4, repeats := 0 } })).count 0x07
      (t.tag (some (chanOf r.addr)))

/-- Reads queued on an offline die go to step 7 at once (R145). A codeword that has left its die is decoded first. -/
def State.divert (s : State) (die : Nat) : State :=
  (s.readsOn die (fun p => p != .stitch && p != .decoding)).foldl (fun s e =>
    if s.ownsPhase e.1 then s
    else if e.2.1.draining then s.retire e.1
    else s.toStitch e.1 e.2.1 e.2.2 3) s

/-- The key that a read's context deciphers with (R308). -/
def State.readKey (s : State) (t : Tack) : Option Nat :=
  match t.origin with | .ctx c => if (s.ctx c.toNat).enc then some c.toNat else none | .engine _ => none

/-- Whether the trailer of a codeword matches the read (R51, R134): the address always, leaf and context for a read of a host leaf, index,
context and kind for a segment's. Any other read names a codeword and no leaf: its trailer says which leaf it held (R220). -/
def State.trailerOk (s : State) (t : Tack) (r : MediaRead) (c : Option Cell) : Bool :=
  match Cell.decoded c (s.readKey t) with
  | some (_, _, x) =>
    x.addr == r.addr && (match t.op with
      | .hostRead | .sectorFill | .prefetch => x.leaf.toNat == r.leaf.toNat && x.ctx == r.ctx
      | .segRead => x.kind == .mapSegment && some x.leaf.toNat == t.segment? && x.ctx == (s.entry x.leaf.toNat).ctx
      | _ => true)
  | none => false

/-- A copy read by the skiver or drift refresh joins the COPY stream while its leaf is valid there (R220, R224): MAPPED at the address
with the trailer's WRITE_GEN. -/
def State.offerCopy (s : State) (k : Nat) (t : Tack) (r : MediaRead) (c : Option Cell) : State :=
  let s' := s.retire k
  match Cell.decoded c none with
  | none => s'
  | some (data, key, x) =>
    let leaf := x.leaf.toNat
    let live := (s.mapEntries.find? (fun e => e.1 == leaf)).any (fun e => e.2.st == .mapped && e.2.addr == r.addr && e.2.gen == x.gen)
    let b := s'.blocks
    if live then
      let o : Offer := { leaf := leaf, ctx := x.ctx, data := data, key := key, sub := if t.op = TackOp.skvRead then 1 else 2
                         source := some (r.addr, x.gen), tack := none, flush := false }
      s'.setBlocks { b with copyOffers := b.copyOffers ++ [o] }
    else s'.setBlocks { b with jobs := b.jobs.map (fun (j : Job) => { j with waiting := j.waiting.filter (fun x => x != r.addr.toNat) }) }

/-- Marks a line dirty whole, so that write-back stores its leaf anew (R141). -/
def State.dirtyLine (s : State) (leaf : Nat) : State :=
  match s.lineAt leaf with
  | some (w, l) => (s.setLine w { l with dirty := BitVec.allOnes 64, redirty := l.redirty || l.wbBusy }).listDirty w l.wt
  | none => s

/-- A codeword has decoded and passed its checks: whoever reads it takes the data (R243, R134, R141). -/
def State.readDone (s : State) (k : Nat) (t : Tack) (r : MediaRead) (c : Option Cell) : State :=
  let leaf := t.leaf.toNat
  let data := s.cellByte c (s.readKey t)
  match t.op with
  | .hostRead =>
    let off := (t.req.map (fun q => q.addr.toNat % 4096)).getD 0
    let n := (t.req.map HostReq.len).getD 0
    match s.lineAt leaf with
    | some (w, l) =>
      let l := l.fill data
      let s := s.setLine w l
      let s := if t.retry = 7 then s.dirtyLine leaf else s
      if l.poisoned then s.deliver k [] true else s.deliver k (l.bytes off n) false
    | none => s.deliver k ((List.range n).map (fun i => data (off + i))) false
  | .sectorFill | .prefetch =>
    match s.lineAt leaf with
    | some (w, l) => (s.setLine w (l.fill data)).retire k
    | none => s.retire k
  | .skvRead | .refreshRead => if s.renewing r.addr then (s.renewRead r.addr false).retire k else s.offerCopy k t r c
  | .segRead => s.segNext k t r true
  | .scrubRead => (s.scrubEnded r.addr).retire k
  | _ => s.retire k

/-- A success at a ladder step: counts, learning, refresh (R121, R134, R141). A burnish or scrub read keeps the most corrected bits seen
(Table 6.1); a burnish read past BURNISH_LIMIT fails its plane (R216), and a sample beyond step 0 or past SCRUB_LIMIT queues its
die-block for refresh (R225). After a success at step 4 of a read without a predicted age, which had no step 0, G moves by the difference
to the set that step 0 would compute at the die's counter as it stands (DESIGN CHOICE, log 64). -/
def State.stepPassed (s : State) (k : Nat) (t : Tack) (r : MediaRead) (c : Option Cell) (corrected : Nat) (learn : List Int) : State :=
  let die := dieOf r.addr
  let q := groupOf die (planeOf r.addr) (blockOf r.addr)
  let limit := s.field rDriftTune 16 6
  let s := s.bump (rDriftLadder + 4 * t.retry) 0 32 1
  let s := s.updLife die (fun l => { l with corrected := l.corrected + corrected, ladder := l.ladder + (if t.retry = 0 then 0 else 1) })
  let s := if t.op = .burnishRead ∨ t.op = .scrubRead then
      s.updPb (planeBlock r.addr.toNat) (fun x => { x with corrMax := Nat.min 255 (Nat.max x.corrMax corrected) })
    else s
  let sample := t.op == .scrubRead && s.blocks.scrubbing.any (fun e => e.2.holds r.addr)
  let put := fun (s : State) (x : Learned) => { s with drift := { s.drift with learned := Tab.put s.drift.learned q x } }
  let s := if !bit (s.reg rDriftCtrl) 1 then s
    else if t.retry < 4 then put s ((s.learnedAt q).add learn limit)
    else if t.retry = 4 then match r.histTaken with
      | some h => put s ((s.learnedAt q).jump (h.map (fun (x : Nat) => (x : Int))) (s.readSet r.addr 0) limit)
      | none => s
    else s
  let s := if 5 ≤ t.retry ∨ (sample = true ∧ (t.retry ≠ 0 ∨ s.scrubLimit < corrected)) then s.queueRefresh (s.dbOf r.addr) else s
  let s := if t.op = .burnishRead then s.burnishEnded r.addr (decide (s.burnishLimit < corrected)) else s
  s.readDone k t r c

/-! ### Decoders (R139) -/

/-- The reads whose codewords are at a decoder. -/
def State.decoding (s : State) : List (Nat × Tack) :=
  s.tacks.filter (fun e => !s.drift.decodeQ.contains e.1 && (match e.2.rd with | some r => r.phase == .decoding | none => false))

/-- A soft decode is that of step 5 or 6. -/
def Tack.soft (t : Tack) : Bool := t.retry == 5 || t.retry == 6

/-- Codewords that wait take the decoders that are free: those of L1 tacks first, and at most 8 soft decodes at once (R139). -/
def State.admitDecodes (s : State) (fuel : Nat) : State :=
  match fuel with
  | 0 => s
  | n + 1 =>
    let run := s.decoding
    let wait := (s.drift.decodeQ.filterMap (fun k => (Tab.find s.tacks k).map (fun t => (k, t)))).filter (fun e =>
      (match e.2.rd with | some r => r.phase == .decoding | none => false)
        && (!e.2.soft || decide ((run.filter (fun x => x.2.soft)).length < 8)))
    match (if run.length < 24 then (wait.filter (fun e => e.2.cls == 1#2) ++ wait).head? else none) with
    | some (k, _) => State.admitDecodes { s with drift := { s.drift with decodeQ := s.drift.decodeQ.erase k } } n
    | none => s

/-- A codeword reaches the decoders. -/
def State.toDecoder (s : State) (k : Nat) : State :=
  let q := s.drift.decodeQ.erase k ++ [k]
  State.admitDecodes { s with drift := { s.drift with decodeQ := q } } q.length

/-- The zero bits of raw bytes. -/
def zeroBits (bs : List Byte) : Nat := total (bs.map (fun b => ((List.range 8).filter (fun i => !b.getLsbD i)).length))

/-- Whether a codeword is classed as erased (R53): one that nothing has programmed, and raw bytes with at most 64 zero bits. One that was
written is not: its trailer alone has more. A codeword that reads as any value gives what the decode finds. -/
def Cell.erased (c : Option Cell) (found : Bool) : Bool :=
  match c with
  | none => true
  | some (.raw bs) => decide (zeroBits bs ≤ 64)
  | some .anyValue => found
  | some _ => false

/-- What a decode can give (R53). -/
def State.decodeOf (s : State) (a : MediaAddr) (out : DecodeOut) : DecodeOut :=
  if Cell.erased (s.cell a.toNat) (out == .erased) then .erased else if out = .erased then .bad else out

/-- DECODE_DONE: a codeword decode ends (R134, R142). The slots of an XFER repeated under R77 were accounted as wasted then. -/
def execDecodeDone (slot : BitVec 16) (out : DecodeOut) (s : State) : Host.Outcome State Fault Refusal :=
  let k := slot.toNat
  match (Tab.find s.tacks k).bind (fun t => t.rd.map (fun r => (t, r))) with
  | none => s.done s
  | some (t, r) =>
    if r.phase ≠ .decoding ∨ s.drift.decodeQ.contains k then s.done s
    else
      let ch := chanOf r.addr
      let len := slotLength t.soft false
      let acc := fun (s : State) (c : SlotCat) => if r.repeats = 3 then s else s.classify ch len c
      let s' := if t.draining then (acc s .wasted).retire k
        else match s.decodeOf r.addr out with
        | .erased => (acc s .wasted).readLost k t r.addr 2
        | .bad => (acc s .wasted).stepFailed k t r
        | .good corrected learn =>
          let c := s.cell r.addr.toNat
          if s.trailerOk t r c then (acc s .retired).stepPassed k t r c corrected learn
          else (acc s .wasted).stepFailed k t r
      s.done ((s'.admitDecodes s'.drift.decodeQ.length).kickChannel ch).advance

/-- The codewords of a row that a step 7 has to rebuild: those lost on the way, the read's own, those of members emptied and erased since, and
parity that was never programmed (R138, R211, R214). -/
def Stitch.missing (x : Stitch) (own row : Nat) (lost : BitVec 18) : Nat :=
  let r := Tab.get x.rows row 0
  ((List.range 18).filter (fun m =>
    m == own || (x.goneAt row).getLsbD m || (lost.getLsbD m && decide (16 ≤ m)) || (lost.getLsbD m && (Tab.find x.positions m).isSome && decide (row < x.next m))
      || (m == 16 && !r.getLsbD 0) || (m == 17 && !r.getLsbD 1))).length

/-- The address that corresponds to `a` in position `m` of a stitch: the same page, plane and slot (R208, R211). -/
def State.inPosition (s : State) (x : Stitch) (m : Nat) (a : MediaAddr) : Option Nat :=
  (Tab.find x.positions m).map (fun db =>
    mla (dbDie db / 8) (dbDie db % 8) (planeOf a) (pbBlock (s.serving db (planeOf a))) (pageOf a) (slotOf a))

/-- The protected bytes of the members that a row holds, but those of a mask (R211, R212). -/
def State.rowMembers (s : State) (x : Stitch) (a : MediaAddr) (without : BitVec 18) : List (Nat × List Byte) :=
  (List.range 16).filterMap (fun m =>
    if without.getLsbD m || !x.holds m || !decide (pageOf a < x.next m) then none
    else (s.inPosition x m a).map (fun b => (m, Cell.protected (s.cell b))))

/-- What step 7 gives for member `m`'s codeword (R212): any address serves for a member that has no die-block any more, since its own bytes
alone depend on it. The codeword stands as it was written when the bytes agree with it. -/
def State.rebuiltCell (s : State) (x : Stitch) (m : Nat) (a : MediaAddr) (lost : BitVec 18) : Option Cell :=
  let row := pageOf a
  let gone := lost ||| x.goneAt row ||| BitVec.ofNat 18 (2 ^ m)
  let away := (List.range 16).filterMap (fun i =>
    if gone.getLsbD i && (i == m || decide (row < x.next i)) then (s.inPosition x i a).map (fun b => (i, b)) else none)
  let parity := fun (i : Nat) (bitNo : Nat) =>
    if !gone.getLsbD i && (Tab.get x.rows row 0).getLsbD bitNo then (s.inPosition x i a).map (fun b => Cell.protected (s.cell b)) else none
  let bs := rebuild m (s.rowMembers x a gone) away (parity 16 0) (parity 17 1)
  match s.cell a.toNat with
  | some c => if Cell.protected (some c) = bs then some c else some (.raw (encodeCw bs))
  | none => some (.raw (encodeCw bs))

/-- STITCH_REBUILD: the reads of a row's other members and parity have ended (R138). While some are still to be asked for, they are
asked for. -/
def execStitchRebuild (slot : BitVec 16) (_ : Kept) (s : State) : Host.Outcome State Fault Refusal :=
  let k := slot.toNat
  match (Tab.find s.tacks k).bind (fun t => t.rd.map (fun r => (t, r))) with
  | none => s.done s
  | some (t, r) =>
    if r.phase ≠ .stitch then s.done s
    else if t.draining then s.done (s.retire k).advance
    else if !r.members.isEmpty then s.done (s.askMembers k)
    else if s.tacks.any (fun e => e.2.op == .parityRead && e.2.parent == some k) then s.done s
    else match s.memberOf (s.dbOf r.addr) with
      | none => s.done (s.readLost k t r.addr (if (s.ctlOf (dieOf r.addr)).online then 1 else 3)).advance
      | some (i, m) =>
        let x := Tab.get s.blocks.stitches i Stitch.init
        let c := s.rebuiltCell x m r.addr r.lost
        if x.missing m (pageOf r.addr) r.lost ≤ 2 ∧ s.trailerOk t r c = true then
          s.done (s.stepPassed k t r c 0 []).advance
        else s.done (s.readLost k t r.addr 1).advance

/-! ### Data phases -/

/-- A histogram has been taken (R136): the read senses with the derived set, or step 4 fails. -/
def State.histDone (s : State) (k : Nat) (t : Tack) (r : MediaRead) (h : List Nat) : State :=
  let set := if r.noAge then wholeRange h else some (histSet h (s.readSet r.addr 0))
  match set with
  | some x => s.updTack k (fun t => { t with rd := some { r with phase := .queued, hist := false, repeats := 0
                                                                 histTaken := some (x.map Int.toNat) } })
  | none => s.stepFailed k t r

/-- XFER_COMPLETE: the read data phase that runs on a channel ends (R77, R105). -/
def execXferComplete (ch : Chan) (crcOk : Bool) (hist : List Nat) (s : State) : Host.Outcome State Fault Refusal :=
  match (s.arbOf ch).grant.bind (fun k => (Tab.find s.tacks k).bind (fun t => t.rd.map (fun r => (k, t, r)))) with
  | none => s.done s
  | some (k, t, r) =>
    if (s.chan ch).st ≠ .ready then s.done s
    else
      let soft := t.soft
      let len := slotLength soft r.hist
      let s' := s.phaseEnds ch
      let s' :=
        if t.draining then (s'.account ch len .wasted).retire k
        else
          let s' := if crcOk then s' else (s'.busError ch false).account ch len .wasted
          if !crcOk && decide (r.repeats < 2) then
            s'.updTack k (fun t => { t with rd := some { r with repeats := r.repeats + 1 } })
          else
            let s' := if crcOk then s' else s'.wantRetrain ch
            let first := crcOk && r.repeats == 0
            if r.hist then
              let s' := if first then s'.account ch len .retired else if crcOk then s'.account ch len .wasted else s'
              if t.op = .brandHist then (s'.brandRow r.addr (if crcOk then some hist else none)).retire k else s'.histDone k t r hist
            else
              let s' := if soft then s'.count 0x08 (t.tag (some ch.val)) else s'
              let s' := if first then s'.elapse ch len else if crcOk then s'.account ch len .wasted else s'
              (s'.updTack k (fun t => { t with rd := some { r with phase := .decoding, repeats := if first then 0 else 3 } })).toDecoder k
      s.done (s'.kickChannel ch).advance

/-- The codeword that a LOAD of slot `i` carries, with its trailer (R51, R76, R113); a slot without one carries a pad
(R210). -/
def Program.cell (p : Program) (i : Nat) (b : Nat) (stamp : Nat × Nat) : Cell :=
  let w := Tab.get p.cws i (PageCw.own .hostData 0x3FFFFFFFF 0 0 [])
  .written w.data w.key
    { leaf := w.leaf, ctx := w.ctx, kind := w.kind, gen := w.gen, progAge := BitVec.ofNat 32 stamp.1
      addr := BitVec.ofNat 36 (mla (p.die / 8) (p.die % 8) (i / 8) b p.page (i % 8)), seq := stamp.2 }

/-- What a LOAD carries: a codeword, a row's parity over its members (R211), or the cells of a brand row (R123). -/
def State.loadCell (s : State) (p : Program) (i b : Nat) (stamp : Nat × Nat) : Cell :=
  match p.what with
  | .parity stitch _ second =>
    let x := Tab.get s.blocks.stitches stitch Stitch.init
    let a := mla (p.die / 8) (p.die % 8) (i / 8) b p.page (i % 8)
    parityCell second (s.rowMembers x (BitVec.ofNat 36 a) 0) a
  | .brand _ row => .brand row
  | _ => p.cell i b stamp

/-- LOAD_COMPLETE: the LOAD data phase that runs on a channel ends with the die's check of its CRC (R65, R76). A LOAD that the die rejects,
being no longer IDLE (Table 2.14), counts as wasted; Table 3.2 does not name it (DESIGN CHOICE, log 73). -/
def execLoadComplete (ch : Chan) (crcOk : Bool) (s : State) : Host.Outcome State Fault Refusal :=
  match (s.arbOf ch).grant.bind (fun k => (Tab.find s.tacks k).bind (fun t => t.pg.map (fun p => (k, t, p)))) with
  | none => s.done s
  | some (k, t, p) =>
    match p.toLoad, p.groups with
    | i :: _, (b, _) :: _ =>
      if (s.chan ch).st ≠ .ready then s.done s
      else
        let x := s.die p.die
        let d := x.takeLoad (BitVec.ofNat 6 (i / 8 * 16)) (BitVec.ofNat 12 b) (BitVec.ofNat 12 p.page)
          (BitVec.ofNat 12 (i % 8)) (s.loadCell p i b (p.stamp.getD (0, 0))) crcOk
        let s' := (s.setDie p.die d).phaseEnds ch
        let s' := if crcOk then s' else s'.busError ch true
        let s' := s'.account ch (slotLength false false)
          (if crcOk && x.st == .idle && !p.rejected && !t.draining then .retired else .wasted)
        let p := { p with loaded := p.loaded ||| BitVec.ofNat 32 (2 ^ i) }
        s.done ((s'.updTack k (fun t => { t with pg := some p })).kick p.die)
    | _, _ => s.done s

/-- SENSE_ISSUE: the sequencer turns to the reads queued for a die; those of an offline die go to step 7 (R145). -/
def execSenseIssue (ch : Chan) (d : DieNo) (guardOver : Bool) (s : State) : Host.Outcome State Fault Refusal :=
  let k := dieKey ch d
  s.done (if (s.ctlOf k).online then (if (s.chan ch).st = .ready then s.issueSense k guardOver else s)
    else (s.divert k).advance)

/-! ### Resets of one die (R78, R83) -/

/-- Resets a die alone, to initialise it again when its RESET ends: its senses are repeated, its program or erase fails, its LOADs are
made again (R72, R78). -/
def State.reinit (s : State) (k : Nat) : State :=
  let refs := match (s.ctlOf k).reinit with | some r => r | none => (s.die k).refs
  let s := (s.dieReset k).markOutside (fun r => dieOf r.addr == k)
  let s := (s.readsOn k (fun p => p == .sensing || p == .ready)).foldl (fun s e =>
    if e.2.1.draining then s.retire e.1
    else (s.withdraw (k / 8) e.1).updTack e.1 (fun t => { t with rd := some { e.2.2 with phase := .queued } })) s
  let c := s.ctlOf k
  let s := s.setCtl k { c with running := none, awaiting := false, reinit := some refs }
  match c.running.bind (fun j => (Tab.find s.tacks j).bind (fun t => t.pg.map (fun p => (j, t, p)))) with
  | some (j, t, p) => s.programEnded j t p true
  | none =>
    match s.loader k with
    | some j => s.updTack j (fun t => { t with pg := t.pg.map (fun p => { p with loaded := 0 }) })
    | none => s

/-- A die is lost for good: it goes offline, and its reads go to step 7 (R78, R80, R83, R145). -/
def State.loseDie (s : State) (k : Nat) : State := (s.faultUnit 0 k 1).divert k

/-- What a die is set to once it is initialised: SIG and DIE_INDEX, the channel's ODT and DRIVE, FAST as given (R57). -/
def State.configDie (s : State) (k : Nat) (fast : Bool) : State :=
  s.setDie k { s.die k with fast := fast, index := BitVec.ofNat 3 (k % 8), odt := BitVec.ofNat 2 (s.field (rChCtrl (k / 8)) 8 2)
                            drive := BitVec.ofNat 2 (s.field (rChCtrl (k / 8)) 10 2) }

/-- The RESET of a die that the sequencer initialises again has ended: CONFIG, the check of its IDENTIFY, and SET_REF of the set that it
held (R78). -/
def State.reinitDone (s : State) (k : Nat) (refs : Tab (List Nat)) : State :=
  let s := s.configDie k true
  let s := (s.setDie k { s.die k with refs := refs }).setCtl k { s.ctlOf k with reinit := none }
  if conforms k then s.kick k
  else (s.event portChan 0x0201 (s.diePath k) ((identifyBytes k).take 12)).loseDie k

/-- DIE_TIMEOUT: an array operation has not ended after twice its maximum (R78); a second within an hour of operating time takes the die
offline. -/
def execDieTimeout (ch : Chan) (d : DieNo) (_ : Kept) (s : State) : Host.Outcome State Fault Refusal :=
  let k := dieKey ch d
  let x := s.die k
  if x.st ≠ .sense ∧ x.st ≠ .prog ∧ x.st ≠ .erase then s.done s
  else
    let op := match x.st with
      | .prog => 0x20 | .erase => 0x21
      | _ => match x.sense with | some q => (match q.kind with | .page => 0x10 | .soft => 0x11 | .hist => 0x12) | none => 0x10
    let c := s.ctlOf k
    let tack := match x.st with
      | .sense => ((s.readsOn k (fun p => p == .sensing)).head?.map (fun e => e.1)).getD 0xFFFF
      | _ => c.running.getD 0xFFFF
    let again := match c.timedOutAt with | some n => decide (s.store.opSeconds - n < 3600) | none => false
    let s' := (s.setBit (rChEvents ch) (8 + d.val)).event portChan 0x0204 (s.diePath k)
      (le 1 op ++ le 1 x.st.code ++ le 1 (if again then 2 else 1)) tack
    let s' := (s'.setCtl k { c with timedOutAt := some s.store.opSeconds }).reinit k
    s.done (if again then s'.loseDie k else s').advance

/-! ### Alerts (R83, R84) -/

/-- ALERT_ASSERTED: ALERT_N has been low for 4 CK; `reports` and `internal` name the dies whose TEMP_HIGH and INTERNAL
drive it. An ALERT scan is owed, unless ALERT_N is ignored (R83, R84). -/
def execAlertAsserted (ch : Chan) (reports : Byte) (internal : Byte) (s : State) : Host.Outcome State Fault Refusal :=
  let s' := (List.range 8).foldl (fun s i =>
    let x := s.die (dieKey ch i)
    if x.st = .off then s
    else s.setDie (dieKey ch i)
      ((x.withTemp (x.tempHigh || (reports.getLsbD i && !internal.getLsbD i))).withInternal (internal.getLsbD i))) s
  let c := s'.chan ch
  let s' := s'.setChan ch { c with alertLow := true }
  s.done (if c.alertStuck then s' else s'.owe ch .alertScan)

def State.anyAlert (s : State) (ch : Nat) : Bool := (List.range 8).any (fun i => (s.die (dieKey ch i)).alerts && (s.die (dieKey ch i)).st != .off)

/-- ALERT_STUCK: ALERT_N has been low for 1 ms while no die reports (R84). -/
def execAlertStuck (ch : Chan) (s : State) : Host.Outcome State Fault Refusal :=
  let c := s.chan ch
  s.done (if !c.alertStuck && !s.anyAlert ch then
      ((s.setChan ch { c with alertLow := true, alertStuck := true }).setBit (rChEvents ch) 7).event portChan 0x0203 (s.channelPath ch) []
    else s)

def execAlertStuckEnd (ch : Chan) (s : State) : Host.Outcome State Fault Refusal :=
  let c := s.chan ch
  s.done (if c.alertStuck then s.setChan ch { c with alertStuck := false, alertLow := false } else s)

/-- ALERT_N rises when no die drives it any more. -/
def State.alertEnds (s : State) (ch : Nat) : State :=
  let c := s.chan ch
  if c.alertLow && !c.alertStuck && !s.anyAlert ch then s.setChan ch { c with alertLow := false } else s

/-- A die is hot from 95 °C or TEMP_HIGH, until it falls below 90 °C with TEMP_HIGH clear (R436). -/
def State.judgeHot (s : State) (k : Nat) : State :=
  let c := s.ctlOf k
  let high := (s.die k).tempHigh
  let hot := if high || (decide (1520 ≤ c.temp) && c.readPolls.isSome) then true else if c.temp < 1440 then false else c.hot
  s.setCtl k { c with hot := hot }

/-! ### Housekeeping windows (R492) -/

/-- Whether the sequencer waits for the RVALID of a sense that a die has begun (R73, R492). -/
def State.senseOn (s : State) (die : Nat) : Bool :=
  (s.die die).qSense.isNone && s.tacks.any (fun e => match e.2.rd with | some r => r.phase == .sensing && dieOf r.addr == die | none => false)

/-- Whether it does on any die of a channel. -/
def State.senseRuns (s : State) (ch : Nat) : Bool := (List.range 8).any (fun i => s.senseOn (dieKey ch i))

/-- Whether a program or erase that the sequencer issued on a die runs and is not held. -/
def State.opOn (s : State) (die : Nat) : Bool :=
  let c := s.ctlOf die
  c.running.isSome && !c.awaiting && !(s.die die).held

/-- Whether a die of the channel is being initialised again: no scan is sent meanwhile (R78). -/
def State.noScans (s : State) (ch : Nat) : Bool := (List.range 8).any (fun i => (s.ctlOf (dieKey ch i)).reinit.isSome)

/-- Whether a program or erase that the sequencer issued on a channel runs and is not held. -/
def State.opRuns (s : State) (ch : Nat) : Bool := (List.range 8).any (fun i => s.opOn (dieKey ch i))

/-- The items of a channel with the scans that are due now; while none may be sent, a poll of each die that needs one (R78). -/
def State.hkItems (s : State) (ch : Nat) : List (HkItem × Nat) :=
  let hk := (s.chan ch).hk
  if s.noScans ch then
    let need := fun (i : Nat) => s.senseOn (dieKey ch i) || s.opOn (dieKey ch i) || hk.any (fun e => e.1 == .alertScan)
    let l := hk.filter (fun e => match e.1 with | .rvalidScan | .ardyScan => false | .poll d => need d | _ => true)
    l ++ ((List.range 8).filter (fun i => need i && !l.any (fun e => e.1 == .poll i))).map (fun i => (.poll i, 0))
  else
    let l := hk.filter (fun e => match e.1 with | .rvalidScan => s.senseRuns ch | .ardyScan => s.opRuns ch | .poll _ => false | _ => true)
    let l := if s.senseRuns ch && !l.any (fun e => e.1 == .rvalidScan) then l ++ [(.rvalidScan, 0)] else l
    if s.opRuns ch && !l.any (fun e => e.1 == .ardyScan) then l ++ [(.ardyScan, 0)] else l

/-- The place of an item in the list of R492. -/
def hkOrder (e : HkItem × Nat) : Nat :=
  match e.1 with
  | .statusClear _ => 1
  | .alertScan => 2
  | .rvalidScan => 4
  | .ardyScan => if 64 ≤ e.2 then 3 else 5
  | .getTemp _ => if 64 ≤ e.2 then 3 else 6
  | .poll _ => if 64 ≤ e.2 then 3 else 6

/-- The first item of the list. An alert scan waits while no scan may be sent. -/
def hkFirst (noScans : Bool) (l : List (HkItem × Nat)) : Option (HkItem × Nat) :=
  (l.filter (fun e => !(noScans && e.1 == .alertScan))).foldl (fun b e => match b with | none => some e | some x => if hkOrder e < hkOrder x then some e else some x) none

/-- Marks the host reads queued on a die as having waited for its program or erase (R140). -/
def State.markWaited (s : State) (die : Nat) : State :=
  (s.readsOn die (fun p => p == .queued)).foldl (fun s e =>
    s.updTack e.1 (fun t => { t with rd := some { e.2.2 with waited := true } })) s

/-- An alerting die reports (R83): the event, INTERNAL's reset or, within an hour of one, the loss of the die. -/
def State.dieAlert (s : State) (ch d : Nat) (x : Die) : State :=
  let k := dieKey ch d
  let s := (s.setBit (rChEvents ch) (24 + d)).event portChan 0x0202 (s.diePath k) (x.status.take 2)
  let s := s.judgeHot k
  if !x.internal then s
  else
    let c := s.ctlOf k
    let again := match c.internalAt with | some n => decide (s.store.opSeconds - n < 3600) | none => false
    let s := (s.setCtl k { c with internalAt := some s.store.opSeconds }).reinit k
    if again then s.loseDie k else s

/-- STATUS with CLEAR to a die (R59, R76, R492): an ended program or erase is done, a rejected START is repaired, an alert
is taken. -/
def State.statusClear (s : State) (ch d : Nat) : State :=
  let k := dieKey ch d
  let x := s.die k
  let c := s.ctlOf k
  let b := x.byte1
  let s := s.setDie k (x.takeStatus true)
  let s := s.setCtl k { c with seen := BitVec.ofNat 4 x.st.code }
  let s := if b.getLsbD 0 then s.setBit (rChEvents ch) 2 else s
  let s :=
    if c.awaiting then
      let s := s.setCtl k { s.ctlOf k with running := none, awaiting := false }
      match c.running.bind (fun j => (Tab.find s.tacks j).bind (fun t => t.pg.map (fun p => (j, t, p)))) with
      | some (j, t, p) =>
        let fail := b.getLsbD 1
        let s := if fail then s.setBit (rChEvents ch) (16 + d) else s
        let s := s.updLife k (fun l => match p.what with
          | .erase _ | .eraseSystem _ => { l with erases := l.erases + (if fail then 0 else p.present.length) }
          | _ => { l with programs := l.programs + 1 })
        (s.markWaited k).programEnded j t p fail
      | none =>
        match s.loader k with
        | some j => s.updTack j (fun t => { t with pg := t.pg.map (fun p => { p with loaded := p.loaded &&& x.loadMap }) })
        | none => s
    else s
  let s := if b.getLsbD 5 || b.getLsbD 6 then s.dieAlert ch d x else s
  s.alertEnds ch

/-- A die shows RVALID for the sense that the sequencer waits for: each read of it requests the channel (R73); a DRAINING tack's sense has
ended. While a sense is queued behind a SUSPENDING, RVALID is that of an earlier one. -/
def State.rvalidDie (s : State) (k : Nat) : State :=
  let d := s.die k
  if d.done.isNone || d.qSense.isSome || d.sense.isSome then s
  else (s.readsOn k (fun p => p == .sensing)).foldl (fun s e =>
    if e.2.1.draining then s.retire e.1 else s.updTack e.1 (fun t => { t with rd := some { e.2.2 with phase := .ready } })) s

/-- The RVALID scan (R73). -/
def State.rvalidScan (s : State) (ch : Nat) : State := (List.range 8).foldl (fun s i => s.rvalidDie (dieKey ch i)) s

/-- A die shows ARDY for the program or erase that the sequencer waits for: a STATUS with CLEAR is owed to it (R492). -/
def State.ardyDie (s : State) (ch i : Nat) : State :=
  let k := dieKey ch i
  if s.opOn k && (s.die k).ardy then (s.setCtl k { s.ctlOf k with awaiting := true }).owe ch (.statusClear i) else s

/-- The ARDY scan (R492). -/
def State.ardyScan (s : State) (ch : Nat) : State := (List.range 8).foldl (fun s i => s.ardyDie ch i) s

/-- An individual STATUS in place of the scans (R78): what the die shows of RVALID, ARDY and ALERT. -/
def State.pollDie (s : State) (ch i : Nat) : State :=
  let k := dieKey ch i
  let s := s.setCtl k { s.ctlOf k with seen := BitVec.ofNat 4 (s.die k).st.code }
  let s := (s.rvalidDie k).ardyDie ch i
  if (s.die k).alerts ∧ (s.die k).st ≠ DieState.off then s.owe ch (.statusClear i) else s

/-- GET_TEMP of a die: its stored temperature, hotness, band, and the retraining that 20 °C since the last training asks
for, at most once per 10 s, 200,000 conversions (R81, R85, R434, R436, log 48). -/
def State.takeTemp (s : State) (ch d : Nat) (temp : Int) : State :=
  let k := dieKey ch d
  let x := s.die k
  let s := if x.st = .off then s else s.setDie k (x.withTemp (decide (1520 ≤ temp)))
  let c := s.ctlOf k
  let base := c.tempAtTraining.getD temp
  let s := (s.setCtl k { c with temp := temp, readPolls := some 0, tempAtTraining := some base }).judgeHot k
  let s := s.setAge k { s.age k with band := nextBand (s.age k).band temp }
  let s := s.alertEnds ch
  let n := s.chan ch
  let rested := match n.tempTrain with | some t => decide (200000 ≤ s.power.conv - t) | none => true
  if 320 < (temp - base).natAbs ∧ rested = true ∧ n.st = .ready then
    (s.setChan ch { n with tempTrain := some s.power.conv }).wantRetrain ch
  else s

/-- HOUSEKEEPING_WINDOW: one window of a slot goes to the first pending item (R492); `temp` is what a GET_TEMP returns. -/
def execHousekeepingWindow (ch : Chan) (temp : BitVec 16) (s : State) : Host.Outcome State Fault Refusal :=
  if (s.chan ch).st ≠ .ready then s.done s
  else
    let l := s.hkItems ch
    let first := hkFirst (s.noScans ch) l
    let rest := (l.filter (fun e => some e.1 != first.map (fun x => x.1))).map (fun e => (e.1, e.2 + 1))
    let s' := s.setChan ch { s.chan ch with hk := rest }
    let s' := match first.map (fun x => x.1) with
      | none => s'
      | some (.statusClear d) => s'.statusClear ch d
      | some .alertScan => (List.range 8).foldl (fun s i =>
          if (s.die (dieKey ch i)).alerts ∧ (s.die (dieKey ch i)).st ≠ DieState.off then s.owe ch (.statusClear i) else s) s'
      | some .rvalidScan => s'.rvalidScan ch
      | some .ardyScan => s'.ardyScan ch
      | some (.poll d) => s'.pollDie ch d
      | some (.getTemp d) => s'.takeTemp ch d temp.toInt
    s.done (s'.kickChannel ch).advance

/-! ### Retraining commands (R81, R82) -/

/-- A write of MEDIA_CTRL (Table 2.18). -/
def State.writeMediaCtrl (s : State) (v : Nat) : State :=
  let s := (if bits v 0 2 = 3 then s else s.setField rMediaCtrl 0 2 (bits v 0 2)).rejudge
  if bit v 8 then (List.range 96).foldl State.wantRetrain s else s

def execRetrainAll (v : Word) (s : State) : Host.Outcome State Fault Refusal := s.done (if s.barOpen then s.writeMediaCtrl v.toNat else s)

/-- A write of MEDIA_CH_CTRL (Table 2.21). -/
def State.writeChCtrl (s : State) (ch v : Nat) : State :=
  let drive := if bits v 10 2 = 3 then s.field (rChCtrl ch) 10 2 else bits v 10 2
  let s := (s.setReg (rChCtrl ch) (drive * 2 ^ 10 + bits v 8 2 * 2 ^ 8 + flag (bit v 3) * 8)).rejudge
  if bit v 2 then s.wantRetrain ch else s

def execRetrain (ch : Chan) (v : Word) (s : State) : Host.Outcome State Fault Refusal := s.done (if s.barOpen then s.writeChCtrl ch v.toNat else s)

/-- A training has ended well: eye centres and deskew are loaded, the temperatures noted, and the channel is READY. The training buffers
of the dies keep what they held, since the spec does not say what the patterns of the training leave in them (DESIGN CHOICE, log 48). -/
def State.trained (s : State) (ch : Nat) (trim deskew : Word) : State :=
  let s := (s.setReg (rChTrim ch) (trim.toNat &&& 0x3F3F3F3F)).setReg (rChDeskew ch) deskew.toNat
  let s := s.setChan ch { s.chan ch with st := .ready, fast := true, retrainTry := 0, crcErrors := [] }
  (List.range 8).foldl (fun s i =>
    let k := dieKey ch i
    let s := s.setCtl k { s.ctlOf k with tempAtTraining := (s.ctlOf k).readPolls.map (fun _ => (s.ctlOf k).temp) }
    if (s.die k).st = .off ∨ (s.ctlOf k).reinit.isSome then s else s.configDie k true) s

/-- The last step of a channel's start: GET_TEMP of each online die (Table 2.16, step 12). -/
def State.startTemps (s : State) (ch : Nat) (temps : List (BitVec 16)) : State :=
  (List.range 8).foldl (fun s i =>
    match temps[i]? with
    | some t => if (s.ctlOf (dieKey ch i)).online then s.takeTemp ch i t.toInt else s
    | none => s) s

/-- The data phases of a channel end with it. -/
def State.dropPhase (s : State) (ch : Nat) : State :=
  s.setArb ch { s.arbOf ch with grant := none, next := none, drawn := false, slot := .empty, nextSlot := .empty }

/-- A channel becomes FAULT: its dies go offline, and every read on them goes to step 7 (R79, R82, R145, R228). -/
def State.failChannel (s : State) (ch : Nat) : State :=
  let s := ((s.setChan ch { s.chan ch with st := .fault }).dropPhase ch).faultUnit 1 (ch * 8) 8
  (List.range 8).foldl (fun s i => s.divert (dieKey ch i)) s

/-- RETRAIN_DONE: a retraining of `ck` cycles ends (R82, R105); a failed one is repeated once, a second failure makes the
channel FAULT. CH_STATE of the RETRAIN_FAIL event is 5 at both failures, the state in which the training failed (DEDUCED, log 48). The
training of a channel's start ends so too, after the dies' GET_TEMP gave `temps`; the dies that have not answered by then were not there at
step 6 (R79). -/
def execRetrainDone (ch : Chan) (ok : Bool) (trim : Word) (deskew : Word) (ck : Nat) (temps : List (BitVec 16)) (s : State) :
    Host.Outcome State Fault Refusal :=
  let c := s.chan ch
  let trains := c.st == .training || (c.st == .init && (List.range 8).any (fun i => (s.ctlOf (dieKey ch i)).online))
  if trains then s.done (if ok then ((s.startTemps ch temps).trained ch trim deskew).advance else s)
  else if c.st ≠ .retraining then s.done s
  else
    let s' := s.account ch ck .back
    if ok then s.done ((s'.setBit (rChEvents ch) 6).trained ch trim deskew)
    else
      let s' := (s'.setBit (rChEvents ch) 5).event portChan 0x0205 (s.channelPath ch) (le 1 (c.retrainTry + 1) ++ le 1 5)
      if c.retrainTry = 0 then s.done (s'.setChan ch { c with retrainTry := 1 })
      else
        s.done (s'.failChannel ch).advance

end Sys2Proof.Machine
end

