-- ==== Sys2Proof/Machine/Life.lean ====
section
/-! DEFINITION. Block life: forming stitches, member programs and parity rows, burnishing, the skiver, refresh, scrub and
the wear snapshots (R205-R234). -/

namespace Sys2Proof.Machine

/-! ### Forming a stitch (R208, R209) -/

/-- Orders dies of a channel: fewest open stitch die-blocks, then the heap key of the least-worn free die-block. -/
def State.dieRank (s : State) (die : Nat) : Nat × (Nat × Nat × Nat) :=
  (s.openStitchBlocks die, match s.leastWorn die with | some db => s.heapKey db | none => (0, 0, 0))

def rankLt (a b : Nat × (Nat × Nat × Nat)) : Bool := decide (a.1 < b.1) || (a.1 == b.1 && keyLt a.2 b.2)

/-- The die of a channel that takes a position (R209): none when no online die has a free die-block and room. -/
def State.stitchDie (s : State) (ch : Nat) : Option Nat :=
  ((List.range 8).map (fun d => dieKey ch d)).foldl (fun best d =>
    if (s.ctlOf d).online && !s.leavingDie d && decide (s.openStitchBlocks d < 2) && (s.leastWorn d).isSome then
      match best with
      | some x => if rankLt (s.dieRank d) (s.dieRank x) then some d else some x
      | none => some d
    else best) none

/-- The channels that position `j` of stitch `k` may take, in the order of R209. -/
def stitchChans (k j : Nat) : List Nat :=
  (List.range 12).flatMap (fun i => (List.range 8).map (fun c => (k % 12 + j + i) % 12 * 8 + (k / 12 % 8 + j + c) % 8))

/-- The die that position `j` takes when the channels `taken` hold positions already (R208, R209). -/
def State.placePosition (s : State) (k j : Nat) (taken : List Nat) : Option Nat :=
  (stitchChans k j).findSome? (fun ch =>
    if taken.contains ch || decide (2 ≤ (taken.filter (fun c => c / 8 == ch / 8)).length) then none else s.stitchDie ch)

/-- The dies of positions `j` and up, in order. -/
def State.placements (s : State) (k : Nat) (js : List Nat) (taken : List Nat) : List (Nat × Nat) :=
  match js with
  | [] => []
  | j :: r =>
    match s.placePosition k j taken with
    | some d => (j, d) :: s.placements k r (d / 8 :: taken)
    | none => s.placements k r taken

/-- Opens one die-block of a new stitch. -/
def State.openPosition (s : State) (slot : Nat) (copy : Bool) (j die : Nat) : State :=
  match s.leastWorn die with
  | none => s
  | some db =>
    let s := s.takeBlank db
    let s := s.updDb db (fun r =>
      let r := if 16 ≤ j then r.setFlag pbParity else r
      let r := if copy then r.setFlag pbCopy else r
      { r with st := .opened, stitch := some slot, member := some j, lastPage := none, corrMax := 0 })
    let s := s.append (.block 0 die (dbBlock db) 15 (if 16 ≤ j then 1 else 0) ((s.servingAll db).map (fun k => (s.pb k).erases)))
    let x := Tab.get s.blocks.stitches slot Stitch.init
    let x := { x with positions := Tab.put x.positions j db }
    s.setStitch slot (if j < 16 then { x with openMask := x.openMask ||| BitVec.ofNat 16 (2 ^ j), order := x.order ++ [j] } else x)

/-- The stitch of a stream that still has open members. -/
def State.openStitch (s : State) (copy : Bool) : Option Nat :=
  (s.blocks.stitches.find? (fun e => e.2.copy == copy && e.2.st == .filling && e.2.openMask != 0)).map (fun e => e.1)

/-- STITCH_FORM: the allocator forms the next stitch of a stream that has no open member (R208, R209, R230). -/
def execStitchForm (copy : Bool) (s : State) : Host.Outcome State Fault Refusal :=
  let hosts := (s.blocks.stitches.filter (fun e => !e.2.copy)).length
  if !s.mounted || (copy && !s.engines) || (s.openStitch copy).isSome || (!copy && decide (40 ≤ hosts)) then s.done s
  else match firstFree s.blocks.stitches 0 47 with
    | none => s.done s
    | some slot =>
      let seq := s.blocks.stitchSeq
      let ps := s.placements (seq % 96) (List.range 18) []
      let n := (ps.filter (fun e => decide (e.1 < 16))).length
      if n < 8 || !(ps.any (fun e => e.1 == 16)) || !(ps.any (fun e => e.1 == 17)) then
        s.done (s.event portCore 0x0601 s.devicePath (le 8 seq ++ le 1 ps.length))
      else if !copy && s.dev.spaceLow && s.dev.state != .cinch && decide (s.blocks.credits < n) then s.done s
      else
        let b := s.blocks
        let spend := if !copy && s.dev.spaceLow && s.dev.state != .cinch then n else 0
        let s' := s.setBlocks { b with stitchSeq := seq + 1, credits := b.credits - spend
                                       stitches := Tab.put b.stitches slot { Stitch.init with seq := seq, copy := copy } }
        s.done (ps.foldl (fun s e => s.openPosition slot copy e.1 e.2) s').checkSpace

/-! ### Member programs (R210, R215, R221) -/

/-- The leaf entry of a leaf wherever its segment is. -/
def State.leafNow (s : State) (leaf : Nat) : LeafEntry :=
  match s.leafEntry leaf with
  | some e => e
  | none => ((s.imageOf (granuleOf leaf)).map (fun i => Tab.get i.leaves (leaf % 4096) LeafEntry.init)).getD LeafEntry.init

/-- WRITE_GEN of an offer's codeword (R165, R252): that of its source, or the next of its leaf after the write-backs that are
under way. -/
def State.offerGen (s : State) (o : Offer) : BitVec 16 :=
  match o.source with
  | some (_, g) => g
  | none =>
    let me := match o.tack.bind (Tab.find s.tacks) with | some t => t.serial | none => s.serial
    let before := (s.tacks.filter (fun e => e.2.op == .leafWriteback && e.2.leaf.toNat == o.leaf && decide (e.2.serial < me)
      && !s.xlat.void.contains e.1 && (e.2.wait == .program || e.2.wait == .switch))).length
    (s.leafNow o.leaf).gen + 1 + BitVec.ofNat 16 before

/-- Whether a die holds a page program, under way or waiting. -/
def State.programsOn (s : State) (die : Nat) : Bool :=
  s.tacks.any (fun e => match e.2.pg with
    | some p => p.die == die && (match p.what with | .erase _ | .eraseSystem _ => p.started | _ => true)
    | none => false)

/-- Whether an open member may take leaves: its die takes and runs no program, and its next page is within STITCH_SKEW of the
lowest (R131, R210, R435). -/
def State.memberReady (s : State) (x : Stitch) (m : Nat) : Bool :=
  match Tab.find x.positions m with
  | none => false
  | some db =>
    let low := (x.order.map x.next).foldl Nat.min (x.next m)
    x.isOpen m && !x.sealed && (s.ctlOf (dbDie db)).online && s.maySend (dbDie db) && !s.programsOn (dbDie db)
      && (s.ctlOf (dbDie db)).running.isNone && decide (x.next m ≤ low + s.stitchSkew)

/-- Whether something waits on an offer, so that its program may start with pads (R210). -/
def State.urgent (s : State) (o : Offer) : Bool :=
  o.flush || s.dev.state == .cinch || s.cache.commits.any (fun c => c.leaf == o.leaf && c.rseq.isNone)

/-- The codeword that carries an offer. -/
def State.offerCw (s : State) (o : Offer) : PageCw :=
  { data := o.data, key := o.key, leaf := BitVec.ofNat 64 o.leaf, ctx := o.ctx, kind := .hostData, gen := s.offerGen o }

/-- A member takes the first 32 offers of its stream and its program begins. -/
def State.takeLeaves (s : State) (slot m : Nat) : State :=
  let x := Tab.get s.blocks.stitches slot Stitch.init
  match Tab.find x.positions m with
  | none => s
  | some db =>
    let b := s.blocks
    let all := if x.copy then b.copyOffers else b.hostOffers
    let os := all.take 32
    let offers := (List.range os.length).zip os
    let cws := offers.map (fun e => (e.1, s.offerCw e.2))
    let what := ProgFor.leaves slot m
    let pg := { s.programOf db (x.next m) cws what with offers := offers }
    let s' := s.setBlocks (if x.copy then { b with copyOffers := all.drop 32 } else { b with hostOffers := all.drop 32 })
    let media := BitVec.ofNat 36 (mla (dbDie db / 8) (dbDie db % 8) 0 (dbBlock db) (x.next m) 0)
    match (os.findSome? (fun o => o.tack)).bind (fun k => (Tab.find s.tacks k).map (fun _ => k)) with
    | some k => (s'.updTack k (fun t => { t with pg := some pg, media := media, wait := .program })).kick (dbDie db)
    | none =>
      let refresh := match os with | o :: _ => o.sub == 2 | [] => false
      let t := Tack.engine (if refresh then .refreshProgram else .skvProgram) (if refresh then engRefresh else engSkiver)
        (pageRef (dbDie db) (dbBlock db) (x.next m)) true
      match s'.birth { t with wait := .program, pg := some pg, media := media } (some (dbDie db / 8)) with
      | (s', some _) => s'.kick (dbDie db)
      | (_, none) => s

/-- Whether member `m` of a stitch may start a program of at least `n` leaves, or of fewer on which something waits: it is the
first of its stitch, in the order of the last programs, that may (R210). In CINCH the COPY stream stops (R215, R222). -/
def State.mayTake (s : State) (slot m n : Nat) : Bool :=
  match Tab.find s.blocks.stitches slot with
  | none => false
  | some x =>
    let os := if x.copy then s.blocks.copyOffers else s.blocks.hostOffers
    s.mounted && x.st == .filling && !(x.copy && s.dev.state == .cinch) && (x.order.find? (s.memberReady x)) == some m
      && !os.isEmpty && (decide (n ≤ os.length) || os.any s.urgent)

/-- MEMBER_PROGRAM: a member takes the next 32 leaves of its stream (R210). -/
def execMemberProgram (stitch : Fin 48) (member : Fin 16) (s : State) : Host.Outcome State Fault Refusal :=
  s.done (if s.mayTake stitch member 32 then s.takeLeaves stitch member else s)

/-- PAD_TIMEOUT: the first leaf has waited WB_PAD_US, and the program starts with pads (R210). -/
def execPadTimeout (stitch : Fin 48) (member : Fin 16) (s : State) : Host.Outcome State Fault Refusal :=
  s.done (if s.mayTake stitch member 1 then s.takeLeaves stitch member else s)

/-! ### Parity rows (R211, R215) -/

/-- Whether the parity program of a row has been issued. -/
def State.rowIssued (s : State) (slot : Nat) (x : Stitch) (row : Nat) : Bool :=
  Tab.get x.rows row 0 != 0#2 || s.programs.any (fun e => match e.2.what with | .parity i r _ => i == slot && r == row | _ => false)

/-- Whether nothing dirty is left and no write-back is under way. -/
def State.writtenBack (s : State) : Bool :=
  s.cache.dirtyList.isEmpty && s.blocks.hostOffers.isEmpty && s.xlat.queue.isEmpty && !s.tacks.any (fun e => e.2.op == .leafWriteback)

/-- Whether partial rows get their parity: at the end of a cinch and of the clean shutdown path (R215, R392). -/
def State.partialRows (s : State) : Bool :=
  match s.power.cinch with
  | some c => c.step == .parity
  | none => s.power.shutdown != .none && s.writtenBack

/-- The lowest row whose parity may be programmed: every member still open has programmed it, or partial rows are programmed too.
A stitch sealed at mount gets no more parity (R214). -/
def State.nextRow (s : State) (slot : Nat) (x : Stitch) : Option Nat :=
  if x.bare then none
  else
    match (List.range x.pages).find? (fun r => !s.rowIssued slot x r) with
    | some r => if s.partialRows || x.order.all (fun m => decide (r < x.next m)) then some r else none
    | none => none

/-- Programs a page of P or of Q; its codewords are formed as they are loaded (R211). It requests as the program that completes its row
(R14). -/
def State.programParity (s : State) (slot : Nat) (x : Stitch) (row : Nat) (q : Bool) : State :=
  match Tab.find x.positions (if q then 17 else 16) with
  | none => s
  | some db =>
    let cw := PageCw.own .parity 0x3FFFFFFFF 0 0 []
    let refresh := x.refreshRows.contains row
    let rein := if refresh then Rein.drf else if x.copy then Rein.skv else Rein.wb
    let (s, _) := s.spawnProgram .parityProgram (if refresh then engRefresh else if x.copy then engSkiver else engWriteback) (some rein) db row
      ((List.range 32).map (fun i => (i, cw))) (.parity slot row q)
    s.kick (dbDie db)

/-- PARITY_ROW_PROGRAM: P and Q of the lowest complete row are programmed (R211). -/
def execParityRowProgram (stitch : Fin 48) (s : State) : Host.Outcome State Fault Refusal :=
  s.done (match Tab.find s.blocks.stitches stitch.val with
    | none => s
    | some x =>
      match (if s.mounted && x.st == .filling then s.nextRow stitch x else none) with
      | none => s
      | some row =>
        let s := if x.pLost then s else s.programParity stitch x row false
        if x.qLost then s else s.programParity stitch x row true)

/-! ### Burnishing (R216, R217) -/

/-- The number of a member in the burnish order. -/
def burnishKey (slot m : Nat) : Nat := slot * 16 + m

/-- Members that wait for their burnish reads, in the order served: those a command put first, then by stitch sequence and
position. -/
def State.burnishOrder (s : State) : List Nat :=
  let xs := (sortBy (fun a b => decide (a.1 < b.1)) (s.blocks.stitches.map (fun e => (e.2.seq, e.1, e.2))))
  let all := xs.flatMap (fun e =>
    if e.2.2.st == .releasing then []
    else (e.2.2.filled.filter (fun m => !e.2.2.isOpen m && !e.2.2.passMask.getLsbD m
      && !(match Tab.find e.2.2.positions m with | some db => db == dbGone || s.blocks.forced.contains db | none => true))).map
        (burnishKey e.2.1))
  let wait := all.filter (fun k => (Tab.find s.blocks.burnishing k).isNone)
  s.blocks.burnishFirst.filter (fun k => wait.contains k) ++ wait.filter (fun k => !s.blocks.burnishFirst.contains k)

/-- The codeword addresses of pages of a die-block: of each page the slots that `slots` names, in every plane. -/
def State.codewordsIn (s : State) (db pages : Nat) (slots : Nat → List Nat) : List Nat :=
  (List.range pages).flatMap (fun p => (List.range 4).flatMap (fun q => (slots p).map (fun i =>
    mla (dbDie db / 8) (dbDie db % 8) q (pbBlock (s.serving db q)) p i)))

/-- The burnish reads of a member go on as far as they can. -/
def State.burnishOn (s : State) (key : Nat) : State :=
  match Tab.find s.blocks.burnishing key with
  | none => s
  | some x =>
    let (s, x) := s.pumpRun .burnishRead engBurnish x x.toRead.length
    s.setBlocks { s.blocks with burnishing := Tab.put s.blocks.burnishing key x }

/-- BURNISH_MEMBER: the burnish reads of the member that is next are issued, every codeword of its programmed pages; those of a member
whose reads have begun go on (R216). -/
def execBurnishMember (stitch : Fin 48) (member : Fin 16) (s : State) : Host.Outcome State Fault Refusal :=
  let k := burnishKey stitch member
  let x := Tab.get s.blocks.stitches stitch.val Stitch.init
  if s.engines ∧ s.burnishOrder.head? = some k then
    match Tab.find x.positions member.val with
    | none => s.done s
    | some db =>
      let b := s.blocks
      let xs := Tab.change b.stitches stitch.val (fun x => if x.st = .closed then { x with st := .burnishing } else x)
      let run : ReadRun := { db := db, toRead := s.codewordsIn db (x.next member) (fun _ => List.range 8), waiting := [], bad := 0 }
      s.done ((s.setBlocks { b with burnishing := Tab.put b.burnishing k run, burnishFirst := b.burnishFirst.filter (fun j => j != k)
                                    stitches := xs }).burnishOn k)
  else s.done (if s.engines then s.burnishOn k else s)

/-- BURNISH_RESULT: once the reads of a member have all ended, it is BURNISHED, or the planes on which one failed are flagged and the
die-block is forced (R216, R217). -/
def execBurnishResult (stitch : Fin 48) (member : Fin 16) (_ _ : Kept) (s : State) : Host.Outcome State Fault Refusal :=
  let k := burnishKey stitch member
  let x := Tab.get s.blocks.stitches stitch.val Stitch.init
  match Tab.find s.blocks.burnishing k, Tab.find x.positions member.val with
  | some run, some db =>
    if !run.over then s.done (if s.engines then s.burnishOn k else s)
    else
      let s' := s.setBlocks { s.blocks with burnishing := Tab.del s.blocks.burnishing k }
      let bad := planesOf run.bad
      if bad.isEmpty then
        let s' := s'.updDb db (fun r => { r with st := if r.st = .closed then .burnished else r.st })
        let s' := s'.setStitch stitch { x with passMask := x.passMask ||| BitVec.ofNat 16 (2 ^ member.val) }
        s.done ((s'.append (.block 4 (dbDie db) (dbBlock db) 15 0 [])).releaseIf stitch)
      else
        let s' := bad.foldl (fun s q => s.updPb (s.serving db q) (fun r =>
          { (r.setFlag pbBurnishFail) with reason := if r.reason = 0 then 3 else r.reason })) s'
        s.done (s'.force db bad)
  | _, _ => s.done s

/-! ### Jobs: skiver and refresh (R219-R224) -/

/-- Segments whose current image lies in a die-block. -/
def State.liveImages (s : State) (db : Nat) : List Nat :=
  (s.xlat.dir.filter (fun e => e.2.st != .absent && (
    let p := match s.segSlot e.1 with | some sl => sl.primary | none => e.2.loc
    let m := match s.segSlot e.1 with | some sl => sl.mirror | none => (Tab.get s.xlat.segTable e.1 (0, 0)).1
    (p != 0 && s.dbOf p == db) || (m != 0 && s.dbOf m == db)))).map (fun e => e.1)

/-- Codewords of a die-block that a job reads: those programmed, and those that the map names. -/
def State.codewordsOf (s : State) (db : Nat) : List Nat :=
  let ks := s.servingAll db
  let written := (s.media.filter (fun e => decide (e.1 / 8192 ∈ ks))).map (fun e => e.1)
  let mapped := (s.mapEntries.filter (fun e => e.2.st == .mapped && decide (e.2.addr.toNat / 8192 ∈ ks))).map (fun e => e.2.addr.toNat)
  written ++ mapped.filter (fun a => !written.contains a)

/-- Leaves that the skiver staging area holds and awaits; it holds 262,144 (1 GiB). -/
def State.staged (s : State) : Nat := total (s.blocks.jobs.map (fun j => j.waiting.length))

/-- The read of a codeword that a job asks a slot for. -/
def Job.asks (j : Job) (a : Nat) : Tack :=
  (Tack.engine (if j.refresh then .refreshRead else .skvRead) (if j.refresh then engRefresh else engSkiver) (pageOfAddr a) true).reads
    (BitVec.ofNat 36 a)

/-- Reads of a job's codewords begin, as far as staging and the tack slots have room (R220). -/
def State.pumpJob (s : State) (j : Job) (fuel : Nat) : State × Job :=
  match fuel with
  | 0 => (s, j)
  | n + 1 =>
    match j.toRead with
    | [] => (s, j)
    | a :: rest =>
      if 262144 ≤ s.staged + j.waiting.length then (s, j)
      else
        match s.birth (j.asks a) (some (a / 2 ^ 29)) with
        | (s, some _) => s.pumpJob { j with toRead := rest, waiting := j.waiting ++ [a] } n
        | (_, none) => (s, j)

/-- The images that a job finds in its die-block are written anew: a segment that is not in the cache is read first, as MAP (R181, R220,
R224). -/
def State.pumpImages (s : State) (j : Job) : State :=
  (s.liveImages j.db).foldl (fun s g =>
    if (Tab.find s.xlat.segWrites g).isSome then s
    else match (s.entry g).st with
      | .resident => s.writeSegments [g]
      | .inMedia => s.spawnSegRead g false none
      | .absent => s) s

/-- Every job goes on as far as it can; for slots that they ask for at once the segment reads go first, then the others in the order of
R17. -/
def State.pumpJobs (s : State) : State :=
  let s := s.blocks.jobs.foldl State.pumpImages s.searchOn
  (sortBy (fun a b => (a.asks 0).before (b.asks 0)) s.blocks.jobs).foldl (fun s j =>
    let (s', j') := s.pumpJob { j with waiting := [] } j.toRead.length
    s'.setBlocks { s'.blocks with jobs := s'.blocks.jobs.map (fun (x : Job) =>
      if x.db = j.db then { x with toRead := j'.toRead, waiting := x.waiting ++ j'.waiting } else x) }) s

/-- Counts VALID anew from the map (R219). -/
def State.recount (s : State) (db : Nat) : State :=
  (s.servingAll db).foldl (fun s k =>
    let n := (s.mapEntries.filter (fun e => e.2.st == .mapped && e.2.addr.toNat / 8192 == k)).length
    s.updPb k (fun r => { r with valid := n })) s

/-- A map-area die-block leaves the segment writer's hands. -/
def State.closeFill (s : State) (db : Nat) : State :=
  match Tab.find s.xlat.mapFill (dbDie db) with
  | some (b, _) =>
    if b = dbBlock db then
      (s.setXlat { s.xlat with mapFill := Tab.del s.xlat.mapFill (dbDie db) }).append (.block 3 (dbDie db) b 15 0 [])
    else s
  | none => s

/-- Takes a die-block for the skiver or refresh: its reads begin, or the images it holds are written anew (R220, R224). -/
def State.startJob (s : State) (db : Nat) (refresh : Bool) : State :=
  let isMap := (s.dbRec db).st == .map
  let s := (s.recount db).closeFill db
  let b := s.blocks
  let j : Job := { db := db, refresh := refresh, toRead := if isMap then [] else s.codewordsOf db, waiting := [], rseq := none }
  let s := s.setBlocks { b with jobs := b.jobs ++ [j], refreshQ := b.refreshQ.filter (fun x => x != db) }
  let s := if refresh then s else s.updDb db (fun r => { (r.clrFlag pbRefresh) with st := if r.st = .retired then .retired else .victim })
  s.pumpJobs

/-- score of R219: a whole number, the quotient rounded down before scores are compared; the rule names no rounding (DESIGN CHOICE, log 74). -/
def State.score (s : State) (db : Nat) : Nat :=
  total ((s.servingAll db).map (fun k => (s.pb k).valid)) * 64 / (64 + Nat.min 192 (s.dataAge db / 2 ^ 18))

/-- Whether a die-block may be taken for a job: closed, and not held by one; or a victim whose job a power cycle ended. The map-area die-block
being filled is open. -/
def State.jobCandidate (s : State) (db : Nat) : Bool :=
  let r := s.dbRec db
  (r.st == .victim || r.st == .closed || r.st == .burnished || (r.st == .map && Tab.find s.xlat.mapFill (dbDie db) != some (dbBlock db, (Tab.get s.xlat.mapFill (dbDie db) (0, 0)).2)))
    && !s.blocks.jobs.any (fun j => j.db == db) && !((s.memberOf db).any (fun e => decide (16 ≤ e.2)))

/-- The next victim (R219): the first forced die-block that may be taken, then a VICTIM without a job, or while the skiver runs that of lowest
score; a forced map-area die-block that is still filled may be taken too. A die-block that was VICTIM before a power cycle is emptied to its
end (R223; DEDUCED, log 74). -/
def State.nextVictim (s : State) : Option Nat :=
  let forcedOk := fun db => (s.jobCandidate db || (s.dbRec db).st == .map) && !s.blocks.jobs.any (fun j => j.db == db)
  let begun := fun db => (s.dbRec db).st == .victim && s.jobCandidate db
  match (s.blocks.forced.find? forcedOk).or (s.listedDbs.find? begun) with
  | some db => some db
  | none =>
    if !s.blocks.skiving then none
    else (sortBy (fun (a b : Nat) => decide (a < b)) s.listedDbs).foldl (fun best db =>
      if s.jobCandidate db then
        match best with
        | some x => if s.score db < s.score x then some db else some x
        | none => some db
      else best) none

/-- SKIVER_VICTIM_SELECT: the skiver starts or stops on the free count and takes its next victim (R219). -/
def execSkiverVictimSelect (s : State) : Host.Outcome State Fault Refusal :=
  if !s.engines then s.done s
  else
    let f := s.spaceFree
    let on := if f < s.skvStart then true else if s.skvStop ≤ f then false else s.blocks.skiving
    let s' := s.setBlocks { s.blocks with skiving := on }
    match s'.nextVictim with
    | some db => s.done ((s'.startJob db false).pumpJobs)
    | none => s.done s'.pumpJobs

/-- SKIVER_COPY_PROGRAM: staged leaves are programmed into the open COPY stitch (R221). -/
def execSkiverCopyProgram (s : State) : Host.Outcome State Fault Refusal :=
  s.done (match (if s.engines then s.openStitch true else none) with
    | none => s
    | some slot =>
      let x := Tab.get s.blocks.stitches slot Stitch.init
      match x.order.find? (s.memberReady x) with
      | some m => if s.mayTake slot m 32 then (s.takeLeaves slot m).pumpJobs else s
      | none => s)

/-- Whether a live or DRAINING tack refers to a die-block (R223). -/
def State.referenced (s : State) (db : Nat) : Bool :=
  s.tacks.any (fun e => (match e.2.rd with | some r => s.dbOf r.addr == db | none => false)
    || (match e.2.pg with | some p => p.die == dbDie db && (s.groupsOf db).any (fun g => p.groups.any (fun h => h.1 == g.1)) | none => false))

/-- Whether a job has emptied its die-block and the record of its last switch is committed (R223). -/
def State.jobDone (s : State) (j : Job) : Bool :=
  j.toRead.isEmpty && j.waiting.isEmpty && (s.liveImages j.db).isEmpty
    && (match j.rseq with | some n => s.committed n | none => true)

/-- A die-block on a die that is offline cannot be erased: it has only left its lists (R228). -/
def State.leaveOffline (s : State) (db : Nat) : State :=
  let s := s.leaveStitch db
  let b := s.blocks
  ((s.setBlocks { b with jobs := b.jobs.filter (fun j => j.db != db), forced := b.forced.filter (fun x => x != db) }).releaseAll).endUnits

/-- A member that was emptied has passed: its PASS_MASK bit sets, and its stitch may go (R217, R218). -/
def State.passEmptied (s : State) (db : Nat) : State :=
  match s.memberOf db with
  | some (i, m) =>
    if m < 16 then
      let x := Tab.get s.blocks.stitches i Stitch.init
      (s.setStitch i { x with passMask := x.passMask ||| BitVec.ofNat 16 (2 ^ m) }).releaseIf i
    else s
  | none => s

/-- A die-block that is ERASE_PENDING and whose erase has not been issued: one that a power cycle left so, or a parity die-block of a
released stitch (R218, R223). -/
def State.pendingErase (s : State) : Option Nat :=
  s.listedDbs.find? (fun db => (s.dbRec db).st == .erasePending && !s.blocks.erasing.contains db && !s.referenced db
    && !s.isBlank db)

/-- VICTIM_ERASE: the first emptied victim becomes ERASE_PENDING, and is erased when nothing refers to it (R223). -/
def execVictimErase (s : State) : Host.Outcome State Fault Refusal :=
  let ready := (if s.engines then s.blocks.jobs else []).filter (fun j => s.jobDone j && !s.blocks.erasing.contains j.db)
  match (ready.filter (fun j => !s.referenced j.db) ++ ready).head? with
  | none =>
    s.done (if s.engines then
        match s.pendingErase with
        | some db => ((s.spawnErase db).kick (dbDie db)).pumpJobs
        | none => s.pumpJobs
      else s)
  | some j =>
    if !(s.ctlOf (dbDie j.db)).online then s.done (s.leaveOffline j.db)
    else
      let s' := s.passEmptied j.db
      let s' := s'.updDb j.db (fun r => { r with st := if r.st = .retired then .retired else .erasePending })
      let s' := if s'.referenced j.db then s' else (s'.spawnErase j.db).kick (dbDie j.db)
      s.done s'.checkSpace.endUnits

/-- REFRESH_JOB: drift refresh takes the oldest queued die-block (R224). -/
def execRefreshJob (s : State) : Host.Outcome State Fault Refusal :=
  let cands := s.blocks.refreshQ.filter (fun db => decide (dbBlock db < 1024) && s.jobCandidate db)
  let best := cands.foldl (fun (b : Option Nat) db =>
    match b with
    | some x => if s.dataAge x < s.dataAge db then some db else some x
    | none => some db) none
  match (if s.engines then best else none) with
  | some db => s.done (s.startJob db true)
  | none => s.done s

/-! ### Scrub and system copies (R225) -/

/-- The die-block of a pool number (die × 1,024 + block). -/
def poolDb (i : Nat) : Nat := dbKey (i / 1024) (i % 1024)

/-- The scrub reads of a die-block go on as far as they can. -/
def State.scrubOn (s : State) (db : Nat) : State :=
  match Tab.find s.blocks.scrubbing db with
  | none => s
  | some x =>
    let (s, x) := s.pumpRun .scrubRead engBurnish x x.toRead.length
    s.setBlocks { s.blocks with scrubbing := Tab.put s.blocks.scrubbing db x }

/-- SCRUB_PATROL: the patrol comes to a burnished die-block and reads slot (page mod 8) of every programmed page of every plane; what the
samples show follows with each (R225). -/
def execScrubPatrol (dieBlock : BitVec 20) (_ _ : Kept) (s : State) : Host.Outcome State Fault Refusal :=
  let db := poolDb dieBlock.toNat
  if s.engines ∧ (s.dbRec db).st = .burnished then
    let b := s.blocks
    let pages := match (s.dbRec db).lastPage with | some p => p + 1 | none => 0
    let run : ReadRun := { db := db, toRead := s.codewordsIn db pages (fun p => [p % 8]), waiting := [], bad := 0 }
    let s' := match Tab.find b.scrubbing db with
      | some _ => s
      | none => s.setBlocks { b with scrubbing := Tab.put b.scrubbing db run, scrubPos := dieBlock.toNat + 1 }
    s.done (s'.scrubOn db)
  else s.done s

/-- SYSTEM_COPY_REFRESH: the first queued copy, boot record or profile block is read, verified, erased and programmed again, one die at a time; a
brand block is erased for its group 0 (R49); welts and journal blocks are renewed by their own writers (R225, log 62). -/
def execSystemCopyRefresh (s : State) : Host.Outcome State Fault Refusal :=
  s.done (if !s.engines then s
    else if s.blocks.renew.isSome then s.renewOn
    else match s.blocks.refreshQ.find? (fun db => decide (1032 ≤ dbBlock db) && (s.ctlOf (dbDie db)).online && !s.blocks.erasing.contains db) with
      | none => s
      | some db =>
        if dbBlock db = 1039 then
          ((s.spawnSystemErase engRefresh db).setBlocks { (s.spawnSystemErase engRefresh db).blocks with erasing := s.blocks.erasing ++ [db] }).kick (dbDie db)
        else (s.startRenew db).renewOn)

/-! ### Wear snapshots (R234) -/

/-- The totals as they stand: wall time in seconds when it is known (R133). -/
def State.wearNow (s : State) : Wear :=
  { s.blocks.totals with opSeconds := s.store.opSeconds, dropped := s.blocks.dropped
                         wall := s.wallNow }

/-- The payload of a snapshot record; its layout is the model's (log 25). -/
def Wear.bytes (w : Wear) : List Byte :=
  le 8 w.opSeconds ++ le 8 (w.wall.getD (2 ^ 64 - 1)) ++ le 8 w.erases ++ le 8 w.hostPages ++ le 8 w.copyPages ++ le 8 w.refreshPages
    ++ le 8 w.retired ++ le 8 w.dropped ++ zeros 48

def State.wearSnapshot (s : State) : State :=
  let w := s.wearNow
  let xs := s.blocks.snapshots ++ [w]
  let s := s.setBlocks { s.blocks with snapshots := xs.drop (xs.length - 32) }
  let s := s.save (recWear0 + s.store.wearNext % 32) w.bytes
  s.setStore { s.store with wearNext := (s.store.wearNext + 1) % 32 }

/-- WEAR_SNAPSHOT: the totals are stored at mount and each 24 h. -/
def execWearSnapshot (s : State) : Host.Outcome State Fault Refusal := s.done (if s.mounted then s.wearSnapshot else s)

end Sys2Proof.Machine
end

