-- ==== Sys2Proof/Machine/Translate.lean ====
section
/-! DEFINITION. Segments, the map updater, the journal rings, welts and directory lines as commands (R167-R194). -/

namespace Sys2Proof.Machine

/-- States in which the map is up. -/
def State.mapUp (s : State) : Bool := s.mounted && s.xlat.dirUp

/-! ### Segments -/

/-- A segment that no copy can give (R181): its leaves become POISONED under one hole record and it is DIRTY, so that a new
image is written. Leaves that a record lists already keep theirs (R147). The lost entries' media addresses go with them; WRITE_GEN is
kept (log 26). -/
def State.loseSegment (s : State) (g : Nat) : State :=
  let e := s.entry g
  let s := s.leafState .poisoned (g * 4096) 4096 5 (decide (s.drift.holes.length < 1048576))
  let s := match s.segSlot g with
    | some sl =>
      let sl := { sl with leaves := sl.leaves.map (fun (l : Nat × LeafEntry) => (l.1, { l.2 with addr := 0 })) }
      s.setXlat { s.xlat with slots := Tab.put s.xlat.slots (s.entry g).loc.toNat sl }
    | none => s
  let s := s.enterHoles { first := g * 4096, count := 4096, ctx := e.ctx, reason := 5, media := 0, seconds := s.store.opSeconds
                          unit := BitVec.ofNat 32 s.devicePath }
  s.event portCore 0x0504 s.devicePath (le 4 g ++ le 2 e.ctx.toNat)

/-- SEG_READ_DONE: the codewords of a segment have all been read (R181). While a rebuild holds the segment's line, it waits (R175). -/
def execSegReadDone (seg : BitVec 22) (_ _ : Kept) (s : State) : Host.Outcome State Fault Refusal :=
  let g := seg.toNat
  match s.tacks.find? (fun e => e.2.segment? == some g && !e.2.draining && e.2.rd.isNone) with
  | none => s.done s
  | some (k, t) =>
    if s.lineHeld (lineOf g) then s.done s
    else
      let slot := (s.xlat.slots.find? (fun e => e.2.index == g && e.2.st == .loading)).map (fun e => e.1)
      let s' := (s.markSegment g t.outside).retire k
      let s' := match slot with | some i => s'.setXlat { s'.xlat with slots := Tab.del s'.xlat.slots i } | none => s'
      match (s'.entry g).st, slot with
      | .inMedia, some i =>
        let s' := s'.placeSegment g i (((s'.imageOf g).map (fun x => x.leaves)).getD [])
        let s' := if t.flag fPoison then s'.loseSegment g else s'
        s.done ((s'.pumpJobs.endUnits).searchOn.advance)
      | _, _ => s.done s'.advance

/-- DIRTY slots with the record at which each first differed from its image, the oldest first. -/
def State.dirtySlots (s : State) : List (Nat × Nat) :=
  (sortBy (fun a b => decide (a.1 < b.1)) (s.xlat.slots.filterMap (fun e =>
    if e.2.st = .dirty then some (e.2.firstDirty.getD 0, e.2.index) else none)))

/-- SEG_WRITE: the segment writer takes a DIRTY segment, and with it up to three more, the longest dirty first (R167). -/
def execSegWrite (seg : BitVec 22) (s : State) : Host.Outcome State Fault Refusal :=
  let g := seg.toNat
  let ds := s.dirtySlots.map (fun e => e.2)
  s.done (if s.mapUp && ds.contains g then s.writeSegments (g :: (ds.filter (fun x => x != g)).take 3) else s)

/-! ### The map updater (R171, R187) -/

/-- Whether a page may take a LEAF_MAP: 64 free pages of every stream, but in CINCH (R190). -/
def State.ringOk (s : State) : Bool := s.dev.state == .cinch || (List.range 8).all (fun t => decide (64 ≤ s.ringFree t))

/-- Whether a write-through write or a flush waits on a record of the open page (R187). -/
def State.pageAwaited (s : State) : Bool :=
  s.cache.commits.any (fun c => (c.owner == .write || c.owner == .gpf) && (match c.rseq with
    | some n => n / 4096 == s.xlat.jHead
    | none => false))

/-- The jobs forget a codeword whose copy has switched, or was discarded (R221, R223). -/
def State.jobSwitched (s : State) (a rseq : Nat) : State :=
  let b := s.blocks
  s.setBlocks { b with jobs := b.jobs.map (fun (j : Job) =>
    if j.waiting.contains a then { j with waiting := j.waiting.filter (fun x => x != a), rseq := some (Nat.max rseq (j.rseq.getD 0)) } else j) }

/-- Whether the updater may append a LEAF_MAP: none follows the welt delta of a cinch (R199). -/
def State.mayMap (s : State) : Bool :=
  s.mapUp && s.ringOk && (match s.power.cinch with | some x => x.step != .delta | none => true)

/-- LEAF_MAP_APPEND: the updater takes the first programmed leaf whose segment is in the cache and whose line no rebuild holds (R165, R171,
R175, R187). A line of its own that it reads with a CRC error is met by DIR_PATROL's row, and its changes then wait for the rebuild
(R172, R173, log 66). -/
def execLeafMapAppend (s : State) : Host.Outcome State Fault Refusal :=
  match (if s.mayMap then s.xlat.queue.find? (fun i => s.updatable (granuleOf i.leaf)) else none) with
  | none => s.done s
  | some i =>
    if s.lineCorrupt (lineOf (granuleOf i.leaf)) then s.done (s.dirError (lineOf (granuleOf i.leaf)) 0)
    else
    let rseq := s.nextRseq
    let s' := s.setXlat { s.xlat with queue := s.xlat.queue.erase i }
    let s' := s'.mapLeaf i
    let s' := match i.source with | some (a, _) => s'.jobSwitched a.toNat rseq | none => s'
    let s' := match i.tack with
      | some k =>
        let s'' := (s'.setXlat { s'.xlat with void := s'.xlat.void.filter (fun x => x != k) }).retire k
        s''.keepCommits (fun c => !(c.leaf == i.leaf && c.snap && c.rseq.isNone))
      | none => s'
    let s' := if s'.pageAwaited then s'.closePage else s'
    s.done s'.checkSpace.advance

/-- JRN_WINDOW_EXPIRY: JRN_WINDOW µs after its first record a page closes (R187). -/
def execJrnWindowExpiry (s : State) : Host.Outcome State Fault Refusal := s.done (if s.xlat.dirUp then s.closePage else s)

/-! ### Welts -/

/-- JOURNAL_RING_ERASE: a full die-block of a stream's two rings, all of whose pages lie below REPLAY_FROM, is erased (R190). -/
def execJournalRingErase (stream : Fin 8) (block : Fin 4) (s : State) : Host.Outcome State Fault Refusal :=
  let inBlock := fun (e : Nat × Nat) => e.1 / 8192 == stream.val && e.1 / 1024 % 4 == block.val
  let old := s.xlat.ring.filter inBlock
  let low := match s.newestWelt with | some w => w.replayFrom / 4096 | none => 0
  if s.xlat.dirUp && old.length == 2048 && old.all (fun e => decide (e.2 < low)) then
    let ring := s.xlat.ring.filter (fun e => !inBlock e)
    let ks := (List.range 2).flatMap (fun c => (List.range 4).map (fun p => pbKey (dieKey (stream.val + 8 * c) 0) p (1028 + block.val)))
    let s' := s.eraseNow ks (fun r => { r with flags := r.flags &&& 2#8, openAge := 0, closeAge := 0, lastPage := none, corrMax := 0 })
    let dbs := [dbKey (dieKey stream.val 0) (1028 + block.val), dbKey (dieKey (stream.val + 8) 0) (1028 + block.val)]
    let s' := dbs.foldl State.retireMarked s'
    s.done (s'.setXlat { s'.xlat with ring := ring, pages := s'.xlat.pages.filter (fun p =>
      !(p.jseq % 8 == stream.val && decide (p.jseq < low) && !ring.any (fun e => e.2 == p.jseq))) })
  else s.done s

/-- The segments that must be written before a mark (R183), or before a clean shutdown's (R194). -/
def State.mustWrite (s : State) (clean : Bool) : List Nat :=
  (s.dirtySlots.filter (fun e => clean || decide (e.1 < s.xlat.markRseq))).map (fun e => e.2)

/-- Whether images of such segments are still under way. -/
def State.imagesUnderWay (s : State) (clean : Bool) : Bool :=
  s.xlat.segWrites.any (fun e => clean || decide (e.2.oldFirst.getD 0 < s.xlat.markRseq))

/-- The directory as a welt holds it: a resident segment by its newest image, or ABSENT when it has none (log 27). -/
def State.weltDir (s : State) : Tab DirEntry :=
  s.xlat.dir.map (fun e =>
    match e.2.st with
    | .resident =>
      match s.segSlot e.1 with
      | some sl => (e.1, if sl.primary = 0 then { e.2 with st := .absent, dirty := false, loc := 0 }
          else { e.2 with st := .inMedia, dirty := false, loc := sl.primary })
      | none => e
    | _ => e)

/-- Drift state of a die as a welt holds it (Table 5.8). -/
def State.weltAges (s : State) : Tab WeltAge :=
  s.drift.dies.map (fun e => (e.1, { counter := e.2.counter, cBrand := e.2.cBrand, groups := e.2.groups, assumed := e.2.assumed
                                     clamped := e.2.clamped, uLast := e.2.uApplied / 256 }))

/-- The contents of the welt of the mark at `rseq` (R183, R191, R193). -/
def State.captureWelt (s : State) (rseq : Nat) (clean : Bool) : Welt :=
  let firsts := s.xlat.slots.filterMap (fun e => e.2.firstDirty) ++ s.xlat.segWrites.filterMap (fun e => e.2.oldFirst)
  { seq := s.xlat.weltSeq + 1, setB := match s.newestWelt with | some w => !w.setB | none => false
    clean := clean, holeFull := s.drift.holeFull, markRseq := rseq, replayFrom := firsts.foldl Nat.min rseq
    opSeconds := s.store.opSeconds, progSeq := s.progSeq, fullSeconds := if s.drift.holeFull then s.drift.fullSeconds else 0
    dir := s.weltDir, segTable := s.xlat.segTable, pbs := s.blocks.pbs, stitches := s.blocks.stitches
    stitchSeq := s.blocks.stitchSeq, mapFill := s.xlat.mapFill
    gone := (s.ctl.filter (fun e => e.2.retired || e.2.lost)).map (fun e => (e.1, if e.2.lost then 6 else 5)), pins := s.xlat.pins, holes := s.drift.holes, ages := s.weltAges
    learned := s.drift.learned.map (fun e => (e.1, { Learned.init with g := e.2.g })) }

/-- Steps 2-4 of R193: the mark, the copy, and the erase of the set that the welt takes. Step 5 follows die by die (R191). -/
def State.markWelt (s : State) (clean : Bool) : State :=
  let rseq := s.nextRseq
  let w := s.captureWelt rseq clean
  let s := s.append (.weltMark w.seq (flag w.setB))
  let dbs := weltBlocks w.setB
  let streams := (List.range 16).map (fun ch => (dieKey ch 0, (ch % 8, 0)))
  let s := s.setXlat { s.xlat with run := some (.image w dbs streams), welts := s.xlat.welts.filter (fun x => x.setB != w.setB)
                                   markRseq := rseq, sinceMark := 0, weltDue := false }
  dbs.foldl (fun s db => s.spawnSystemErase engWelt db) s

/-- Asks again for what a welt under way could get no slot for: the erases of its set, and the next program of each die. -/
def State.resumeWelt (s : State) (erasing : List Nat) (streams : Tab (Nat × Nat)) : State :=
  let busy := fun (die : Nat) => s.programs.any (fun e => e.1.origin == .engine engWelt && e.2.die == die)
  let s := (erasing.filter (fun db => !busy (dbDie db))).foldl (fun s db => s.spawnSystemErase engWelt db) s
  (streams.filter (fun e => !busy e.1)).foldl (fun s e => s.weltNext e.1) s

/-- Takes a welt as far as it can go: the segments first, then the mark (R193 steps 1-4). -/
def State.startWelt (s : State) (clean : Bool) : State :=
  match s.mustWrite clean with
  | [] => if s.imagesUnderWay clean then s.setXlat { s.xlat with run := some (.segments [] clean) } else s.markWelt clean
  | gs => (s.setXlat { s.xlat with run := some (.segments gs clean) }).writeSegments (gs.take 4)

/-- WELT_START: a welt that is due begins, or one that waits goes on (R192, R193). -/
def execWeltStart (s : State) : Host.Outcome State Fault Refusal :=
  s.done (if !s.mapUp then s else
    match s.xlat.run with
    | none => if s.xlat.weltDue then s.startWelt false else s
    | some (.segments _ clean) => s.startWelt clean
    | some (.image _ erasing streams) => s.resumeWelt erasing streams)

/-- WELT_PERIOD_EXPIRY: the period has passed since the last mark (R192); one that expires during a welt no longer holds at its
end. -/
def execWeltPeriodExpiry (s : State) : Host.Outcome State Fault Refusal :=
  s.done (if s.mapUp && s.xlat.run.isNone then s.setXlat { s.xlat with weltDue := true } else s)

/-- The footer of a welt has programmed in both copies: WELT_DONE is appended and its page closes (R193 step 6). A trigger that
arrived meanwhile is taken when its condition still holds (R192). The wall time is written with each welt (R133). -/
def State.endWelt (s : State) (w : Welt) : State :=
  let s := s.append (.weltDone w.seq (flag w.setB))
  let x := s.xlat
  ((s.setXlat { x with welts := x.welts ++ [w], weltSeq := w.seq, run := none
                       weltDue := decide (s.weltMib * 2 ^ 20 ≤ 32 * x.sinceMark) || s.pressure }).closePage).saveWall

/-- WELT_DONE: once the image has programmed whole, in both copies, the welt ends (R193). -/
def execWeltDone (s : State) : Host.Outcome State Fault Refusal :=
  s.done (match s.xlat.run with | some (.image w [] []) => if s.mapUp then s.endWelt w else s | _ => s)

/-- The write of XLAT_CTRL (Table 5.10): WELT_NOW triggers a welt. -/
def State.writeXlatCtrl (s : State) (v : Nat) : State :=
  let s := s.setReg rXlatCtrl (v % 4 + bits v 9 1 * 512)
  if bit v 8 && s.mapUp then s.setXlat { s.xlat with weltDue := true } else s

def execWeltNow (v : Word) (s : State) : Host.Outcome State Fault Refusal := s.done (if s.barOpen then s.writeXlatCtrl v.toNat else s)

/-! ### Directory lines (R172-R178) -/

/-- The bytes of record 0x0011 (Table 13.3). -/
def State.remapBytes (s : State) : List Byte :=
  (List.range 8).flatMap (fun n =>
    match Tab.find s.xlat.spares n with
    | some sp => le 8 ((match sp.line with | some l => 2 ^ 31 + l | none => 0) + flag sp.bad * 2 ^ 30)
    | none => zeros 8)

/-- Remaps a line that met its third error (R177): to the first free spare; a spare of its own goes BAD. -/
def State.remapLine (s : State) (line : Nat) : State :=
  let sp := s.xlat.spares.map (fun e => if e.2.line = some line then (e.1, ({ line := none, bad := true } : Spare)) else e)
  match (List.range 8).find? (fun n => (Tab.find sp n).isNone) with
  | some n =>
    let sp := Tab.put sp n { line := some line, bad := false }
    let s := s.setXlat { s.xlat with spares := sp, remapFull := decide (8 ≤ sp.length), errs := s.xlat.errs.filter (fun e => e.line != line) }
    s.save recDirRemap s.remapBytes
  | none =>
    (s.setXlat { s.xlat with remapFull := true }).event portCore 0x0502 s.devicePath (le 4 line)

/-- The newest image of a segment among the map-area trailers (R176). -/
def State.scanImage (s : State) (g : Nat) : Option (Nat × SegImage) :=
  s.xlat.images.foldl (fun best e =>
    if e.2.index = g then
      match best with
      | some b => if b.2.count < e.2.count then some e else some b
      | none => some e
    else best) none

/-- The records of the journal index that the device keeps, oldest first, each with its RSEQ: those of the programmed pages and of the
open page (R175 step 4). -/
def State.journalIndex (s : State) : List (Nat × JRec) :=
  recordsOf (sortBy (fun (a b : JPage) => decide (a.jseq < b.jseq)) s.xlat.pages)
    ++ ((List.range s.xlat.jRecs.length).zip s.xlat.jRecs).map (fun e => (s.xlat.jHead * 4096 + e.1, e.2))

/-- A record of the index applied to an entry that is formed anew (R175 step 4). -/
def rescued (g : Nat) (e : DirEntry) (r : JRec) : DirEntry :=
  match r with
  | .granule sub c first n =>
    if first ≤ g ∧ g < first + n then
      (if sub = 0 then { DirEntry.unbound with ctx := c, dirty := false } else if sub = 1 then DirEntry.unbound else e)
    else e
  | .segLoc c i primary _ _ dropped =>
    if i = g ∧ e.bound then
      (if dropped then { e with ctx := c, st := .absent, loc := 0 } else { e with ctx := c, st := .inMedia, loc := primary })
    else e
  | _ => e

/-- An entry of a line whose welt page is unreadable in both copies (R176): from the newest image that the trailers give, or else the
GRANULE records before the mark; the records at and above the mark then apply (R175 step 4). -/
def State.rescueEntry (s : State) (g : Nat) : DirEntry :=
  let e := s.entry g
  if e.st = .resident then e
  else
    let (new, old) := s.journalIndex.partition (fun r => decide (s.xlat.markRseq ≤ r.1))
    let base := match s.scanImage g with
      | some (a, i) => { ctx := i.ctx, st := .inMedia, pinned := false, dirty := false, loc := BitVec.ofNat 36 a }
      | none => (old.map (fun r => r.2)).foldl (rescued g) DirEntry.unbound
    let d := (new.map (fun r => r.2)).foldl (rescued g) base
    if d.bound then { d with pinned := s.xlat.pins.contains g || (s.ctx d.ctx.toNat).cls != 2#2 } else d

/-- DIR_LINE_REBUILD: one of the first four lines that wait is written whole, and what it held goes on (R175-R177). From the
tags, the welt and the journal index it regains its entries; without the welt page, what the trailers give. A line that its read-back
finds bad is an error again (R172, step 5). -/
def execDirLineRebuild (line : BitVec 19) (out : LineRebuild) (s : State) : Host.Outcome State Fault Refusal :=
  let l := line.toNat
  if !s.xlat.dirUp || !((s.xlat.badLines.take 4).contains l) then s.done s
  else
    let gs := (List.range 8).map (fun i => 8 * l + i)
    let s' := if out.weltOk then s
      else
        let lost := (gs.filter (fun g => (s.entry g).bound && !(s.rescueEntry g).bound)).length
        (gs.foldl (fun s g => s.setEntry g (s.rescueEntry g)) s).event portCore 0x0501 s.devicePath (le 4 l ++ le 4 lost)
    if !out.readBack then s.done (s'.dirError l 3)
    else
    let s' := if s.xlat.errs.any (fun e => e.line == l && decide (3 ≤ e.count)) then s'.remapLine l else s'
    let s' := ({ s' with host := { s'.host with dirRebuilds := s'.host.dirRebuilds + 1 } }).aer .corrected []
    let s' := s'.setXlat { s'.xlat with badLines := s'.xlat.badLines.filter (fun x => x != l) }
    let due := s'.xlat.pinsDue.filter (fun p => lineOf p.1 == l)
    let s' := s'.setXlat { s'.xlat with pinsDue := s'.xlat.pinsDue.filter (fun p => lineOf p.1 != l) }
    let s' := due.foldl (fun s p => s.pin p.1 p.2) s'
    s.done (gs.foldl State.segmentWritten s').advance

/-- DIR_PATROL: the hourly read of a line (R178). A read of the map updater that finds the line bad, for whatever change, is reported here
too: it comes between two reads of the patrol (R172, log 66). -/
def execDirPatrol (line : BitVec 19) (found : LineRead) (s : State) : Host.Outcome State Fault Refusal :=
  let patrol := s.powered && bit (s.reg rXlatCtrl) 9
  s.done (match found with
    | .good => if patrol && (!s.xlat.dirUp || s.lineCorrupt line.toNat) then s.dirError line.toNat 1 else s
    | .bad => if patrol then s.dirError line.toNat 1 else s
    | .badToUpdater => if s.xlat.dirUp then s.dirError line.toNat 0 else s)

/-- The write of XLAT_DIR_PEEK_SEL: it reads an entry (Table 5.12). A line that mount has not written is an error (R174); what PEEK_LO
and PEEK_HI then show is a free value (log 10). -/
def State.peekEntry (s : State) (index : Nat) (crcOk : Bool) : State :=
  let ok := crcOk && s.xlat.dirUp && !s.lineHeld (lineOf index) && !s.lineCorrupt (lineOf index)
  let free := (Config.free s.nonce).toNat + 2 ^ 32 * (Config.free (s.nonce + 1)).toNat
  let s := s.setXlat { s.xlat with peekOk := ok, peek := index, peekWord := if ok then (s.entry index).word else free }
  if ok then s else (s.tick.tick).dirError (lineOf index) 2

/-- DIR_PEEK. -/
def execDirPeek (index : BitVec 22) (crcOk : Bool) (s : State) : Host.Outcome State Fault Refusal :=
  s.done (if s.barOpen then s.peekEntry index.toNat crcOk else s)

end Sys2Proof.Machine
end

