-- ==== Sys2Proof/Machine/Power.lean ====
section
/-! DEFINITION. The power steward: the board description as loaded, rails and their sequencing, channel start, requests, the
changes of state that power and faults cause, and the cinch (R79, R348-R363, R371-R373; Tables 7.8, 11.3-11.8). -/

namespace Sys2Proof.Machine

def State.setPower (s : State) (p : Power) : State := { s with power := p }

/-! ### The board description in force (R379, Table 12.2) -/

/-- `n` bytes of a board description record as a number. -/
def bdField (bd : List Byte) (off n : Nat) : Nat := ofLe ((bd.drop off).take n)

/-- A field of the description in force; 0 in HELD (R11). -/
def State.bd (s : State) (off n : Nat) : Nat := match s.boot.bd with | some b => bdField b off n | none => 0

def State.railMap (s : State) (k : Nat) : Bool := bit (s.bd 0x080 2) k
def State.chPop (s : State) (ch : Nat) : Bool := bit (s.bd 0x010 12) ch
def State.diePop (s : State) (k : Nat) : Bool := bit (s.bd (0x020 + k / 8) 1) (k % 8)

/-! ### Rails (Tables 11.1, 11.2) -/

/-- Nominal of the rail in a converter slot, mV; slots 30-39 have none. -/
def nominal (slot : Nat) : Nat :=
  match slot with
  | 0 => 1800 | 1 => 750 | 2 => 800 | 3 => 1100 | 4 => 900 | 5 => 1200
  | _ => if slot < 30 then (if slot % 2 = 0 then 2500 else 1200) else 0

/-- Within ±5 % of nominal (R352). -/
def inWindow (slot mv : Nat) : Bool :=
  decide (slot < 30) && decide (95 * nominal slot ≤ 100 * mv) && decide (100 * mv ≤ 105 * nominal slot)

/-- Off: below 10 % of nominal (R352). -/
def railOff (slot mv : Nat) : Bool := decide (10 * mv < nominal slot)

def State.adcMv (s : State) (slot : Nat) : Nat := Tab.get s.power.adc slot 0
def State.pfwLevel (s : State) : Nat := s.field rPwrPfwLevel 0 14
def State.holdFloor (s : State) : Nat := s.field rPwrHoldCfg 0 16

/-- Raises or lowers the enable of a slot's rail. -/
def State.enableRail (s : State) (slot : Nat) (on : Bool) : State :=
  let rs := s.power.rails.filter (fun x => x != slot)
  s.setPower { s.power with rails := if on then rs ++ [slot] else rs, outside := s.power.outside.filter (fun x => x != slot) }

/-- Sets the failure bit of a rail and RAIL_FAULT (Tables 11.11, 11.13). -/
def State.railFailed (s : State) (slot : Nat) : State :=
  (if slot < 6 then s.setBit rPwrRailFail slot else s.setBit rPwrMedFail (slot - 6)).setBit rPwrStatus 4

/-! ### Channel start (R79) -/

/-- Starts a channel, if the board populates it: RESET_N is low, and what is known of its populated dies begins anew; a unit that left
service stays out of it (R79, R228). -/
def State.startChannel (s : State) (ch : Nat) : State :=
  if !s.chPop ch then s
  else
    let s := (((List.range 8).map (dieKey ch)).filter s.diePop).foldl (fun s k =>
      s.setCtl k { DieCtl.init with retired := (s.ctlOf k).retired, lost := (s.ctlOf k).lost }) s
    s.setChan ch { Channel.init with st := .reset }

/-- Both rails of an octet are in their windows: its channels start. -/
def State.startOctet (s : State) (k : Nat) : State := (List.range 8).foldl (fun s i => s.startChannel (8 * k + i)) s

/-- The dies of octet `k` lose power, and its channels stop (R72). -/
def State.darkOctet (s : State) (k : Nat) : State :=
  let s := ((List.range 8).map (fun i => 8 * k + i)).foldl State.dropPhase s
  let s := s.darken (fun d => d / 64 == k)
  { s with chans := s.chans.filter (fun e => e.1 / 8 != k) }

/-- A program that a powered die runs or holds (R34, R361). -/
def State.arrayBusy (s : State) : Bool := s.dies.any (fun e => match e.2.op with | some o => !o.erase | none => false)

/-- Programs that a die holds go on, to their ends (R34). -/
def State.resumePrograms (s : State) : State :=
  { s with dies := s.dies.map (fun (e : Nat × Die) => match e.2.op with
      | some o => if o.erase then e else (e.1, e.2.takeResume)
      | none => e) }

/-- An octet whose rail failed: both enables drop, OCTET_OFF is set and its dies are offline by fault (R358, Table 11.5). -/
def State.octetFails (s : State) (k : Nat) : State :=
  let s := (s.enableRail (6 + 2 * k) false).enableRail (7 + 2 * k) false
  let s := s.setPower { s.power with octetOff := s.power.octetOff ||| BitVec.ofNat 12 (2 ^ k) }
  (s.darkOctet k).faultUnit 2 (64 * k) 64

/-! ### Changes of state -/

/-- A pin of the board. -/
def State.drive (s : State) (name : String) (level : Bool) : State := s.emit (.pin name level)

/-- Entry to POWERING_DOWN: CHG_EN low, programs that are held go on, OP_SECONDS and a changed overflow count written (R359, R403, R411). -/
def State.powerDown (s : State) : State :=
  let p := s.power
  let s := s.setPower { p with chg := false, meas := none, up := .none, offAsked := false, cinch := none, tempCeiling := false, faultWait := none }
  let s := (s.resumePrograms.goto .poweringDown).save recOpSeconds (le 8 s.store.opSeconds)
  if s.store.evOverflowDirty then
    (s.setStore { s.store with evOverflowDirty := false }).save recEvtOverflow (le 8 s.store.evOverflow)
  else s

/-- Causes of DEV_FAULT (Table 13.8). -/
abbrev causeNoWelt : Nat := 1
abbrev causeBoot : Nat := 2
abbrev causeRail : Nat := 3
abbrev causePll : Nat := 4

/-- Entry to FAULT: the event, and the end of the commands that FAULT does not accept (R338). A power-fail warning that came
before, while the device ran on the hold path, then takes it down (R33, Table 1.15). -/
def State.enterFault (s : State) (cause : Nat) : State :=
  let prev := s.dev.state.code
  let s := s.setPower { s.power with cinch := none, meas := none, up := .none, faultWait := none }
  let s := if s.host.up then s.aerFree .fatal else s
  let s := ((s.goto .fault).event portPower 0x0101 s.devicePath (le 1 prev ++ le 1 cause)).crossedCommands.faultCommands
  if s.power.pfwLow && s.power.pathHold then s.powerDown else s

/-- A fault in POWERING, HELD or MOUNTING: FAULT once the die programs already issued have ended (R26, R31, R361). -/
def State.waitFault (s : State) (cause : Nat) : State :=
  if s.power.faultWait.isSome then s
  else if s.arrayBusy then s.resumePrograms.setPower { s.resumePrograms.power with faultWait := some cause }
  else s.enterFault cause

/-- The fault that waited for the last program takes effect. -/
def State.afterProgram (s : State) : State :=
  match s.power.faultWait with
  | some c => if s.arrayBusy then s else s.enterFault c
  | none => s

/-- E of R128, and whether it comes from the wall time; else it comes from the AON count, when it is known. -/
def State.elapsed (s : State) : Option Nat × Bool :=
  match (if s.power.wallFresh then s.wallNow else none), s.drift.storedWall with
  | some now, some old => (some (now - old), true)
  | _, _ => (s.drift.darkSeconds, false)

/-- E as events carry it; when none is known the field is a free value (log 10). -/
def State.elapsedBytes (s : State) : List Byte :=
  match s.elapsed.1 with | some e => le 4 e | none => le 4 (Config.free s.nonce).toNat

/-- A die still PROVISIONAL when a cinch begins keeps its provisional U (R131). -/
def State.settleProvisional (s : State) : State :=
  let s := s.drift.dies.foldl (fun s e =>
    if e.2.provisional then
      let s := s.setAge e.1 { e.2 with provisional := false, assumed := true, brandRun := none }
      (s.event portDrift 0x0402 (s.diePath e.1) (le 4 (e.2.uApplied / 256) ++ s.elapsedBytes ++ le 1 1)).tick
    else s) s
  { s with drift := { s.drift with assessing := false } }

/-- Entry to CINCH (Tables 7.8 and 11.6): range operations and drains stop, commands post nothing more, an in-service measurement
ends unfinished with its temporary ceiling in force, the COPY stream stops. On the main path a bank that was draining goes
back to it (R373). -/
def State.enterCinch (s : State) (why : CinchWhy) (fault : Option Nat) : State :=
  let s := s.settleProvisional
  let p := s.power
  let s := s.setPower { p with cinch := some { why := why, fault := fault, step := .accept, deltaRseq := none }, meas := none
                               pathMain := p.pathMain || why != .pfw, pathHold := p.pathHold && why == .pfw, shutdown := if p.shutdown == .held then .held else .none }
  let s := s.setCache { s.cache with rng := none, rngQueue := [], draining := false, disableWaits := false }
  let s := s.setBlocks { s.blocks with copyOffers := [] }
  let s := { s with cmdq := { s.cmdq with stopped := none }, cache := { s.cache with pause := false }
                    img := { s.img with st := if s.img.st = StageSt.activating then StageSt.staged else s.img.st } }
  ((s.goto .cinch).markAll.crossedCommands.cinchCommands).judgeAll.advance

/-- The step of Table 7.8 last completed. -/
def CinchStep.lastDone (c : CinchStep) : Nat :=
  match c with | .accept => 2 | .writeback => 4 | .parity => 5 | .journal => 6 | .delta => 7

/-- The end of a cinch (R33, R268, R373): its cause is recorded, cuts are counted, a cut before the delta's commit is logged,
and the device powers down, or enters FAULT after a fault. -/
def State.endCinch (s : State) (cause : Nat) : State :=
  match s.power.cinch with
  | none => s
  | some c =>
    let s := s.setPower { s.power with cutCause := cause }
    let s := if cause = 2 then s.bump rPwrCuts 16 16 1 else if cause = 3 then s.bump rPwrCuts 0 16 1 else s
    let s := if cause = 1 then s
      else ({ s with host := { s.host with cinchCut := true } }).event portPower 0x0109 s.devicePath
        (le 4 s.dirtyLines ++ le 1 c.step.lastDone ++ le 1 cause)
    match c.fault with
    | some f => s.enterFault f
    | none => s.powerDown

/-- A fault that leaves the cinch path working (R26, Table 11.5). -/
def State.softFault (s : State) (cause : Nat) : State :=
  match s.dev.state with
  | .serving | .maintenance => s.enterCinch .fault (some cause)
  | .cinch => s.setPower { s.power with cinch := s.power.cinch.map (fun c => { c with fault := some cause }) }
  | .powering | .held | .mounting => s.waitFault cause
  | _ => s

/-- An off request (R356): in SERVING and MAINTENANCE the clean shutdown path runs first, unless it has completed; in POWERING the
present step completes first (Table 11.6). -/
def State.offRequest (s : State) : State :=
  match s.dev.state with
  | .serving | .maintenance =>
    if s.power.shutdown = .held then s.powerDown else s.setPower { s.power with offAsked := true }
  | .powering => if s.power.up = .none then s.powerDown else s.setPower { s.power with offAsked := true }
  | .held | .mounting | .fault => s.powerDown
  | .cinch => s.setPower { s.power with offAsked := true }
  | _ => s

/-! ### Power-up (Table 11.3) -/

/-- Step 14: MOUNTING, or FAULT when a rail failed that the device cannot do without (R358). -/
def State.railsDone (s : State) : State :=
  let s := s.setPower { s.power with up := .none }
  if s.power.offAsked then s.powerDown
  else if [1, 2, 3, 5].any (fun i => s.power.timedOut.contains i) then s.waitFault causeRail
  else { s.goto .mounting with boot := { s.boot with step := .boot } }

/-- Raises VMED of the first octet from `k` up that the rail map populates; with none left the rails are done (steps 12-14). -/
def State.nextOctet (s : State) (k : Nat) : State :=
  match (List.range 12).find? (fun j => decide (k ≤ j) && s.railMap j) with
  | some j => (s.enableRail (6 + 2 * j) true).setPower { (s.enableRail (6 + 2 * j) true).power with up := .med j false }
  | none => s.railsDone

/-- C, ESR and floor give the usable energy in mJ with the bank at `top` mV (R365), rounded down (log 29). -/
def State.energyAt (s : State) (c esr top : Nat) : Nat :=
  let fl := s.holdFloor
  let veff : Rat := fl + (s.field rPwrHoldCfg 16 16 * esr : Nat) / (fl : Rat)
  let e : Rat := (c : Rat) * ((top : Rat) * top - veff * veff) / (2 * 10 ^ 9)
  if e ≤ 0 then 0 else e.floor.toNat

/-- Sets the energy figure in force, a bank measurement for R263 (R368). -/
def State.setEnergy (s : State) (e : Nat) : State := (s.setPower { s.power with bankE := e }).recomputeCeiling e

/-- A new measurement through a window. -/
def Meas.charging (inService windowB : Bool) (prevE : Nat) : Meas :=
  { step := .charge, inService := inService, windowB := windowB, t1 := none, t2 := none, vb := 0, prevE := prevE }

/-- Step 11: charging starts, with the power-up measurement that R366 chooses by the bank voltage. The ceiling follows the stored figure, 0 when there is
none (R368). -/
def State.startCharging (s : State) : State :=
  let mv := s.adcMv 32
  let s := s.recomputeCeiling s.power.bankE
  let p := s.power
  if mv < 31000 then s.setPower { p with chg := true, meas := some (Meas.charging false (decide (20000 ≤ mv)) p.bankE), measDue := false }
  else s.setPower { p with chg := decide (mv < 35000), meas := none, measDue := true }

/-- Steps 11 and 12: the bank charges and the media rails rise, in ascending order of octet. -/
def State.mediaRails (s : State) : State := s.startCharging.nextOctet 0

/-! ### The board description record (Tables 12.2, 12.3) -/

abbrev devId : Nat := 0x09600410

/-- Offsets of the bytes that Table 12.2 gives as 0. -/
def bdZeroBytes : List Nat :=
  [0x00F, 0x01C, 0x01D, 0x01E, 0x01F] ++ (List.range 14).map (fun i => 0x082 + i) ++ [0x0FC, 0x0FD, 0x0FE, 0x0FF, 0x101, 0x10D] ++
    (List.range 234).map (fun i => 0x112 + i)

/-- The first offset that breaks FORMAT. -/
def bdFormat (b : List Byte) : Option Nat :=
  if bdField b 0 4 ≠ 0x42445343 then some 0
  else if bdField b 4 2 ≠ 1 then some 4
  else if bdField b 6 2 ≠ 512 then some 6
  else
    let bad := bdZeroBytes.filter (fun i => bdField b i 1 != 0) ++ (if 4096 ≤ bdField b 0x080 2 then [0x081] else [])
      ++ ((List.range 96).filter (fun n => decide (16 ≤ bdField b (0x090 + n) 1))).map (fun n => 0x090 + n)
    match bad with
    | [] => none
    | x :: r => some (r.foldl Nat.min x)

/-- The link presets of Table 8.3: SPEED_CAP, WIDTH_CAP and CXL_OFFER by LINK_PROFILE. -/
def linkPreset (p : Nat) : Option (Nat × Nat × Nat) :=
  match p with | 0 => some (6, 8, 1) | 1 => some (6, 8, 0) | 2 => some (5, 8, 1) | _ => none

/-- The fields with a range: offset, bytes, lowest, highest (Tables 12.2, 11.12). -/
def bdRanges : List (Nat × Nat × Nat × Nat) :=
  [(0x0F4, 2, 500, 8000), (0x0F6, 2, 50, 400), (0x0F8, 2, 12000, 20000), (0x100, 1, 0, 1), (0x108, 1, 0, 3)]

/-- What a check of Table 12.3 finds: the reason and the first faulty byte. -/
def bdCheck (b : List Byte) : Option (Nat × Nat) :=
  if crc32c (b.take 0x1FC) ≠ bdField b 0x1FC 4 then some (2, 0x1FC)
  else match bdFormat b with
  | some o => some (3, o)
  | none =>
    let drive3 := ((List.range 96).filter (fun n => bdField b (0x090 + n) 1 % 4 == 3)).map (fun n => 0x090 + n)
    let ranges := (bdRanges.filter (fun r => decide (bdField b r.1 r.2.1 < r.2.2.1) || decide (r.2.2.2 < bdField b r.1 r.2.1))).map (fun r => r.1)
    let caps := (if bdField b 0x109 1 < 1 ∨ 6 < bdField b 0x109 1 then [0x109] else [])
      ++ (if bdField b 0x10A 1 ∈ [1, 2, 4, 8] then [] else [0x10A]) ++ (if 1 < bdField b 0x10B 1 then [0x10B] else [])
      ++ (if 2 < bdField b 0x10C 1 then [0x10C] else [])
    let pop := fun n => bit (bdField b 0x010 12) n
    let badPop := ((List.range 96).filter (fun n => pop n == (bdField b (0x020 + n) 1 == 0))).map (fun n => 0x020 + n)
    let noDie0 := (((List.range 16) ++ [24, 48, 72]).filter (fun n => !bit (bdField b (0x020 + n) 1) 0)).map (fun n => 0x020 + n)
    let first := fun (l : List Nat) => match l with | [] => none | x :: r => some (r.foldl Nat.min x)
    let rails := (List.range 12).any (fun k => !bit (bdField b 0x080 2) k && (List.range 8).any (fun i => pop (8 * k + i)))
    let fl := bdField b 0x0F8 2
    let w := bdField b 0x102 2
    let t := bdField b 0x104 2
    let c := bdField b 0x106 2
    if bdField b 0x00C 3 ≠ devId / 256 then some (4, 0x00C)
    else match first (drive3 ++ ranges ++ caps) with
    | some o => some (5, o)
    | none => match first (badPop ++ noDie0) with
      | some o => some (6, o)
      | none =>
        if rails then some (7, 0x080)
        else if bdField b 0x0F0 4 * (34500 * 34500 - fl * fl) < 42 * 2 * 10 ^ 12 then some (8, 0x0F0)
        else if !(decide (70 ≤ w) && decide (w < t) && decide (t < c) && decide (c ≤ 115)) then some (9, 0x102)
        else match linkPreset (bdField b 0x108 1) with
          | some (sp, wi, cx) =>
            if bdField b 0x109 1 ≠ sp then some (10, 0x109) else if bdField b 0x10A 1 ≠ wi then some (10, 0x10A)
            else if bdField b 0x10B 1 ≠ cx then some (10, 0x10B) else none
          | none => none

/-- The verdict on COMMITTED (R381): none when it is valid. -/
def State.committedFault (s : State) : Option (Nat × Nat) :=
  match s.store.record recBoard with
  | none => some (1, 0)
  | some b => bdCheck b

/-- Loads the BD fields of the registers (R11, R379, R384). -/
def State.loadBd (s : State) (b : List Byte) : State :=
  let s := { s with boot := { s.boot with bd := some b, linkBd := some b } }
  let s := s.setReg rPwrHoldCfg (bdField b 0x0F6 2 * 65536 + bdField b 0x0F8 2)
  let s := s.setField rPwrChgCfg 0 13 (bdField b 0x0F4 2)
  let s := s.setReg rThermLimits (bdField b 0x106 2 * 65536 + bdField b 0x104 2 * 256 + bdField b 0x102 2)
  (List.range 96).foldl (fun s n =>
    let v := bdField b (0x090 + n) 1
    (s.setField (rChCtrl n) 8 2 (v / 4)).setField (rChCtrl n) 10 2 v) s

/-- Steps 9 and 10: the main domains leave reset, and the verdict on the board description sends the device on or into HELD
(R381, R382). -/
def State.verdict (s : State) : State :=
  let s := s.setPower { s.power with up := .none, pllLost := false }
  match s.committedFault, s.store.record recBoard with
  | none, some b => (s.loadBd b).mediaRails
  | f, _ =>
    let (reason, off) := f.getD (1, 0)
    let s := s.event portBoot 0x0A01 s.devicePath (le 1 reason ++ [0] ++ le 2 off ++ le 1 0)
    s.goto .held

/-- The next step of power-up after the wait `up` ended; `ok`: the rail is in its window, else it timed out (Table 11.3). An off
request that came meanwhile takes effect here (Table 11.6). -/
def State.stepUp (s : State) (ok : Bool) : State :=
  let up := s.power.up
  let s := match up with | .med k true => if ok && s.dev.state == DevState.powering then s.startOctet k else s | _ => s
  if s.power.offAsked then s.powerDown
  else match up with
  | .bulk => (s.enableRail 0 true).setPower { (s.enableRail 0 true).power with up := .rail 0 }
  | .rail i =>
    if i < 5 then (s.enableRail (i + 1) true).setPower { (s.enableRail (i + 1) true).power with up := .rail (i + 1) }
    else s.verdict
  | .med k false =>
    if ok then (s.enableRail (7 + 2 * k) true).setPower { (s.enableRail (7 + 2 * k) true).power with up := .med k true }
    else s.nextOctet (k + 1)
  | .med k true => s.nextOctet (k + 1)
  | _ => s

/-! ### Power-down (Table 11.4) -/

/-- Entry to STANDBY: the main domains lose power. What stands on the medium, in the store, in the AON island and in the service
port stays (R11, R332, R349), and of the welt under way what has programmed whole (R195); a unit that left service by retirement or fault stays out of it (R228).
The CXL view of events goes with the host port, which R295 does not say (DESIGN CHOICE, log 76). -/
def State.standby (s : State) : State :=
  let aon := fun (off : Nat) => decide (0xB0000 ≤ off) && decide (off < 0xC0000) || decide (0xD0000 ≤ off) && decide (off < 0xE0000)
    || decide (0x100000 ≤ off) && decide (off < 0x110000)
  let x := s.xlat
  let whole := match x.run with | some (.image w [] []) => [w] | _ => []
  let c := s.cmdq
  let p := s.power
  let s := (s.darken (fun _ => true)).resetRegs (fun off => !aon off)
  let faulted := s.blocks.leaving.filter (fun u => u.fault)
  let s := { s with dev := { s.dev with readOnly := false, spaceLow := false },
                    tacks := [], chans := [], dies := [], arbs := [], drift := Drift.reset, therm := { Therm.reset with critPowerDown := s.therm.critPowerDown }
                    intc := { host := [], core := [], targets := [], coreTargets := [] }, obs := Obs.reset, cache := Cache.reset, ctxs := []
                    ctl := (s.ctl.filter (fun (e : Nat × DieCtl) => e.2.retired || e.2.lost)).map (fun (e : Nat × DieCtl) => (e.1, { DieCtl.init with retired := e.2.retired, lost := e.2.lost })) }
  let s := { s with xlat := { Xlat.reset with images := x.images, welts := x.welts ++ whole, ring := x.ring, ringAt := x.ringAt
                                              pages := x.pages.filter (fun q => q.primary || q.mirror) }
                    blocks := { Blocks.reset with totals := s.blocks.totals, snapshots := s.blocks.snapshots, blank := s.blocks.blank, dropped := s.blocks.dropped
                                                  pbs := s.blocks.pbs, stitches := s.blocks.stitches, stitchSeq := s.blocks.stitchSeq
                                                  leaving := faulted.map (fun (u : Leaving) => { u with sweep := none }) }
                    harness := Harness.reset
                    host := { HostPort.reset with cinchCut := s.host.cinchCut, dirtyMounts := s.host.dirtyMounts, dirRebuilds := s.host.dirRebuilds }
                    cmdq := { Cmdq.reset with seqs := c.seqs, nextId := c.nextId, cmds := c.cmds.filter (fun x => x.port == Port.svc && x.posts) }
                    boot := { step := .none, slot := 0, triedPrevious := s.boot.triedPrevious, bd := none, linkBd := s.boot.linkBd }
                    unborn := []
                    img := { (match s.img.st with | .header | .receiving | .verifying => s.img.empty | _ => { s.img with page := [], pages := [], copies := [] }) with
                             lastActivation := 0, bootTodo := [] } }
  let s := s.setPower { p with up := .none, rails := [], outside := [], timedOut := [], pathMain := false, pathHold := false, chg := false, meas := none
                               cinch := none, faultWait := none, shutdown := .none, offAsked := false, tempCeiling := false, measDue := false, elapsedOk := true, dark := 0
                               critLock := s.therm.critPowerDown }
  s.goto .standby

/-- Lowers the highest rail that is up and waits for it to be off; with none up the paths open and the device is in STANDBY
(steps 3-5). The rails' slots fall in the order of Table 11.4. -/
def State.lowerNext (s : State) : State :=
  match s.power.rails with
  | [] => s.standby
  | r :: rs =>
    let slot := rs.foldl Nat.max r
    let s := s.enableRail slot false
    s.setPower { s.power with up := .down slot }

/-- Every remaining enable falls at once (R360). -/
def State.dropRails (s : State) : State := (s.setPower { s.power with rails := [] }).standby

end Sys2Proof.Machine
end

