-- ==== Sys2Proof/Machine/PowerRows.lean ====
section
/-! DEFINITION. The rows of power and its faults: requests, the scanning converter, rails, the hold-up bank and its measurement, the
power-fail warning, the AON island, the root PLL and the steps of a cinch (R26, R348-R376, R403, R405). -/

namespace Sys2Proof.Machine

/-! ### Requests -/

/-- ON_REQUEST: the on conditions of R355 hold; power-up begins (R357), `darkSeconds` by the AON count after entry to STANDBY, beyond those
that ticks in STANDBY have counted (R128, log 77). During the lockout after a critical temperature it only waits (R433). -/
def execOnRequest (darkSeconds : Nat) (s : State) : Host.Outcome State Fault Refusal :=
  let p := s.power
  if s.dev.state ≠ .standby ∨ p.offLatch = true ∨ p.up ≠ .none then s.done s
  else if p.critLock then s.done (s.setPower { p with shelfEn := true, onPending := true })
  else
    let n := s.store.powerCycles + 1
    let s1 := s.checkTie recBoard
    let pend := if s1.committedFault.isNone then (s1.store.record recBoard).getD (zeros 512) else zeros 512
    let s1 := (s1.save recBoardPending pend).setStore { (s1.save recBoardPending pend).store with powerCycles := n }
    let s1 := (s1.save recPowerCycles (le 8 n)).setCmdq { s1.cmdq with seqs := 0 }
    let wall := if s1.store.wallKept then s1.recordNat recWallTime else none
    let s1 := s1.setStore { s1.store with wallKept := false }
    let s1 := { s1 with drift := { s1.drift with darkSeconds := if p.elapsedOk then some (p.dark + darkSeconds) else none, storedWall := wall }
                        therm := { s1.therm with critPowerDown := false } }
    let s1 := s1.setPower { p with shelfEn := true, onPending := false, up := .bulk, pathMain := true, pathHold := false, octetOff := 0
                                   overvolt := false, measFlags := p.measFlags &&& ~~~16#7, pfwLow := false, wallFresh := false
                                   aonSeconds := p.aonSeconds + darkSeconds, dark := 0 }
    s.done ((s1.goto .powering).drive "PFW_N" true)

/-- SHELF_EN_LOW: SHELF_EN has been low for 1 ms: an off request, and the OFF latch clears (R355). -/
def execShelfEnLow (s : State) : Host.Outcome State Fault Refusal :=
  s.done ((s.setPower { s.power with shelfEn := false, offLatch := false, onPending := false }).offRequest)

/-- A write of 1 to OFF_REQ (R355). -/
def State.offReq (s : State) : State := (s.setPower { s.power with offLatch := true }).offRequest

def execOffReq (s : State) : Host.Outcome State Fault Refusal := s.done (if s.barOpen then s.offReq else s)

/-! ### POWER_STATUS (Tables 11.9, 11.11, 11.12) -/

/-- PWR_STATUS. -/
def State.pwrStatus (s : State) : Nat :=
  let p := s.power
  s.reg rPwrStatus % 2 ^ 6 + 2 ^ 3 * flag s.dev.degraded + 2 ^ 6 * flag p.pfwLive + 2 ^ 7 * flag p.aonBack + 2 ^ 8 * flag p.pathHold + 2 ^ 9 * flag p.chg
    + 2 ^ 10 * flag p.tempCeiling + 2 ^ 11 * flag p.meas.isSome + 2 ^ 12 * flag p.overvolt + 2 ^ 13 * flag p.shelfEn + 2 ^ 14 * flag p.offLatch
    + 2 ^ 15 * flag p.onPending + 2 ^ 16 * p.cutCause

/-- Operating seconds since the last completed measurement. -/
def State.measAge (s : State) : Option Nat := s.power.measuredAt.map (fun t => s.store.opSeconds - t)

/-- AGE_H of PWR_MEAS_INFO. -/
def State.measHours (s : State) : Nat := match s.measAge with | some a => Nat.min 0xFFFF (a / 3600) | none => 0xFFFF

/-- Table 11.9 after SEQUENCE; `flags` as the result carries them. -/
def State.powerResult (s : State) (flags : Nat) : List Byte :=
  let p := s.power
  le 4 s.pwrStatus ++ le 4 (s.adcMv 30) ++ le 4 (s.adcMv 31) ++ le 4 (s.adcMv 32) ++ le 4 p.bankC ++ le 4 p.bankEsr ++ le 4 p.bankE
    ++ le 2 s.cache.ceiling ++ le 2 flags ++ le 4 (match s.measAge with | some a => a | none => 0xFFFFFFFF) ++ le 4 (s.reg rPwrRailFail)
    ++ le 4 (s.reg rPwrMedFail) ++ le 2 p.octetOff.toNat ++ zeros 2 ++ le 4 (s.reg rPwrPfwCount) ++ le 4 (s.reg rPwrCuts)

/-! ### The hold-up bank (R364-R369) -/

/-- HOLDUP_MEASURE commands end with the measurement they report (R374). -/
def State.endMeasCommands (s : State) : State :=
  s.cmdq.cmds.foldl (fun s c => if c.step == .measure then s.finish c stSuccess 0 (some (s.powerResult s.power.measFlags.toNat)) else s) s

/-- The stored figures (record 0x0009). -/
def State.saveBank (s : State) : State := s.save recBank (le 4 s.power.bankC ++ le 4 s.power.bankEsr ++ le 4 s.power.bankE ++ zeros 4)

/-- A measurement is complete (R365, R369): `dt` is t2 - t1 in conversions of 50 µs; figures are rounded down (log 29). -/
def State.measured (s : State) (m : Meas) (dt : Rat) (va : Nat) : State :=
  let i := s.field rPwrChgCfg 0 13
  let dv := if m.windowB then 3000 else 10000
  let c := ((i : Rat) * dt * 50 / dv).floor.toNat
  let esr := (m.vb - va) * 10 ^ 6 / i
  let e := s.energyAt c esr 34500
  let p := s.power
  let s := s.setPower { p with meas := none, measuredAt := some s.store.opSeconds, tempCeiling := false, bankC := c, bankEsr := esr
                               measFlags := 1#7 ||| (if m.windowB then 64#7 else 32#7) ||| (if p.overvolt then 16#7 else 0#7) }
  let s := ((s.event portPower 0x0107 s.devicePath (le 4 c ++ le 4 esr ++ le 4 e)).setEnergy e).saveBank
  { s with dev := { s.dev with degraded := decide (e < 42000) } }.endMeasCommands

/-- A measurement fails (R366, R369): E_usable becomes 0. -/
def State.measFailed (s : State) (m : Meas) : State :=
  let p := s.power
  let flags : BitVec 7 := 2#7 ||| (if m.windowB then 64#7 else 32#7) ||| (if p.overvolt then 16#7 else 0#7)
  let s := s.setPower { p with meas := none, tempCeiling := false, measFlags := flags }
  let s := ((s.event portPower 0x0108 s.devicePath (le 1 flags.toNat)).setEnergy 0).saveBank
  { s with dev := { s.dev with degraded := true } }.endMeasCommands

/-- Starts an in-service measurement: a temporary figure with 30.0 V is in force until its end (R367). While
OVERVOLT is set none starts, as R374 has it for HOLDUP_MEASURE; for MEASURE and the period the spec does not say (DESIGN CHOICE, log 76). -/
def State.startMeasure (s : State) : State :=
  let p := s.power
  if (s.dev.state != .serving && s.dev.state != .maintenance) || p.meas.isSome || p.overvolt then s
  else
    let m : Meas := { Meas.charging true true p.bankE with step := .dirty }
    (s.setPower { p with meas := some m, tempCeiling := true }).setEnergy (s.energyAt p.bankC p.bankEsr 30000)

/-- Where a conversion pair crosses `v`: conversions and a fraction. -/
def crossing? (prev : Option (Nat × Nat)) (conv mv v : Nat) : Option (Nat × Nat × Nat) :=
  match prev with
  | some (c, m) => if m < v ∧ v ≤ mv then some (c, (conv - c) * (v - m), mv - m) else none
  | none => none

def crossTime (t : Nat × Nat × Nat) : Rat := t.1 + (t.2.1 : Rat) / t.2.2

/-- Whether the charger may run (R364). -/
def State.mayCharge (s : State) : Bool :=
  s.boot.bd.isSome && !s.power.pathHold && !s.power.overvolt && s.dev.state != .standby && s.dev.state != .poweringDown

/-- What a running measurement makes of a bank conversion (R365, R367). -/
def State.measConv (s : State) (prev : Option (Nat × Nat)) (mv : Nat) : State :=
  let p := s.power
  match p.meas with
  | none => s
  | some m =>
    match m.step with
    | .dirty => s
    | .drain =>
      if mv ≤ 30000 then s.setPower { p with pathMain := true, pathHold := false, chg := true, meas := some { m with step := .charge } } else s
    | .charge =>
      let v1 := if m.windowB then 31000 else 20000
      let v2 := if m.windowB then 34000 else 30000
      let m := { m with t1 := (crossing? prev p.conv mv v1).or m.t1, t2 := (crossing? prev p.conv mv v2).or m.t2 }
      if 35000 ≤ mv ∧ m.t1.isSome ∧ m.t2.isSome then s.setPower { p with chg := false, meas := some { m with step := .rest, vb := mv } }
      else s.setPower { p with meas := some m }
    | .rest =>
      match m.t1, m.t2 with
      | some a, some b => s.measured m (crossTime b - crossTime a) mv
      | _, _ => s

/-- The hysteresis of the charger between V_TOP and V_RESTART (R364). -/
def State.chargeConv (s : State) (mv : Nat) : State :=
  let p := s.power
  if !s.mayCharge then s
  else if 35000 ≤ mv then s.setPower { p with chg := false }
  else if decide (mv < 34500) && (match p.meas with | some m => m.step != .drain && m.step != .rest | none => true) then s.setPower { p with chg := true }
  else s

/-- A conversion of HOLD_SENSE: the floor of a cinch or a power-down on the hold path (R360, R373), overvoltage (R364), the
measurement and the charger. -/
def State.holdConv (s : State) (mv : Nat) : State :=
  let prev := s.power.lastHold
  let s := s.setPower { s.power with lastHold := some (s.power.conv, mv) }
  if s.power.pathHold ∧ s.dev.state = .cinch ∧ mv ≤ s.holdFloor then s.endCinch 3
  else if s.power.pathHold ∧ s.dev.state = .poweringDown ∧ mv ≤ s.holdFloor then s.dropRails
  else if s.dev.state = .standby then s
  else
    let above := decide (36000 < mv) && (match prev with | some (_, m) => decide (36000 < m) | none => false) && !s.power.overvolt
    let s := if above then
        (s.setPower { s.power with chg := false, overvolt := true, measFlags := s.power.measFlags ||| 16#7 }).event portPower 0x0106 s.devicePath (le 4 mv)
      else s
    (s.measConv prev mv).chargeConv mv

/-! ### Restoring a unit (R229, R362) -/

/-- The record of plane-block `k` of a restored unit after its erase (R229): retired for a fault of its own it stays so, a spare in use stays
one, and the good plane-blocks of a die-block that was dropped stay in the reserve. -/
def State.restoredPb (s : State) (k : Nat) : PbRec :=
  let r := s.pb k
  let fresh := { PbRec.initAt false k with erases := r.erases + 1, reason := if r.reason ≤ 4 then r.reason else 0 }
  let own := (List.range 4).map (fun p => s.pb (pbKey (pbDie k) p (pbBlock k)))
  if r.st = .retired ∧ 1 ≤ r.reason ∧ r.reason ≤ 4 then r
  else if s.isSpare k then { fresh with st := .free, link := r.link }
  else if pbBlock k < 1024 ∧ own.any (fun o => o.st == .retired && decide (1 ≤ o.reason) && decide (o.reason ≤ 4) && !o.flag pbRemapped) = true then
    { fresh with st := .reserve }
  else fresh

/-- The erases of a die of a restored unit (R229): each pool and reserve plane-block with its count, and the BLOCK records. One whose erase
fails stays retired, as the unit left it; one that was to be retired when its die-block is empty is retired now (R226). -/
def State.restoreDie (s : State) (d : Nat) : State :=
  let ks := ((List.range 4).flatMap (fun p => (List.range 1040).map (pbKey d p))).filter (fun k => !systemUse d (pbPlane k) (pbBlock k))
  let bad := ks.filter (Config.restoreFails s.nonce)
  let new := ks.map (fun k => (k, s.restoredPb k))
  let s := s.eraseCells ks
  let s := s.setBlocks { s.blocks with pbs := new.foldl (fun t e => Tab.put t e.1 e.2) s.blocks.pbs
                                       totals := { s.blocks.totals with erases := s.blocks.totals.erases + ks.length } }
  let s := s.updLife d (fun l => { l with erases := l.erases + ks.length })
  let s := bad.foldl (fun s k => s.updPb k (fun r => { r with st := .retired, erases := r.erases - 1, reason := if r.reason = 0 then 5 else r.reason })) s
  let s := (List.range 1040).foldl (fun s b =>
    let on := (List.range 4).filter (fun p => !systemUse d p b && !bad.contains (pbKey d p b))
    s.append (.block 1 d b (BitVec.ofNat 4 (total (on.map (fun p => 2 ^ p)))) 0 ((s.servingAll (dbKey d b)).map (fun k => (s.pb k).erases)))) s
  let s := bad.foldl (fun s k => s.replacePb (s.servedBy k) (pbPlane k) false) s
  ((List.range 1024).map (dbKey d)).foldl State.retireMarked s

/-- Brings the dies of a unit back with no data (R229). -/
def State.restoreUnit (s : State) (level first n : Nat) : State :=
  let on := fun (d : Nat) => decide (first ≤ d) && decide (d < first + n) && s.diePop d && conforms d
  let ours := fun (k : Nat) => on (pbDie k) && !systemUse (pbDie k) (pbPlane k) (pbBlock k)
  let s := { s with xlat := { s.xlat with images := s.xlat.images.filter (fun e => !ours (e.1 / 8192)) } }
  let ds := (unitDies first n).filter on
  let s := ds.foldl (fun s d =>
    let s := s.setCtl d { DieCtl.init with present := true, online := true, seen := 2 }
    ((s.setDie d { Die.init with st := .idle }).configDie d true).restoreDie d) s
  let s := s.tick
  let s := s.setLeaving (s.blocks.leaving.filter (fun u => !ds.any u.holds))
  let chs := (ds.map (fun d => d / 8)).dedup
  let s := chs.foldl (fun s c => if (s.chan c).st = .ready ∨ (s.chan c).st = .retraining then s else s.setChan c { Channel.init with st := .training }) s
  let s := s.setCmdq { s.cmdq with cmds := s.cmdq.cmds.map (fun c => if c.step == .rails (first / 64) then { c with done := 1024 * ds.length } else c) }
  let _ := level
  s.checkSpace

/-- The unit of a path at levels 0-3: its first die and its number of dies. -/
def unitOf (path : Nat) : Nat × Nat × Nat :=
  match bits path 24 3 with
  | 0 => (0, bits path 6 4 * 64 + bits path 3 3 * 8 + bits path 0 3, 1)
  | 1 => (1, bits path 6 4 * 64 + bits path 3 3 * 8, 8)
  | 2 => (2, bits path 6 4 * 64, 64)
  | l => (l, 0, 768)

def Cmd.unit (c : Cmd) : Nat × Nat × Nat := unitOf (c.pkt.u 0x08 4)

/-- RESTORE_UNIT commands that wait for the rails of octet `k` end: restored, or with MEDIA_ERROR (R362). -/
def State.railsRestored (s : State) (k : Nat) (ok : Bool) : State :=
  let s := s.setPower { s.power with up := .none, octetOff := if ok then s.power.octetOff &&& ~~~BitVec.ofNat 12 (2 ^ k) else s.power.octetOff }
  s.cmdq.cmds.foldl (fun s c =>
    if c.step == .rails k then
      if ok then
        let u := c.unit
        let s := s.restoreUnit u.1 u.2.1 u.2.2
        s.finish c stSuccess 0 (some (le 8 (1024 * ((unitDies u.2.1 u.2.2).filter (fun d => (s.ctlOf d).online)).length) ++ zeros 16))
      else s.finish c stMedia 0 none
    else s) s

/-! ### The scanning converter (R353, R354, R361) -/

/-- The power-fail warning (R371, R372; Tables 11.6, 11.8). -/
def State.pfw (s : State) : State :=
  let p := s.power
  if s.dev.state = .standby then s.setPower { p with pfwLive := true }
  else
    let s := s.setPower { p with pfwLive := true, pfwLow := true, pathHold := true, pathMain := false, chg := false, meas := none }
    let s := ((s.bump rPwrPfwCount 0 32 1).setBit rPwrStatus 5).drive "PFW_N" false
    match s.dev.state with
    | .serving | .maintenance => s.enterCinch .pfw none
    | .powering | .held | .mounting | .fault => s.offRequest
    | _ => s

/-- A rail fault in service (Table 11.5). -/
def State.railFault (s : State) (slot mv : Nat) : State :=
  let s := (if slot < 30 then s.railFailed slot else s.setBit rPwrStatus 4).event portPower 0x0105 s.devicePath
    (le 1 slot ++ [0] ++ le 2 mv ++ le 4 s.dirtyLines)
  if slot = 31 then s.pfw
  else if 6 ≤ slot then (s.octetFails ((slot - 6) / 2)).advance
  else if slot = 0 ∨ slot = 4 ∨ s.dev.state = .mounting then s.softFault causeRail
  else s.enterFault causeRail

/-- Whether the device watches its rails in service (R361). -/
def State.watches (s : State) : Bool := s.dev.state == .mounting || s.dev.state == .serving || s.dev.state == .maintenance

/-- An input watched in service: two consecutive conversions outside its window are a fault (R354). -/
def State.watch (s : State) (slot mv : Nat) (ok : Bool) : State :=
  let p := s.power
  if ok then s.setPower { p with outside := p.outside.filter (fun x => x != slot), timedOut := p.timedOut.filter (fun x => x != slot) }
  else if p.timedOut.contains slot then s
  else if p.outside.contains slot then (s.setPower { p with outside := p.outside.filter (fun x => x != slot) }).railFault slot mv
  else s.setPower { p with outside := p.outside ++ [slot] }

/-- The rail that a wait of a sequence is for. -/
def UpStep.slot (u : UpStep) : Option Nat :=
  match u with
  | .bulk => some 31 | .rail i => some i | .med k q => some (6 + 2 * k + flag q) | _ => Option.none

/-- A wait of power-up, or of the rails that RESTORE_UNIT sequences, has ended well. -/
def State.railUp (s : State) : State :=
  match s.dev.state, s.power.up with
  | .powering, _ => s.stepUp true
  | _, .med k false => (s.enableRail (7 + 2 * k) true).setPower { (s.enableRail (7 + 2 * k) true).power with up := .med k true }
  | _, .med k true => (s.startOctet k).railsRestored k true
  | _, _ => s

/-- What the device makes of a conversion of a rail or the bulk bus. -/
def State.railConv (s : State) (slot mv : Nat) : State :=
  let ok := if slot = 31 then decide (s.pfwLevel ≤ mv) else inWindow slot mv
  if s.power.up.slot = some slot then (if ok then s.railUp else s)
  else if s.power.up = .down slot then (if railOff slot mv then s.lowerNext else s)
  else if slot = 31 then (if s.watches then s.watch 31 mv (ok || decide (s.adcMv 30 < s.pfwLevel)) else s)
  else if s.watches && s.power.rails.contains slot then s.watch slot mv ok
  else s

/-- ADC_CONVERSION: one conversion, of HOLD_SENSE before every slot while PATH_HOLD_EN is high, else of the next slot (R353). -/
def execAdcConversion (mv : BitVec 16) (s : State) : Host.Outcome State Fault Refusal :=
  let p := s.power
  let extra := p.pathHold && p.holdNext
  let slot := if extra then 32 else p.adcSlot
  let v := if 33 ≤ slot then 0 else mv.toNat
  let s1 := s.setPower { p with conv := p.conv + 1, adc := Tab.put p.adc slot v, holdNext := !extra
                                adcSlot := if extra then p.adcSlot else (p.adcSlot + 1) % 40 }
  s.done (if slot = 32 then s1.holdConv v else if slot < 30 ∨ slot = 31 then s1.railConv slot v else s1).afterProgram

/-- RAIL_TIMEOUT: the rail that a sequence waits for has not come in 20 ms (R358, R359, R362). -/
def execRailTimeout (s : State) : Host.Outcome State Fault Refusal :=
  let fail := fun (s : State) (slot phase : Nat) =>
    s.event portPower 0x0104 s.devicePath (le 1 slot ++ [0] ++ le 2 (s.adcMv slot) ++ le 1 phase)
  let late := fun (s : State) (slot : Nat) => s.setPower { s.power with timedOut := s.power.timedOut ++ [slot] }
  s.done (match s.power.up with
    | .none => s
    | .bulk => (fail ((s.setBit rPwrStatus 2).setBit rPwrStatus 4) 31 0).powerDown
    | .rail i => (late (fail (s.railFailed i) i 0) i).stepUp false
    | .med k q =>
      let slot := 6 + 2 * k + flag q
      let s := (fail (s.railFailed slot) slot 0).octetFails k
      if s.dev.state = .powering then s.stepUp false else s.railsRestored k false
    | .down slot => (fail (s.railFailed slot) slot 1).lowerNext)

/-- POWER_DOWN: once the programs in progress have ended, media stop and the rails fall in reverse (Table 11.4). -/
def execPowerDown (s : State) : Host.Outcome State Fault Refusal :=
  s.done (if s.dev.state ≠ .poweringDown ∨ s.power.up ≠ .none ∨ s.arrayBusy = true then s
    else State.lowerNext { s.darken (fun _ => true) with chans := [] })

/-! ### Dies that come up or end (R66, R72, R79) -/

/-- The populated dies of a channel. -/
def State.diesOf (s : State) (ch : Nat) : List Nat := ((List.range 8).map (dieKey ch)).filter s.diePop

/-- A die of a channel that starts answers with SIG: CONFIG sets it, and its IDENTIFY is checked (R79 steps 6 to 8, R80). -/
def State.dieAnswers (s : State) (k : Nat) : State :=
  let s := s.configDie k false
  let c := s.ctlOf k
  let s := s.setCtl k { c with present := true, online := conforms k && !c.retired && !c.lost && !s.faultedDie k, seen := 2 }
  if conforms k then s else s.event portChan 0x0201 (s.diePath k) ((identifyBytes k).take 12)

/-- Once no die of a channel that starts is in its RESET, the channel trains, if a die is online; if every populated die has answered
and none is, it is OFFLINE (R79). A die that has not answered when the training ends was not there at step 6: it is offline. -/
def State.channelAnswers (s : State) (ch : Nat) : State :=
  let ks := s.diesOf ch
  let c := s.chan ch
  if c.st ≠ .init ∨ ks.any (fun k => (s.die k).st == .rst) = true then s
  else if ks.any (fun k => (s.ctlOf k).online) then s.setChan ch { c with st := .training }
  else if ks.all (fun k => (s.ctlOf k).present) then s.setChan ch { c with st := .offline }
  else s

/-- DIE_POR: tINIT after RESET_N was released a die that the board populates, and whose rails are up, is in POR (R66); on a channel that
starts it takes the RESET of Table 2.16, step 4, at once (log 48). -/
def execDiePor (ch : Chan) (d : DieNo) (s : State) : Host.Outcome State Fault Refusal :=
  let k := dieKey ch d
  let x := s.die k
  let c := s.chan ch
  let up := fun (slot : Nat) => s.power.rails.contains slot
  if x.st ≠ .off ∨ s.diePop k = false ∨ (up (6 + 2 * (ch.val / 8)) && up (7 + 2 * (ch.val / 8))) = false then s.done s
  else
    let s' := s.setDie k { x with st := .por }
    s.done (match c.st with
      | .reset => (s'.dieReset k).setChan ch { c with st := .init }
      | .init => s'.dieReset k
      | _ => s')

/-- DIE_RESET_END: a die is IDLE within tRST of its RESET (R72); the sequencer that reset it goes on (R78, R79). -/
def execDieResetEnd (ch : Chan) (d : DieNo) (s : State) : Host.Outcome State Fault Refusal :=
  let k := dieKey ch d
  let x := s.die k
  if x.st ≠ .rst then s.done s
  else
    let s' := s.setDie k x.endReset
    s.done (match (s.chan ch).st, (s.ctlOf k).reinit with
      | .init, _ => (s'.dieAnswers k).channelAnswers ch
      | _, some refs => s'.reinitDone k refs
      | _, none => s')

/-- DIE_PROGRAM_END: a program of a die ends (R69); a fault may wait for the last of them (R31). -/
def execDieProgramEnd (ch : Chan) (d : DieNo) (fail : Bool) (s : State) : Host.Outcome State Fault Refusal :=
  s.done (s.dieOpEnds (dieKey ch d) false fail).afterProgram

/-- CHANNEL_START_TIMEOUT: 25 ms after its rails a channel with an online die that is not READY is FAULT; one without is OFFLINE
(R79). -/
def execChannelStartTimeout (ch : Chan) (s : State) : Host.Outcome State Fault Refusal :=
  s.done (match (s.chan ch).st with
    | .reset | .init | .training =>
      if (s.diesOf ch).any (fun k => (s.ctlOf k).online) then (s.failChannel ch).advance
      else s.setChan ch { s.chan ch with st := .offline }
    | _ => s)

/-! ### Measurements -/

/-- MEASUREMENT_TIMEOUT: the window was not complete within 10 s of CHG_EN rising (R366). -/
def execMeasurementTimeout (s : State) : Host.Outcome State Fault Refusal :=
  s.done (match s.power.meas with
    | some m => if m.step = .charge ∨ m.step = .rest then s.measFailed m else s
    | none => s)

/-- MEASUREMENT_PERIOD: AGE_H has reached MEAS_HOURS (R367). -/
def execMeasurementPeriod (s : State) : Host.Outcome State Fault Refusal :=
  let h := s.field rPwrChgCfg 20 12
  s.done (if h ≠ 0 ∧ h ≤ s.measHours then s.startMeasure else s)

/-- A write of 1 to MEASURE (Table 11.11). -/
def execMeasure (s : State) : Host.Outcome State Fault Refusal := s.done (if s.barOpen then s.startMeasure else s)

/-- MEASUREMENT_DRAIN_DONE: the dirty level is at or below the temporary ceiling: CHG_EN falls and the bank drains (R367 step 2). -/
def execMeasurementDrainDone (s : State) : Host.Outcome State Fault Refusal :=
  s.done (match s.power.meas with
    | some m =>
      if m.step = .dirty ∧ s.overCeiling = false then
        s.setPower { s.power with chg := false, pathHold := true, pathMain := false, holdNext := true, meas := some { m with step := .drain } }
      else s
    | none => s)

/-- DRAIN_TIMEOUT: 30.0 V was not reached within 5 s: back to the main path with the previous figures (R367). -/
def execDrainTimeout (s : State) : Host.Outcome State Fault Refusal :=
  s.done (match s.power.meas with
    | some m =>
      if m.step = .drain then
        ((s.setPower { s.power with pathMain := true, pathHold := false, tempCeiling := false, meas := none
                                    measFlags := s.power.measFlags ||| 4#7 }).setEnergy m.prevE).endMeasCommands
      else s
    | none => s)

/-- ENERGY_ESTIMATE: during power-up charging the stored figures with the present bank voltage (R368). -/
def execEnergyEstimate (s : State) : Host.Outcome State Fault Refusal :=
  s.done (match s.power.meas with
    | some m =>
      if m.inService then s
      else (s.setPower { s.power with measFlags := s.power.measFlags ||| 8#7 }).setEnergy (s.energyAt s.power.bankC s.power.bankEsr (s.adcMv 32))
    | none => s)

/-! ### Power failure -/

/-- PFW: the comparator fires (R371); one that has not rearmed does not fire again. -/
def execPfw (s : State) : Host.Outcome State Fault Refusal := s.done (if s.power.pfwLive then s else s.pfw)

/-- PFW_REARM: the main bus has been above PFW_LEVEL + 300 mV for 1 ms (R371). -/
def execPfwRearm (s : State) : Host.Outcome State Fault Refusal := s.done (s.setPower { s.power with pfwLive := false })

/-! ### The AON island (R348, R349, R403, R405) -/

/-- AON_SWITCH: AON_MAIN fell below 1.71 V, at `mv` (R348). -/
def execAonSwitch (mv : BitVec 16) (s : State) : Host.Outcome State Fault Refusal :=
  s.done (if s.power.aonBack then s
    else ((s.setPower { s.power with aonBack := true }).bump rPwrAonSwitch 0 32 1).event portPower 0x0103 s.devicePath (le 2 mv.toNat))

/-- AON_RETURN: AON_MAIN has been at or above 1.75 V for 1 ms (R348). -/
def execAonReturn (s : State) : Host.Outcome State Fault Refusal := s.done (s.setPower { s.power with aonBack := false })

/-- The write of one copy that the reset tore: the copy reads as no valid one (R398, R400). -/
def Store.tear (st : Store) (i : SItem) : Store := { st with copies := Tab.put st.copies (2 * i.id + i.copy) .torn }

/-- A store operation cut short: `done` of its items ended and the next was torn; its journal entry is OPEN when group 7 was
written (R404). -/
def Store.cut (st : Store) (c : StoreCut) : Store :=
  let items : List SItem := if c.erase then c.items.flatMap (fun i => [{ id := i.1.toNat, copy := 0, newSeq := 0 }, { id := i.1.toNat, copy := 1, newSeq := 0 }])
    else c.items.map (fun i => { id := i.1.toNat, copy := (st.target i.1.toNat).1, newSeq := (st.target i.1.toNat).2 })
  if !c.opened then { st with opSeq := st.opSeq + 1 }
  else
    let put := fun (st : Store) (x : SItem × List Byte) =>
      if c.erase then { st with copies := Tab.del st.copies (2 * x.1.id + x.1.copy) }
      else { st with copies := Tab.put st.copies (2 * x.1.id + x.1.copy) (.valid x.1.newSeq x.2) }
    let payload := fun (i : SItem) => ((c.items.find? (fun x => x.1.toNat == i.id)).map (fun x => x.2)).getD []
    let st := ((items.take c.done).map (fun i => (i, payload i))).foldl put st
    let st := match items.drop c.done with | i :: _ => st.tear i | [] => st
    { st with journal := Tab.put st.journal (st.opSeq % 64) { opSeq := st.opSeq, erase := c.erase, items := items, opened := true }
              opSeq := st.opSeq + 1 }

/-- An event write cut short: groups 0-2 of the next record stand, and its group 3 is empty or reads flagged (`torn`, R410). -/
def Store.cutEvent (st : Store) (torn : Bool) : Store :=
  match st.nextEvent with
  | some (_, e, _) =>
    if st.evCount < 2048 then
      { st with evlog := Tab.put st.evlog st.evCount { st.recordOf e with valid := 0, repeats := 0, tack := 0, bad := if torn then 8#4 else 0#4 } }
    else st
  | none => st

/-- AON_RESET: both inputs are below 1.62 V. The island's registers return to their reset values and the device is in STANDBY
(R349). What the store holds stays, but for an operation or an event write that was cut short. -/
def execAonReset (cut : Option StoreCut) (evt : Option Bool) (s : State) : Host.Outcome State Fault Refusal :=
  let st := match cut with | some c => s.store.cut c | none => s.store
  let st := match evt with | some t => st.cutEvent t | none => st
  let st := { Store.reset with copies := st.copies, journal := st.journal, opSeq := st.opSeq, evlog := st.evlog, wearNext := st.wearNext, wallKept := st.wallKept }
  let s1 := s.standby
  s.done { s1 with regs := [], store := st, svc := Svc.reset, cmdq := Cmdq.reset, power := Power.reset, dev := Dev.reset
                   boot := { step := .none, slot := 0, triedPrevious := false, bd := none, linkBd := none }
                   img := { Images.reset with slots := s1.img.slots, bootGen := s1.img.bootGen, badCopies := s1.img.badCopies
                                              profHeader := s1.img.profHeader, profBlock := s1.img.profBlock, profTodo := s1.img.profTodo } }

/-- AON_BOOT: the boot sequencer completes or rolls back open operations, ends the event log where R410 says, counts the power
cycle and restores what the store keeps, the bank's figures and with them HOLDUP_DEGRADED among it (R369, R376, R403, R405, R410). -/
def execAonBoot (s : State) : Host.Outcome State Fault Refusal :=
  if s.dev.state ≠ .standby then s.done s
  else
    let s1 := s.recoverAll
    let s1 := s1.setStore (s1.store.scanLog 0 2048)
    let n := (s1.recordNat recPowerCycles).getD 0 + 1
    let lost := (s1.recordNat recEvtOverflow).getD 0
    let s1 := s1.setStore { s1.store with powerCycles := n, opSeconds := (s1.recordNat recOpSeconds).getD 0, evOverflow := lost }
    let s1 := (s1.save recPowerCycles (le 8 n)).setCmdq { s1.cmdq with seqs := 0 }
    let s1 := match s1.store.record recLimits with
      | some b => (s1.setReg rPwrBudget (bdField b 0 2)).setReg rPwrPfwLevel (bdField b 2 2)
      | none => s1
    let s1 := match s1.store.record recBank with
      | some b =>
        let e := bdField b 8 4
        { s1.setPower { s1.power with bankC := bdField b 0 4, bankEsr := bdField b 4 4, bankE := e } with dev := { s1.dev with degraded := decide (e < 42000) } }
      | none => s1
    s.done { s1 with dev := { s1.dev with unitId := BitVec.ofNat 14 ((s1.recordNat recUnitId).getD 0) } }

/-! ### The root PLL (R26) -/

/-- PLL_LOST: loss of lock, acted on by state under holdover. -/
def execPllLost (s : State) : Host.Outcome State Fault Refusal :=
  s.done (if s.dev.state = .standby then s
    else ((s.setPower { s.power with pllLost := true }).event portPower 0x0102 s.devicePath []).softFault causePll)

/-- PLL_HOLDOVER_EXPIRY: 480 ms after the loss of lock a cinch that still runs ends (R26, R373). -/
def execPllHoldoverExpiry (s : State) : Host.Outcome State Fault Refusal :=
  s.done (if s.power.pllLost ∧ s.dev.state = .cinch then s.endCinch 2 else s)

/-! ### The cinch (Table 7.8) -/

/-- The step of a running cinch. -/
def State.cinchAt (s : State) (c : CinchStep) : Bool :=
  match s.power.cinch with | some x => x.step == c && s.dev.state == .cinch | none => false

def State.setCinchStep (s : State) (c : CinchStep) : State :=
  s.setPower { s.power with cinch := s.power.cinch.map (fun x => { x with step := c }) }

/-- CINCH_ACCEPT_END: posted and non-posted credits stop, and no new host sense is issued (step 4). -/
def execCinchAcceptEnd (s : State) : Host.Outcome State Fault Refusal :=
  s.done (if s.cinchAt .accept then s.acceptEnds.advance else s)

/-- CINCH_WRITEBACK_COMPLETE: every dirty line has programmed or was dropped (step 5). -/
def execCinchWritebackComplete (s : State) : Host.Outcome State Fault Refusal :=
  s.done (if s.cinchAt .writeback && s.writtenBack then s.setCinchStep .parity else s)

/-- CINCH_PARITY_COMPLETE: the parity rows of every FILLING stitch have programmed (R215); the open journal pages close (step 7). -/
def execCinchParityComplete (s : State) : Host.Outcome State Fault Refusal :=
  let due := s.blocks.stitches.any (fun e => e.2.st == .filling && (s.nextRow e.1 e.2).isSome)
  let busy := s.tacks.any (fun e => e.2.op == .parityProgram)
  s.done (if s.cinchAt .parity && !due && !busy then s.flushJournal.setCinchStep .journal else s)

/-- The welt delta (R199): AGE of every online die, OPEN_PTR of every open die-block, DELTA_END. -/
def State.deltaRecords (s : State) : List JRec :=
  let ages := (s.ctl.filter (fun e => e.2.online)).map (fun e => JRec.age e.1 (s.age e.1).counter)
  let opens := s.blocks.stitches.flatMap (fun e =>
    (e.2.positions.filter (fun p => p.2 != dbGone && (s.dbRec p.2).st == .opened)).map (fun p =>
      JRec.openPtr (dbDie p.2) (dbBlock p.2) (match Tab.find e.2.lastPage p.1 with | some n => n + 1 | none => 0)))
  let fills := s.xlat.mapFill.map (fun e => JRec.openPtr e.1 (dbBlock e.2.1) e.2.2)
  let rs := ages ++ opens ++ fills
  rs ++ [.deltaEnd rs.length]

/-- Whether every journal page that closed is committed. -/
def State.journalDone (s : State) : Bool :=
  s.xlat.jRecs.isEmpty && (s.xlat.jHead == 0 || (match s.xlat.jCommit with | some n => decide (s.xlat.jHead ≤ n + 1) | none => false))

/-- CINCH_JOURNAL_COMPLETE: the journal pages have programmed; the welt delta is appended and its page closes (step 8). -/
def execCinchJournalComplete (s : State) : Host.Outcome State Fault Refusal :=
  s.done (if s.cinchAt .journal && s.journalDone then
      let s := s.deltaRecords.foldl State.append s
      let rseq := s.nextRseq - 1
      let s := s.flushJournal
      s.setPower { s.power with cinch := s.power.cinch.map (fun x => { x with step := .delta, deltaRseq := some rseq }) }
    else s)

/-- CINCH_DELTA_COMMITTED: the delta is committed with its page; the cinch ends with cause DONE (R373). -/
def execCinchDeltaCommitted (s : State) : Host.Outcome State Fault Refusal :=
  let done := match s.power.cinch with | some x => (match x.deltaRseq with | some r => s.committed r | none => false) | none => false
  s.done (if s.cinchAt .delta && done then s.endCinch 1 else s)

/-- CINCH_BUDGET_EXPIRY: CINCH_BUDGET ms have passed since the cinch began (R373). -/
def execCinchBudgetExpiry (s : State) : Host.Outcome State Fault Refusal :=
  s.done (if s.dev.state = .cinch then s.endCinch 2 else s)

/-- CRIT_LOCKOUT_END: on requests are honoured again (R433). -/
def execCritLockoutEnd (s : State) : Host.Outcome State Fault Refusal := s.done (s.setPower { s.power with critLock := false })

end Sys2Proof.Machine
end

