-- ==== Sys2Proof/Machine/Packets.lean ====
section
/-! DEFINITION. Command packets: how one arrives, the checks of R336 in their order, and what starts it (R326, R336-R347; Tables
10.4, 10.7, 10.8). -/

namespace Sys2Proof.Machine

/-! ### Parameters with an ID (Tables 6.6, 8.2, 9.8) -/

/-- The link settings in force (R274): stored, else of the board description of the last power-up, else, in HELD, the
PCIE_ONLY preset. -/
def State.linkParam (s : State) (id : Nat) : Nat :=
  let base := match (if s.dev.state = .held then s.boot.bd else s.boot.linkBd) with
    | some b => bdField b (0x108 + (id - 0x0800)) 1
    | none => match id with | 0x0800 => 1 | 0x0801 => 6 | 0x0802 => 8 | _ => 0
  match id, s.stored 0x0800 with
  | 0x0800, some p => p
  | _, some p =>
    match linkPreset p with
    | some (sp, w, c) => match id with | 0x0801 => sp | 0x0802 => w | _ => c
    | none => s.param id base
  | _, none => s.param id base

/-- The value in force of a parameter; none when the ID is unknown. -/
def State.paramValue (s : State) (id : Nat) : Option Nat :=
  match id with
  | 0x0600 => some s.blPolicy
  | 0x0601 => some s.skvStart
  | 0x0602 => some s.skvStop
  | 0x0603 => some s.scrubHours
  | 0x0604 => some s.burnishLimit
  | 0x0605 => some s.scrubLimit
  | 0x0606 => some s.stitchSkew
  | 0x0607 => some s.wbPadUs
  | 0x0608 => some s.blBudget
  | 0x0800 | 0x0801 | 0x0802 | 0x0803 => some (s.linkParam id)
  | 0x0804 => some (s.param id 64)
  | 0x0805 => some (s.param id 3)
  | 0x0900 => some s.harnessPeriod
  | 0x0901 => some s.harnessLost
  | _ => none

/-- Whether a parameter takes a value (R236, R273, R320). A preset that is in force holds the values it sets. -/
def State.paramTakes (s : State) (id v : Nat) : Bool :=
  let within := fun (lo hi : Nat) => decide (lo ≤ v) && decide (v ≤ hi)
  match id with
  | 0x0600 => within 0 3
  | 0x0601 => s.blPolicy == 3 && within 23593 157286
  | 0x0602 => s.blPolicy == 3 && within (s.skvStart + 1) 196608
  | 0x0603 => s.blPolicy == 3 && within 24 8760
  | 0x0604 => within 8 120
  | 0x0605 => within 16 200
  | 0x0606 => within 2 32
  | 0x0607 => within 20 5000
  | 0x0608 => within 100 1500
  | 0x0800 => within 0 3
  | 0x0801 => s.linkParam 0x0800 == 3 && within 1 6
  | 0x0802 => s.linkParam 0x0800 == 3 && decide (v ∈ [1, 2, 4, 8])
  | 0x0803 => s.linkParam 0x0800 == 3 && within 0 1
  | 0x0804 => within 4 1000
  | 0x0805 => within 0 3
  | 0x0900 => within 1 3600
  | 0x0901 => within 2 16
  | _ => false

/-! ### Field checks (R336 step 2) -/

/-- A field that a packet names: offset, bytes, whether its value is in range. -/
abbrev PField := Nat × Nat × Bool

/-- STORE_TEMP (Table 10.8). -/
def tempOk (v : Nat) : Bool := decide (v ≤ 1600) || decide (65536 - 640 ≤ v)

/-- ATTR: bits [30:24] (Table 10.8). -/
def attrBits (v : Nat) : Bool := v % 2 ^ 24 == 0 && !bit v 31

/-- A combination of classes that Table 9.2 allows (R300). -/
def attrOk (v : Nat) : Bool := bits v 29 2 != 3 && (!bit v 28 || bits v 29 2 == 2)

/-- ADDR and LEAVES. -/
def rangeFields (p : Packet) : List PField :=
  let a := p.u 0x18 8
  let n := p.u 0x20 8
  [(0x18, 8, a % 4096 == 0 && decide (a < 2 ^ 46)), (0x20, 8, decide (1 ≤ n) && decide (n ≤ 2 ^ 34) && decide (a / 4096 + n ≤ 2 ^ 34))]

/-- OFFSET and LENGTH of the board commands (R383). -/
def boardFields (p : Packet) (cap : Nat) : List PField :=
  let o := p.u 0x18 4
  let n := p.u 0x1C 4
  [(0x18, 4, o % 8 == 0 && decide (o < 512)), (0x1C, 4, n % 8 == 0 && decide (8 ≤ n) && decide (o + n ≤ 512) && decide (n ≤ cap))]

/-- The parameters of the opcodes from 0x01 to 0x4F (Table 10.8). -/
def paramsLow (port : Port) (p : Packet) : List PField :=
  match p.u 0 1 with
  | 0x04 => [(0x18, 8, p.u 0x18 8 != 0)]
  | 0x07 | 0x46 => [(0x18, 2, tempOk (p.u 0x18 2))]
  | 0x08 => [(0x18, 2, decide (p.u 0x18 2 < 1024) || p.u 0x18 2 == 0xFFFF), (0x1A, 2, true)]
  | 0x10 => [(0x18, 4, attrBits (p.u 0x18 4)), (0x20, 4, decide (p.u 0x20 4 < 4194304)), (0x24, 4, decide (p.u 0x24 4 ≤ 4194304))]
  | 0x11 => [(0x18, 4, attrBits (p.u 0x18 4)), (0x1C, 4, attrBits (p.u 0x1C 4)), (0x20, 4, decide (p.u 0x20 4 < 4194304))
             , (0x24, 4, decide (p.u 0x24 4 ≤ 4194304)), (0x28, 1, decide (p.u 0x28 1 ≤ 2))]
  | 0x14 => [(0x18, 8, p.u 0x18 8 % 8 == 0)]
  | 0x20 => rangeFields p ++ [(0x28, 1, decide (p.u 0x28 1 ≤ 5)), (0x29, 1, decide (p.u 0x29 1 ≤ 1))]
  | 0x30 | 0x31 | 0x32 => rangeFields p
  | 0x33 | 0x34 => [(0x20, 4, decide (p.u 0x20 4 < 4194304)), (0x24, 4, decide (1 ≤ p.u 0x24 4) && decide (p.u 0x24 4 ≤ 4194304))]
  | 0x35 => [(0x18, 4, true), (0x1C, 1, decide (p.u 0x1C 1 < 2) || (decide (p.u 0x1C 1 < 4) && port == Port.sq 0))]
  | _ => []

/-- The parameters of the other opcodes. -/
def State.paramsHigh (s : State) (port : Port) (p : Packet) : List PField :=
  let lm := p.u 0x18 1
  let lim := fun (i off lo hi : Nat) => ((off, 2, !bit lm i || (decide (lo ≤ p.u off 2) && decide (p.u off 2 ≤ hi))) : PField)
  match p.u 0 1 with
  | 0x52 => [(0x18, 1, decide (lm < 8)), lim 0 0x1A 256 3072, lim 1 0x1C 160 1000, lim 2 0x1E 9600 11400]
  | 0x60 => boardFields p (if port == Port.svc then 504 else 512) ++ [(0x20, 1, decide (p.u 0x20 1 ≤ 1))]
  | 0x61 => boardFields p 512 ++ [(0x20, 8, p.u 0x20 8 % 8 == 0 && (port != Port.svc || p.u 0x20 8 == 0))]
  | 0x63 => [(0x18, 2, (s.paramValue (p.u 0x18 2)).isSome)]
  | 0x64 => [(0x18, 2, (s.paramValue (p.u 0x18 2)).isSome), (0x20, 8, s.paramTakes (p.u 0x18 2) (p.u 0x20 8))]
  | 0x70 => [(0x18, 1, decide (p.u 0x18 1 ≤ 15)), (0x19, 1, decide (p.u 0x19 1 ≤ 7)), (0x1C, 4, p.u 0x1C 4 / 64 % 2 ^ 23 == 0)
             , (0x20, 4, p.u 0x20 4 % 128 == 0 && decide (bits (p.u 0x20 4) 7 7 ≤ 95)), (0x28, 8, decide (p.u 0x28 8 < 2 ^ 48))]
  | 0x71 => [(0x18, 1, decide (p.u 0x18 1 ≤ 95)), (0x19, 1, decide (p.u 0x19 1 ≤ 1))]
  | 0x72 => [(0x18, 1, decide (p.u 0x18 1 ≤ 7)), (0x19, 1, decide (p.u 0x19 1 ≤ 15)), (0x1A, 2, decide (p.u 0x1A 2 < 4096))
             , (0x1C, 4, decide (1 ≤ p.u 0x1C 4) && decide (p.u 0x1C 4 < 2 ^ 24)), (0x20, 1, decide (p.u 0x20 1 ≤ 95))]
  | 0x73 => [(0x18, 2, decide (p.u 0x18 2 ≤ 2047))]
  | 0x74 => [(0x18, 2, true)]
  | 0x80 => [(0x18, 8, p.u 0x18 8 % 8 == 0 && (port != Port.svc || p.u 0x18 8 == 0)), (0x20, 4, true), (0x24, 4, true), (0x28, 1, decide (p.u 0x28 1 ≤ 1))]
  | 0x90 => [(0x18, 2, decide (p.u 0x18 2 < 2 ^ 14)), (0x1A, 1, decide (1 ≤ p.u 0x1A 1) && decide (p.u 0x1A 1 ≤ 3))
             , (0x20, 8, p.u 0x20 8 % 2 ^ 24 == 0), (0x28, 8, p.u 0x28 8 % 2 ^ 24 == 0)]
  | 0x91 => [(0x18, 2, decide (p.u 0x18 2 < 2 ^ 14) && (bit (p.u 0x1A 1) 0 || p.u 0x18 2 == 0)), (0x1A, 1, decide (p.u 0x1A 1 ≤ 1))]
  | _ => []

/-- The lock of a pair: none on pair 0 (Table 10.2). -/
def State.lockOf (s : State) (port : Port) : Option Nat :=
  match port with | .sq q => if q.val ≠ 0 ∧ (s.queue q.val).lock = true then some (s.queue q.val).lockCtx else none | .svc => none

/-- The smallest RESULT_LEN of a packet. -/
def OpRow.minOf (r : OpRow) (p : Packet) : Option Nat := if r.code = 0x60 then some (p.u 0x1C 4 + 8) else r.min

/-- The fields of Table 10.4 before PARAMS. -/
def State.headFields (s : State) (r : OpRow) (port : Port) (p : Packet) : List PField :=
  let ctx := p.u 4 2
  let len := p.u 0x0C 4
  let addr := p.u 0x10 8
  let none' := port == Port.svc || (r.minOf p).isNone
  [(0x01, 1, decide (p.u 1 1 < 4)),
   (0x04, 2, if r.ctx then decide (ctx < 4096) && (match s.lockOf port with | some l => l == ctx | none => true) else ctx == 0),
   (0x06, 2, p.u 6 2 == 0), (0x08, 4, r.top.isSome || p.u 8 4 == 0),
   (0x0C, 4, if none' then len == 0 else len % 8 == 0 && decide ((r.minOf p).getD 0 ≤ len)), (0x10, 8, if none' then addr == 0 else addr % 8 == 0)]

/-- The packet offset of the first faulty field. -/
def State.badField (s : State) (r : OpRow) (port : Port) (p : Packet) : Option Nat :=
  let ps := paramsLow port p ++ s.paramsHigh port p
  let named := fun (i : Nat) => ps.any (fun f => decide (f.1 ≤ i) && decide (i < f.1 + f.2.1))
  let stray := ((List.range 40).map (fun i => 0x18 + i)).filter (fun i => !named i && p.u i 1 != 0)
  let lock := if r.code = 0x08 then (match s.lockOf port, port with | some _, .sq q => p.u 0x18 2 != q.val | _, _ => false) else false
  let bad := ((s.headFields r port p ++ ps).filter (fun f => !f.2.2)).map (fun f => f.1) ++ stray ++ (if lock then [0x18] else [])
  match bad with | [] => none | x :: l => some (l.foldl Nat.min x)

/-! ### Unit paths (R3-R5, R315) -/

/-- A path that R4 takes. -/
def pathOk (p : Nat) : Bool :=
  bits p 27 5 == 0 && decide (bits p 6 4 ≤ 11) &&
  (match bits p 24 3 with
   | 0 => true | 1 => bits p 0 3 == 0 | 2 => bits p 0 6 == 0 | 3 => bits p 0 10 == 0 | 4 => bits p 0 24 == 0 | _ => false)

/-! ### The checks in order (R336) -/

/-- Opcodes accepted while the shutdown is held (R393). -/
def heldOpcodes : List Nat := [0x01, 0x02, 0x03, 0x50, 0x73, 0x71, 0x07]

/-- Opcodes that change the store through the service port (R347). -/
def storeOpcodes : List Nat := [0x61, 0x62, 0x64, 0x74]

/-- The first check that fails: the status and DETAIL; none when the opcode's own rules follow. -/
def State.checkPacket (s : State) (port : Port) (p : Packet) : Option (Nat × Nat) :=
  match opRowOf (p.u 0 1) with
  | none => some (stOpcode, 0)
  | some r =>
    if r.admin && (match port with | .sq q => q.val != 0 | .svc => false) then some (stOpcode, 1)
    else if port == Port.svc && r.svc == SvcUse.no then some (stOpcode, 2)
    else if (s.lockOf port).isSome && !r.lock then some (stOpcode, 3)
    else match s.badField r port p with
      | some o => some (stField, o)
      | none =>
        let path := p.u 8 4
        let badPath := match r.top with | some t => !pathOk path || decide (t < bits path 24 3) | none => false
        if badPath then some (stField, 8)
        else if r.top.isSome && decide (bits path 24 3 ≤ 3) && bits path 10 14 != s.dev.unitId.toNat then some (stRange, 0)
        else if !s.legalNow r port || (s.power.shutdown != .none && !heldOpcodes.contains r.code) then some (stState, 0)
        else if port == Port.svc && storeOpcodes.contains r.code && (s.dev.state == .powering || s.dev.state == .cinch || s.dev.state == .poweringDown) then
          some (stBusy, 0)
        else if r.ctx && r.code != 0x14 then
          if r.code = 0x10 then (if (s.ctx (p.u 4 2)).valid then some (stField, 4) else none)
          else if (s.ctx (p.u 4 2)).valid then none else some (stContext, 0)
        else none

/-! ### Arrival (R326, R347) -/

/-- States in which the device fetches (R326); in MOUNTING once the firmware runs. -/
def State.fetches (s : State) : Bool :=
  match s.dev.state with
  | .held | .serving | .maintenance | .fault => true
  | .mounting => (match s.boot.step with | .none | .boot | .attempt => false | _ => true)
  | _ => false

/-- Host-queue commands in progress. -/
def State.hostBusy (s : State) : Nat :=
  (s.cmdq.cmds.filter (fun c => c.port != Port.svc)).length + total (s.cmdq.queues.map (fun e => e.2.ready.length))
def State.svcBusy (s : State) : Nat := (s.cmdq.cmds.filter (fun c => c.port == Port.svc)).length

/-- Whether R19 stops command fetches: the shared partition and the reserve are full. -/
def State.slotsFull (s : State) : Bool := decide (49152 ≤ (s.tacks.filter (fun e => decide (16384 ≤ e.1))).length)

/-- Whether no command and no off request stops all fetching (R345, R392). -/
def State.mayFetch (s : State) : Bool := s.cmdq.stopped.isNone && !s.power.offAsked

/-- Whether a pair may be fetched from now. -/
def State.fetchable (s : State) (q : Fin 1024) : Bool :=
  let x := s.queue q.val
  s.fetches && s.mayFetch && !s.slotsFull && x.st == .running && x.sqHead != x.sqTail && decide (s.hostBusy < 1024)
    && decide (s.pairBusy q < 256)

/-- Enters a command among those in progress. -/
def State.enterCmd (s : State) (port : Port) (p : Packet) : State × Cmd :=
  let c : Cmd := { id := s.cmdq.nextId, port := port, pkt := p, posts := true, step := .fetched, done := 0, holed := 0, code := 0 }
  (s.setCmdq { s.cmdq with cmds := s.cmdq.cmds ++ [c], nextId := s.cmdq.nextId + 1 }, c)

/-- An SQ entry is taken: SQ_HEAD passes it, and its command is in progress (R326). -/
def State.fetchEntry (s : State) (q : Fin 1024) (p : Packet) : State × Cmd :=
  let x := s.queue q.val
  (s.setQueue q.val { x with sqHead := (x.sqHead + 1) % (x.sqLast + 1) }).enterCmd (.sq q) p

/-- The command that a row is for: the oldest one fetched with this packet that has not started; else it is taken from its port
now, when the port has one to give (log 14). -/
def State.arrive (s : State) (port : Port) (p : Packet) : Option (State × Cmd) :=
  match s.cmdq.cmds.find? (fun c => c.port == port && c.pkt == p && c.step == CmdStep.fetched) with
  | some c => some (s, c)
  | none =>
    match port with
    | .svc => if s.svcBusy < 4 ∧ s.mayFetch = true ∧ s.slotsFull = false then some (s.enterCmd .svc p) else none
    | .sq q =>
      if s.fetchable q then some (s.fetchEntry q p) else none

/-- Whether a command with FENCE still waits for an earlier one of its pair (R345). -/
def State.fenced (s : State) (c : Cmd) : Bool :=
  match c.port with
  | .svc => false
  | .sq q => bit (c.pkt.u 1 1) 0 && (s.cmdq.cmds.any (fun x => x.port == c.port && decide (x.id < c.id)) || !(s.queue q.val).ready.isEmpty)

/-- A packet of the opcode `code` is acted on: the checks, and then what its own rules say. -/
def State.run (s : State) (code : Nat) (port : Port) (p : Packet) (act : State → Cmd → State) : State :=
  if p.u 0 1 ≠ code then s
  else match s.arrive port p with
    | none => s
    | some (s, c) =>
      if s.fenced c then s
      else match s.checkPacket port p with
        | some (st, d) => s.finish c st d none
        | none => act s c

/-- SUCCESS with no result. -/
def State.ok (s : State) (c : Cmd) : State := s.finish c stSuccess 0 none
/-- A status with no result. -/
def State.fail (s : State) (c : Cmd) (code : Nat) : State := s.finish c code 0 none
/-- SUCCESS with the bytes after SEQUENCE. -/
def State.answer (s : State) (c : Cmd) (bs : List Byte) : State := s.finish c stSuccess 0 (some bs)
/-- A command goes on waiting. -/
def State.await (s : State) (c : Cmd) (st : CmdStep) : State := s.updCmd c.id (fun x => { x with step := st })

/-- Bytes that a result may hold: RESULT_LEN, or what a RESPONSE carries (Table 16.1). -/
def Cmd.room (c : Cmd) : Nat := match c.port with | .svc => 512 | .sq _ => c.pkt.u 0x0C 4

/-- The command that consumes the receive FIFO (R456). -/
def State.consumer (s : State) : Option Cmd := s.svc.consumer.bind (fun i => s.cmdq.cmds.find? (fun c => c.id == i))

/-- The pair of a command, for errors of its own. -/
def Cmd.ctxOf (c : Cmd) : Nat := c.pkt.u 4 2 % 4096

end Sys2Proof.Machine
end

