-- ==== Sys2Proof/Machine/Health.lean ====
section
/-! DEFINITION. Health records and their aggregation (R7, R27-R29, Tables 1.10 and 1.11), MEDIA_REPORT (R234, Table 6.5) and
RETENTION_REPORT (R159, R160, Table 4.11). -/

namespace Sys2Proof.Machine

/-! ### Records -/

/-- Whether the `n` bytes from `off` are 0. -/
def zeroAt (h : List Byte) (off n : Nat) : Bool := ((h.drop off).take n).all (fun b => b == 0)

/-- A health record without its path and SEQUENCE. `sums` are the fields from MEMBERS_TOTAL to BOUND_SUSPENSIONS, in order; ages
are maximum and median; `temp` is none for an offline unit. -/
structure HRec where
  state : Nat
  cond : Nat
  sums : List Nat
  thermal : Nat × Nat
  data : Nat × Nat
  erase : Nat × Nat
  temp : Option (Int × Int)
  recordAge : Nat × Nat
  deriving DecidableEq, Repr

/-- STATE values of Table 1.11. -/
abbrev hAttention : Nat := 1
abbrev hDegraded : Nat := 2
abbrev hReadOnly : Nat := 3
abbrev hLoss : Nat := 4
abbrev hFault : Nat := 5

/-- Adds two lists of sums. -/
def addSums (a b : List Nat) : List Nat := (a.zip b).map (fun e => e.1 + e.2)

/-- An age field of an aggregate: the largest maximum, the median of the medians (R28). -/
def aggAge (l : List (Nat × Nat)) : Nat × Nat := (maximum (l.map (fun e => e.1)), median (l.map (fun e => e.2)))

/-- The largest of signed values, 0 when there is none. -/
def maxInt (l : List Int) : Int := match l with | [] => 0 | x :: r => r.foldl max x

/-- A unit's record from those of its members (R7, R28). -/
def HRec.aggregate (ms : List HRec) : HRec :=
  let on := ms.filterMap (fun m => m.temp)
  { state := maximum (ms.map (fun m => m.state)), cond := (ms.map (fun m => m.cond)).foldl (· ||| ·) 0
    sums := (ms.map (fun m => m.sums)).foldl addSums (List.replicate 15 0)
    thermal := aggAge (ms.map (fun m => m.thermal)), data := aggAge (ms.map (fun m => m.data)), erase := aggAge (ms.map (fun m => m.erase))
    temp := if on.isEmpty then none else some (maxInt (on.map (fun t => t.1)), medianInt (on.map (fun t => t.2)))
    recordAge := aggAge (ms.map (fun m => m.recordAge)) }

/-- The record of an offline unit: its state, and its dies in the two member counts (R7). -/
def HRec.offline (state dies : Nat) : HRec :=
  { state := state, cond := 0, sums := [dies, dies] ++ List.replicate 13 0, thermal := (0, 0), data := (0, 0), erase := (0, 0)
    temp := none, recordAge := (0, 0) }

/-- The 256 bytes of a record. -/
def HRec.bytes (h : HRec) (path seq : Nat) : List Byte :=
  let two := fun (x : Nat × Nat) => le 8 x.1 ++ le 8 x.2
  let t := h.temp.getD (0, 0)
  let body := le 4 path ++ le 1 h.state ++ [1] ++ le 2 h.cond ++ le 4 (h.sums.getD 0 0) ++ le 4 (h.sums.getD 1 0)
    ++ (h.sums.drop 2).flatMap (le 8) ++ zeros 8 ++ two h.thermal ++ two h.data ++ two h.erase ++ leInt 8 t.1 ++ leInt 8 t.2
    ++ two h.recordAge ++ zeros 32 ++ le 8 seq ++ zeros 4
  body ++ le 4 (crc32c body)

/-- A signed 64-bit field of a record. -/
def recInt (b : List Byte) (off : Nat) : Int := (BitVec.ofNat 64 (recField b off 8)).toInt

/-- A record as its bytes give it. One whose dies are all offline takes no part in TEMPERATURE. -/
def HRec.ofBytes (b : List Byte) : HRec :=
  let two := fun (off : Nat) => (recField b off 8, recField b (off + 8) 8)
  { state := recField b 4 1, cond := recField b 6 2
    sums := [recField b 8 4, recField b 12 4] ++ (List.range 13).map (fun i => recField b (16 + 8 * i) 8)
    thermal := two 0x80, data := two 0x90, erase := two 0xA0
    temp := if recField b 8 4 = recField b 12 4 then none else some (recInt b 0xB0, recInt b 0xB8), recordAge := two 0xC0 }

/-! ### The device's own units -/

/-- Map figures that every die's record draws on, computed once: leaves MAPPED and leaves in the hole list, by die. -/
def State.mappedOn (s : State) : List Nat := (s.mapEntries.filter (fun e => e.2.st == .mapped)).map (fun e => dieOf e.2.addr)

/-- Listed plane-blocks of a die. -/
def State.pbsOn (s : State) (die : Nat) : List (Nat × PbRec) := s.blocks.pbs.filter (fun e => pbDie e.1 == die)

/-- Die-blocks of a die that hold data, the system band's among them, with their data ages (R114). -/
def State.agesOn (s : State) (die : Nat) : List (Nat × Nat) :=
  (((s.pbsOn die).map (fun e => s.servedBy e.1)).dedup.filter s.holdsData).map (fun db => (db, s.dataAge db))

/-- The data ages of the plane-blocks of a die that hold data (R28). -/
def State.pbAges (s : State) (die : Nat) : List Nat :=
  ((s.pbsOn die).filter (fun e => e.2.lastPage.isSome && s.holdsData (s.servedBy e.1))).map (fun e => (s.age die).counter / 256 - 64 * e.2.openAge)

/-- Leaves in the hole list stored on a die (Table 4.4): the octet, channel and die of the record's path, whatever unit ID the device had when
it was entered (R316). -/
def State.holesOn (s : State) (die : Nat) : Nat :=
  total ((s.drift.holes.filter (fun h => h.unit.toNat / 2 ^ 24 == 0 && h.unit.toNat % 2 ^ 10 == s.diePath die % 2 ^ 10)).map (fun h => h.count))

/-- Free die-blocks of the pool of a die: those listed, and those not listed, which a blank device has not erased yet (R205, R390). -/
def State.freeOn (s : State) (die : Nat) : Nat :=
  let l := s.listedDbs.filter (fun db => dbDie db == die && decide (dbBlock db < 1024))
  (l.filter s.isFree).length + (if s.blocks.blank then 0 else 1024 - l.length)

/-- A die that is offline: LOSS through retirement or rail failure, FAULT until it is retired (R29). -/
def State.offlineState (s : State) (die : Nat) : Nat :=
  let c := s.ctlOf die
  if s.dev.state == .fault then hFault
  else if c.retired || c.lost || s.power.octetOff.getLsbD (die / 64) then hLoss
  else hFault

/-- The record of a die (R27-R29). A suspension of the L1 bound is its channel's, and counts at the channel (log 40). Table 1.11 names a die's
warn limit and no number: it is 95 °C here, from which a die is hot (R436; DESIGN CHOICE, log 71). -/
def State.dieRec (s : State) (mapped : List Nat) (die : Nat) : HRec :=
  let c := s.ctlOf die
  if !c.online then { HRec.offline (s.offlineState die) 1 with cond := 0 }
  else
    let a := s.age die
    let ages := s.agesOn die
    let holes := s.holesOn die
    let pbs := s.pbsOn die
    let erases := pbs.map (fun e => e.2.erases) ++ List.replicate (4160 - pbs.length) 0
    let limit := s.refreshAge
    let bound := match s.arb (die / 8) with | some x => x.boundOff | none => false
    let queued := ages.any (fun e => s.blocks.refreshQ.contains e.1 && decide (8 * limit < 10 * e.2))
    let warm := decide (1520 ≤ c.temp)
    let past := ages.any (fun e => decide (95 * limit < 100 * e.2))
    let spare := s.spareLow die
    let state := if s.dev.state == .fault then hFault else if holes != 0 then hLoss else if bound || past || spare then hDegraded
      else if queued || warm || a.assumed then hAttention else 0
    let retired := (pbs.filter (fun e => e.2.st == .retired)).length
    let poolRetired := (pbs.filter (fun e => e.2.st == .retired && decide (pbBlock e.1 < 1024))).length
    let l := s.lifeOf die
    let t : Nat := a.counter / 256
    { state := state
      cond := 4 * flag bound + 32 * flag a.assumed + 64 * flag (s.blocks.refreshQ.any (fun db => dbDie db == die)) + 128 * flag past + 256 * flag warm + 512 * flag spare
      sums := [1, 0, 2 ^ 37, 2 ^ 37 - poolRetired * 2 ^ 25, s.freeOn die * 2 ^ 27, (mapped.filter (fun d => d == die)).length, holes
               , retired, s.reserveCount die, l.programs, l.erases, l.corrected, l.ladder, l.uncorrectable, 0]
      thermal := (t, t), data := (maximum (s.pbAges die), median (s.pbAges die))
      erase := (maximum erases, median erases), temp := some (c.temp, c.temp), recordAge := (0, 0) }

/-- Populated dies of a run. -/
def State.popDies (s : State) (first n : Nat) : List Nat := (unitDies first n).filter s.diePop

/-- The record of a channel: its dies', and its own suspensions of the L1 bound. -/
def State.chanRec (s : State) (mapped : List Nat) (ch : Nat) : HRec :=
  let h := HRec.aggregate ((s.popDies (8 * ch) 8).map (s.dieRec mapped))
  let n := match s.arb ch with | some a => a.suspensions | none => 0
  { h with sums := addSums h.sums (List.replicate 14 0 ++ [n]) }

/-- The record of an octet: its populated channels'. -/
def State.octetRec (s : State) (mapped : List Nat) (o : Nat) : HRec :=
  HRec.aggregate ((((List.range 8).map (fun i => 8 * o + i)).filter (fun ch => !(s.popDies (8 * ch) 8).isEmpty)).map (s.chanRec mapped))

/-- The record of the device, with its device-wide conditions (R29, R431). -/
def State.deviceRec (s : State) (mapped : List Nat) : HRec :=
  let h := HRec.aggregate (((List.range 12).filter (fun o => !(s.popDies (64 * o) 64).isEmpty)).map (s.octetRec mapped))
  let own := if s.dev.state == .fault then hFault else if s.dev.readOnly then hReadOnly else if s.dev.degraded then hDegraded
    else if s.dev.spaceLow || s.therm.warn then hAttention else 0
  { h with state := Nat.max h.state own
           cond := h.cond ||| (flag s.dev.readOnly + 2 * flag s.dev.spaceLow + 8 * flag s.dev.degraded + 16 * flag s.drift.assessing
             + 256 * flag s.therm.warn) }

/-- The record of a unit of this device by level, first die and die count. -/
def State.unitRec (s : State) (level first : Nat) : HRec :=
  let m := s.mappedOn
  match level with
  | 0 => s.dieRec m first
  | 1 => s.chanRec m (first / 8)
  | 2 => s.octetRec m (first / 64)
  | _ => s.deviceRec m

/-- Where the SEQUENCE of a unit's records is counted. -/
def unitKey (level first : Nat) : Nat :=
  match level with | 0 => first | 1 => 1000 + first / 8 | 2 => 2000 + first / 64 | 3 => 3000 | _ => 4000

/-- A unit forms its record: the state with its SEQUENCE counted, and the bytes (R27). -/
def State.formRecord (s : State) (level first path : Nat) (h : HRec) : State × List Byte :=
  let k := unitKey level first
  let n := (s.lifeOf k).sequence + 1
  (s.updLife k (fun l => { l with sequence := n }), h.bytes path n)

/-! ### MEDIA_REPORT (R234) -/

/-- n / d rounded down; 0xFFFF_FFFF when the divisor is 0 or the result does not fit. -/
def quot (n d : Nat) : Nat := if d = 0 then 0xFFFFFFFF else Nat.min 0xFFFFFFFF (n / d)

/-- The window of the forecast: from the oldest snapshot (or now, with none) to now. -/
def State.oldest (s : State) : Wear := s.blocks.snapshots.headD s.wearNow

/-- The median of `l` with `z` zeros beside it. -/
def medianOver (z : Nat) (l : List Nat) : Nat :=
  let i := (z + l.length - 1) / 2
  if i < z then 0 else (sortBy (fun a b => decide (a < b)) l).getD (i - z) 0

/-- Table 6.5 after SEQUENCE. The totals of a snapshot are the device's, so the window's figures are the device's at every level
(log 41). -/
def State.mediaReport (s : State) (first n path : Nat) : List Byte :=
  let o := s.oldest
  let w := s.wearNow
  let wall := match o.wall, w.wall with | some a, some b => some (b - a) | _, _ => none
  let secs := match wall with | some t => t | none => w.opSeconds - o.opSeconds
  let dies := s.popDies first n
  let serves := dies.filter (fun d => !(s.ctlOf d).retired && !(s.ctlOf d).lost)
  let pbs := s.blocks.pbs.filter (fun e => dies.contains (pbDie e.1))
  let counts := pbs.map (fun e => e.2.erases)
  let mid := medianOver (4160 * dies.length - pbs.length) counts
  let spare := total (dies.map s.reserveCount)
  let good := total (serves.map (fun d => 4096 + initialReserve d))
    - (pbs.filter (fun e => e.2.st == .retired && serves.contains (pbDie e.1) && !systemUse (pbDie e.1) (pbPlane e.1) (pbBlock e.1))).length
  let erases := w.erases - o.erases
  let host := w.hostPages - o.hostPages
  let copy := w.copyPages - o.copyPages
  let refresh := w.refreshPages - o.refreshPages
  let dropped := w.dropped - o.dropped
  let budget := s.blBudget
  let days := fun (left : Nat) => quot (left * good * secs) (erases * 86400)
  le 4 path ++ le 2 (flag s.dev.spaceLow + 2 * flag s.dev.readOnly + 4 * flag (dies.any s.spareLow) + 8 * flag wall.isSome + 16 * flag (decide (secs < 86400)))
    ++ le 2 1500 ++ le 2 budget ++ zeros 2 ++ le 4 (secs * 1000 / 86400) ++ le 4 (maximum counts) ++ le 4 mid ++ le 4 good ++ le 4 spare
    ++ le 4 (total (dies.map initialReserve)) ++ le 4 s.blocks.dropped ++ le 8 host ++ le 8 copy ++ le 8 refresh ++ le 8 erases
    ++ le 4 (quot (1000 * (host + copy + refresh)) host) ++ le 4 (quot (1000000 * erases * 86400) (good * secs))
    ++ le 4 (days (budget - mid)) ++ le 4 (days (1500 - maximum counts)) ++ le 4 (quot ((s.spaceGood - s.need) * secs) (dropped * 86400)) ++ zeros 28

/-! ### RETENTION_REPORT (R159, R160) -/

/-- User bytes that a refresh of a die-block copies (R160). -/
def State.userBytes (s : State) (db : Nat) : Nat :=
  if (s.dbRec db).st = .map then 32768 * (s.liveImages db).length else 4096 * total ((s.servingAll db).map (fun k => (s.pb k).valid))

/-- max(0, limit - age) / f(T) in whole seconds (R160). Where a profile gives f(T) = 0 the quotient has no value, and the field reads
2^64 - 1 (DESIGN CHOICE, log 64). -/
def darkLimit (fs : List Nat) (t : Int) (limit age : Nat) : Nat :=
  let (n, d) := accel fs t
  if n = 0 then 2 ^ 64 - 1 else (limit - age) * 4096 * d / n

/-- The temperature whose f is num / den, to the nearest 1/16 °C; 0x8000 where no single temperature gives it. -/
def equivTemp (fs : List Nat) (num den : Nat) : Nat :=
  if den = 0 then 0x8000
  else
    let above := fun (t : Int) => let (n, d) := accel fs t; decide (n * den < 4096 * d * num)
    let (n0, d0) := accel fs 0
    if num * 4096 * d0 ≤ n0 * den then 0x8000
    else if above 1600 then 0x8000
    else
      let hi := (List.range 1601).find? (fun (t : Nat) => !above t)
      match hi with
      | none => 0x8000
      | some t =>
        let (a, da) := accel fs ((t : Int) - 1)
        let (b, db) := accel fs (t : Int)
        let r : Rat := (4096 * num : Rat) / den
        let low : Rat := (a : Rat) / da
        let high : Rat := (b : Rat) / db
        if 2 * r < low + high then t - 1 else t

/-- The dies and die-blocks of a unit, with data ages. -/
def State.unitAges (s : State) (first n : Nat) : List (Nat × Nat) := (s.popDies first n).flatMap s.agesOn

/-- Table 4.11 after SEQUENCE, for a unit's dies and a temperature in 1/16 °C. LAST_DARK_AGE and LAST_DARK_SPREAD are taken over the online
dies of the reported unit, assumed U with the others; A grows by REFRESH_SECONDS at the hottest present temperature of the unit's populated
dies, a fallback temperature with the others (DESIGN CHOICE, log 64). -/
def State.retention (s : State) (first n path : Nat) (t : Int) : List Byte :=
  let p := s.drift.profile
  let ages := s.unitAges first n
  let dies := s.popDies first n
  let past := fun (num den : Nat) => (ages.filter (fun e => decide (num * s.refreshAge < den * e.2))).map (fun e => e.1)
  let beyond := (ages.filter (fun e => decide (p.readLimit < e.2))).map (fun e => e.1)
  let bytes := fun (l : List Nat) => total (l.map s.userBytes)
  let queued := bytes (past 8 10)
  let secs := ceilDiv queued 13000000000
  let inQueue := fun (db : Nat) => s.blocks.refreshQ.contains db || s.blocks.jobs.any (fun j => j.refresh && j.db == db)
  let unq := maximum ((ages.filter (fun e => !inQueue e.1)).map (fun e => e.2))
  let us := (dies.filter (fun d => (s.ctlOf d).online)).map (fun d => (s.age d).uApplied / 256)
  let mid := median us
  let add := maximum (dies.map (fun d => let (a, b) := accel p.factors (s.dieTemp d).1; ceilDiv (secs * a) (4096 * b)))
  let oldest := maximum (ages.map (fun e => e.2))
  let dark := s.drift.lastE.getD 0
  let any := fun (f : DieAge → Bool) => flag (dies.any (fun d => f (s.age d)))
  le 4 path ++ leInt 2 t
    ++ le 2 (any (fun a => a.assumed) + 2 * any (fun a => a.clamped) + 4 * flag s.drift.assessing + 8 * flag (bytes beyond != 0) + 16 * any (fun a => a.stale))
    ++ le 8 oldest ++ le 8 (median (ages.map (fun e => e.2))) ++ le 8 queued ++ le 8 (bytes (past 95 100)) ++ le 8 (bytes beyond)
    ++ le 4 secs ++ zeros 4 ++ le 8 (darkLimit p.factors t p.readLimit oldest) ++ le 8 (darkLimit p.factors t p.readLimit (unq + add))
    ++ le 8 mid ++ le 8 (maximum us - us.foldl Nat.min (maximum us)) ++ le 4 dark ++ le 2 (equivTemp p.factors mid dark) ++ zeros 26

/-- The signed temperature of a 16-bit field. -/
def tempOf (v : Nat) : Int := (BitVec.ofNat 16 v).toInt

end Sys2Proof.Machine
end

