-- ==== Sys2Proof/Machine/Images.lean ====
section
/-! DEFINITION. Firmware slots and image staging: checks, chunks and the image commands (R457-R465, R470). -/

namespace Sys2Proof.Machine

/-! ### Slots -/

/-- Version and rollback index of a slot: of its image, or of the image that slot A holds from manufacture (log 12). -/
def State.slotVersion (s : State) (i : Nat) : Nat :=
  match Tab.find s.img.slots i with
  | some x => headerVersion x.header
  | none => if i = 0 then Config.factoryVersion.toNat else 0
def State.slotRollback (s : State) (i : Nat) : Nat :=
  match Tab.find s.img.slots i with
  | some x => headerRollback x.header
  | none => if i = 0 then Config.factoryRollback.toNat else 0

/-- Whether the control-core firmware runs. -/
def State.firmwareRuns (s : State) : Bool := match s.boot.step with | .none | .boot | .attempt => false | _ => true

/-- FW_VERSION: IMAGE_VERSION of the slot whose firmware runs (R457); 0 while none runs. -/
def State.fwVersion (s : State) : Nat := if s.firmwareRuns then s.slotVersion s.boot.slot else 0

/-- The rollback floor (R459). -/
def State.rollbackFloor (s : State) : Nat :=
  let p := s.slotPtr
  if p.trial then Config.fuseFloor.toNat else Nat.max Config.fuseFloor.toNat (s.slotRollback p.active)

/-! ### Header checks (R458, Table 16.4) -/

abbrev subFormat : Nat := 1
abbrev subKey : Nat := 2
abbrev subSignature : Nat := 3
abbrev subHardware : Nat := 4
abbrev subUnit : Nat := 5
abbrev subRollback : Nat := 6
abbrev subManifest : Nat := 7
abbrev subDigest : Nat := 8
abbrev subMedia : Nat := 9
abbrev subNotStaged : Nat := 10
abbrev subStart : Nat := 11

/-- The header's parts: TYPE, OFFSET and LENGTH. -/
def partsOf (h : List Byte) : List (Nat × Nat × Nat) :=
  (List.range (Nat.min 16 (recField h 0x044 1))).map (fun i => (recField h (partAt i) 1, recField h (partAt i + 12) 4, recField h (partAt i + 16) 4))

/-- Bytes that Table 16.2 leaves 0 in a part entry at or above PART_COUNT, or between its fields. -/
def partZeros (h : List Byte) (i : Nat) : Bool :=
  if i < recField h 0x044 1 then zeroAt h (partAt i + 1) 3 && zeroAt h (partAt i + 68) 12 else zeroAt h (partAt i) 80

def formatOk (h : List Byte) : Bool :=
  recField h 0 4 == 0x544C5452 && recField h 4 2 == 1 && recField h 6 2 == 4096 && decide (4096 ≤ headerLen h) && decide (headerLen h ≤ 67108864)
    && zeroAt h 0x00F 1 && zeroAt h 0x042 2 && zeroAt h 0x045 3 && zeroAt h 0x5B0 0x9F0 && (List.range 16).all (partZeros h)

/-- Whether any two parts overlap. -/
def partsApart (l : List (Nat × Nat × Nat)) : Bool :=
  match l with
  | [] => true
  | (_, o, n) :: r => r.all (fun e => decide (o + n ≤ e.2.1) || decide (e.2.1 + e.2.2 ≤ o)) && partsApart r

def manifestOk (h : List Byte) : Bool :=
  let ps := partsOf h
  let count := recField h 0x044 1
  decide (5 ≤ count) && decide (count ≤ 16)
    && [1, 2, 3, 4, 5].all (fun t => (ps.filter (fun e => e.1 == t)).length == 1)
    && ps.all (fun e => (decide (1 ≤ e.1) && decide (e.1 ≤ 5)) || (decide (0x10 ≤ e.1) && decide (e.1 ≤ 0x1F)))
    && ps.all (fun e => decide (4096 ≤ e.2.1) && e.2.1 % 4096 == 0 && e.2.2 != 0 && decide (e.2.1 + e.2.2 ≤ headerLen h))
    && partsApart ps

/-- The first check of Table 16.4 that a header fails. -/
def State.headerReason (s : State) (h : List Byte) : Option Nat :=
  if !formatOk h then some subFormat
  else if !Config.keyMatches ((h.drop 0x550).take 96) then some subKey
  else if !Config.signatureOk h then some subSignature
  else if recField h 0x00C 2 ≠ 0x0960 ∨ recField h 0x00E 1 ≠ 0x04 ∨ bit (recField h 0x010 32) 0x10 = false then some subHardware
  else if recField h 0x030 16 ≠ 0 ∧ recField h 0x030 16 ≠ Config.deviceSerial.toNat then some subUnit
  else if headerRollback h < s.rollbackFloor then some subRollback
  else if !manifestOk h then some subManifest
  else none

/-! ### Staging (R460-R463) -/

/-- The slot that is not ACTIVE. -/
def State.stagingSlot (s : State) : Nat := if s.slotPtr.active = 0 then 1 else 0

/-- The offset, length and LAST of an IMAGE_STAGE. -/
def Cmd.chunk (c : Cmd) : Nat × Nat × Bool := (c.pkt.u 0x20 4, c.pkt.u 0x24 4, bit (c.pkt.u 0x28 1) 0)

/-- Whether a chunk fits an image whose IMAGE_LEN is known (R461). -/
def lengthFits (o n len : Nat) (last : Bool) : Bool := if last then o + n == len else decide (o + n < len)

/-- The packet offset at which a chunk breaks R461, before its bytes are seen. -/
def State.badChunk (s : State) (o n : Nat) (last : Bool) : Option Nat :=
  let i := s.img
  let known := i.st == .receiving && o != 0
  if o ≠ 0 ∧ (o ≠ i.received ∨ (i.st ≠ .header ∧ i.st ≠ .receiving)) then some 0x20
  else if n = 0 ∨ 1048576 < n ∨ (last = false ∧ (n % 8 ≠ 0 ∨ n < 8)) then some 0x24
  else if known then (if lengthFits o n (headerLen i.header) last then none else some 0x24)
  else if 67108864 < o + n ∨ (last = true ∧ o + n < 4096) then some 0x24
  else none

/-- A header passes: PREVIOUS becomes none, the boot records name no copy of the slot, and its first block is erased at every online position, or the
second where the first is retired (R48, R462). -/
def State.acceptHeader (s : State) : State :=
  let slot := s.stagingSlot
  let s := (((s.setSlotPtr { s.slotPtr with previous := 0xFF }).emptySlot slot).rewriteBoots)
  let s := s.setImg { s.img with st := .receiving, slot := slot, copies := [] }
  ((positionsOf s.onlinePositions).foldl (fun s p =>
    match [slotBlock slot, slotBlock slot + 1].find? (s.sound p) with
    | some b => s.beginCopy p b false
    | none => s) s).imageOn

/-- Bytes join the page that is not complete; whole pages are formed (R462). -/
def Images.take (i : Images) (bs : List Byte) : Images :=
  let all := i.page ++ bs
  let n := all.length / 131072
  { i with page := all.drop (131072 * n), formed := i.formed + n, received := i.received + bs.length
           pages := i.pages ++ (List.range n).map (fun k => (i.formed + k, (all.drop (131072 * k)).take 131072)) }

/-- Takes bytes of a chunk that ends at `stop`. When they complete the header it is checked before anything is written. A chunk that then breaks R461
leaves staging as it was before it, `back`. -/
def State.takeImage (s : State) (c : Cmd) (bs : List Byte) (back : Images) : State :=
  let (o, n, last) := c.chunk
  let i := s.img
  let h := if i.header.length < 4096 then (i.header ++ bs).take 4096 else i.header
  let s' := s.setImg { (i.take bs) with header := h }
  if i.st = .receiving then s'.imageOn
  else if h.length < 4096 then s'
  else match s.headerReason h with
    | some sub => s.rejectStage sub
    | none =>
      if !lengthFits o n (headerLen h) last then (s.setImg back).finish c stField 0x24 none
      else if positionCount s.onlinePositions < 2 then s.rejectStage subMedia
      else s'.acceptHeader

/-- Whether a command still runs. -/
def State.running (s : State) (c : Cmd) : Bool := s.cmdq.cmds.any (fun x => x.id == c.id)

/-- The end of a chunk whose bytes have all come: it waits for its whole pages to be programmed; the LAST one ends the last page and begins
verification (R461, R462). -/
def State.endChunk (s : State) (c : Cmd) : State :=
  let (_, _, last) := c.chunk
  if !s.running c then s
  else if last then
    let i := s.img
    let i := if i.page.isEmpty then i else { i with page := [], pages := i.pages ++ [(i.formed, i.page)], formed := i.formed + 1 }
    ((s.setImg { i with st := .verifying }).updCmd c.id (fun x => { x with step := .verify })).imageOn
  else if s.img.st = .receiving then (s.updCmd c.id (fun x => { x with step := .image })).imageOn
  else s.finish c stSuccess 0 none

/-- A chunk begins: one at offset 0 restarts staging (R461). -/
def State.startChunk (s : State) (c : Cmd) : State :=
  let (o, _, _) := c.chunk
  if o = 0 then s.setImg { s.img.empty with st := .header, slot := s.stagingSlot } else s

/-- RECEIVED falls back to the end of the last whole page that every position has (R456, Table 16.7); with none, staging begins anew. -/
def State.dropPartial (s : State) : State :=
  let i := s.img
  if i.st = .receiving then
    let n := (i.copies.map (fun e => e.2.pages)).foldl Nat.min i.formed
    s.setImg (if n = 0 then i.empty else { i with received := 131072 * n, formed := n, page := [], pages := [] })
  else if i.st = .header then s.setImg i.empty
  else s

/-- IMAGE_STAGE after its checks: from host memory at once, on the service port from the receive FIFO (R347, R461). -/
def State.stage (s : State) (c : Cmd) (chunk : HostRead) : State :=
  let (o, n, last) := c.chunk
  if s.cmdq.cmds.any (fun x => x.id != c.id && x.opcode == 0x80 && x.step != CmdStep.fetched) || s.img.st == .verifying || s.img.st == .activating then s.fail c stBusy
  else if c.port = .svc ∧ s.consumer.isSome = true then s.fail c stBusy
  else match s.badChunk o n last with
    | some off => s.finish c stField off none
    | none =>
      match c.port, chunk with
      | .svc, _ => ({ s.startChunk c with svc := { s.svc with consumer := some c.id, taken := [] } }).await c .fifo
      | _, .failed => s.fail c stTimeout
      | _, .bytes b => (((s.startChunk c).await c .fifo).takeImage c (fit n b) s.img).endChunk c

/-- IMAGE_VERIFY: every copy has been read back; `good` are the positions whose copy yields every part. -/
def execImageVerify (good : BitVec 4) (s : State) : Host.Outcome State Fault Refusal := s.done (s.verified good)

/-! ### The other image commands -/

/-- SVC_IMG_STATE (Table 16.10). -/
def State.imgState (s : State) : Nat :=
  let i := s.img
  let p := s.slotPtr
  let st := match i.st with | .empty => 0 | .header => 1 | .receiving => 2 | .verifying => 3 | .staged => 4 | .activating => 5
  let good := if i.st = .staged ∨ i.st = .activating then i.writing.toNat else 0
  let slot := if i.st = .empty then 0 else i.slot % 2
  st * 2 ^ 28 + slot * 2 ^ 27 + good * 2 ^ 20 + p.active % 2 * 2 ^ 19 + flag p.trial * 2 ^ 18 + p.attempts % 4 * 2 ^ 16 + p.previous % 256 * 2 ^ 8 + i.reason % 128

/-- The staged header, complete. -/
def State.stagedHeader (s : State) : List Byte :=
  if s.img.st = .empty ∨ s.img.header.length < 4096 then [] else s.img.header

/-- SVC_ROLLBACK. -/
def State.rollbackReg (s : State) : Nat := s.rollbackFloor * 65536 + Config.fuseFloor.toNat

/-- IMAGE_STATUS (Table 16.11). -/
def execImageStatus (port : Port) (pkt : Packet) (s : State) : Host.Outcome State Fault Refusal :=
  s.done (s.run 0x81 port pkt (fun s c =>
    let h := s.stagedHeader
    let a := s.slotPtr.active
    s.answer c (le 4 s.imgState ++ le 4 s.img.received ++ le 4 (headerLen h) ++ le 4 s.rollbackReg ++ le 8 (s.slotVersion a) ++ le 8 (headerVersion h)
      ++ le 2 (s.slotRollback a) ++ le 2 (headerRollback h) ++ le 1 s.img.lastActivation ++ zeros 19)))

/-- IMAGE_DISCARD: the slot's blocks are erased at every position that is online, and the boot records name no copy of it (R464). -/
def State.discardImage (s : State) (c : Cmd) : State :=
  match s.img.st with
  | .empty => s.ok c
  | .verifying | .activating => s.fail c stBusy
  | _ =>
    let slot := s.img.slot
    let s := ((s.setImg s.img.empty).emptySlot slot).rewriteBoots
    ((positionsOf s.onlinePositions).foldl (fun s p =>
      ([slotBlock slot, slotBlock slot + 1].filter (s.sound p)).foldl (fun s b => s.spawnSystemErase engImage (dbKey (bootDie p) b)) s) s).ok c

def execImageDiscard (port : Port) (pkt : Packet) (s : State) : Host.Outcome State Fault Refusal :=
  s.done (s.run 0x83 port pkt State.discardImage)

/-- IMAGE_ACTIVATE (R465): fetching stops, and the activation waits until no other command is in progress (R345). -/
def State.activate (s : State) (c : Cmd) : State :=
  if s.img.st ≠ .staged then (s.setImg { s.img with reason := subNotStaged }).finish c stImage subNotStaged none
  else if headerRollback s.img.header < s.rollbackFloor then (s.setImg { s.img with reason := subRollback }).finish c stImage subRollback none
  else if s.cmdq.stopped.isSome then s.fail c stBusy
  else (s.setCmdq { s.cmdq with stopped := some c.id }).await c .activate

def execImageActivate (port : Port) (pkt : Packet) (s : State) : Host.Outcome State Fault Refusal :=
  s.done (s.run 0x82 port pkt State.activate)

end Sys2Proof.Machine
end

