-- ==== Sys2Proof/Machine/Board.lean ====
section
/-! DEFINITION. The board description commands (R379, R383-R386). -/

namespace Sys2Proof.Machine

/-- COMMITTED (SOURCE 0) or PENDING (SOURCE 1); 512 zero bytes when the record is absent (R379). -/
def State.boardRecord (s : State) (source : Nat) : List Byte := (s.store.record (if source = 0 then recBoard else recBoardPending)).getD (zeros 512)

/-- BOARD_GET. -/
def execBoardGet (port : Port) (pkt : Packet) (s : State) : Host.Outcome State Fault Refusal :=
  s.done (s.run 0x60 port pkt (fun s c => s.answer c (((s.boardRecord (pkt.u 0x20 1)).drop (pkt.u 0x18 4)).take (pkt.u 0x1C 4))))

/-- Writes bytes of PENDING from OFFSET (R383). -/
def State.writePending (s : State) (off : Nat) (bs : List Byte) : State :=
  let b := s.boardRecord 1
  s.save recBoardPending (b.take off ++ bs ++ b.drop (off + bs.length))

/-- Where two records first differ among CH_POP, DIE_POP and RAIL_MAP. -/
def populationDiff (a b : List Byte) : Option Nat :=
  let offs := (List.range 12).map (fun i => 0x010 + i) ++ (List.range 96).map (fun i => 0x020 + i) ++ [0x080, 0x081]
  offs.find? (fun o => bdField a o 1 != bdField b o 1)

/-- The check DATA_ON_UNIT of a record in MAINTENANCE: the first byte that unpopulates a die that is not offline, or clears the rail of
an octet that holds one. -/
def State.dataOnUnit (s : State) (b : List Byte) : Option Nat :=
  let live := (List.range 768).filter (fun k => s.diePop k && (s.ctlOf k).online)
  let lost := live.filter (fun k => !(bit (bdField b 0x010 12) (k / 8) && bit (bdField b (0x020 + k / 8) 1) (k % 8)))
  match lost with
  | k :: _ => some (if bit (bdField b 0x010 12) (k / 8) then 0x020 + k / 8 else 0x010 + k / 64)
  | [] => match live.find? (fun k => !bit (bdField b 0x080 2) (k / 64)) with
    | some k => some (0x080 + k / 512)
    | none => none

/-- What BOARD_COMMIT finds wrong with PENDING in the present state: the reason and the first faulty byte (R384-R386). -/
def State.pendingFault (s : State) : Option (Nat × Nat) :=
  let b := s.boardRecord 1
  match bdCheck b with
  | some f => some f
  | none =>
    let d := match s.dev.state with
      | .maintenance => s.dataOnUnit b
      | .standby => if s.committedFault.isNone then populationDiff (s.boardRecord 0) b else none
      | _ => none
    d.map (fun o => (0x0B, o))

/-- Steps 1 and 2 of R384: the record with its GENERATION and CRC becomes COMMITTED, and the stored link parameters go (R274). -/
def State.commitBoard (s : State) : State × List Byte :=
  let g := if s.committedFault.isNone then bdField (s.boardRecord 0) 0x008 4 + 1 else 1
  let b := s.boardRecord 1
  let body := (b.take 8 ++ le 4 g ++ b.drop 12).take 0x1FC
  let b := body ++ le 4 (crc32c body)
  let s := s.save recBoard b
  let link := (List.range 256).filter (fun i => match s.store.record (recParam0 + i) with
    | some p => decide (0x0800 ≤ ofLe (p.take 2)) && decide (ofLe (p.take 2) ≤ 0x0803)
    | none => false)
  (if link.isEmpty then s else s.erase (link.map (fun i => recParam0 + i)), b)

/-- BOARD_COMMIT. -/
def State.boardCommit (s : State) (c : Cmd) : State :=
  match s.pendingFault with
  | some (reason, off) =>
    (s.event portBoot 0x0A01 s.devicePath (le 1 reason ++ [0] ++ le 2 off ++ le 1 1)).finish c stField 0x7F none
  | none =>
    let (s, b) := s.commitBoard
    if s.dev.state = .held then (((s.loadBd b).goto .powering).mediaRails).ok c else s.ok c

def execBoardCommit (port : Port) (pkt : Packet) (s : State) : Host.Outcome State Fault Refusal :=
  s.done (s.run 0x62 port pkt State.boardCommit)

end Sys2Proof.Machine
end

