-- ==== Sys2Proof/Machine/CtxCommands.lean ====
section
/-! DEFINITION. Context and key commands (R299-R313). Unbinding and the crypto-erase go on in Machine/CtxTable.lean. -/

namespace Sys2Proof.Machine

/-- PIN_LIMIT in force (R180). -/
def State.pinLimit (s : State) : Nat := s.reg rXlatPinLimit


/-- Whether every granule of a run is unbound, and no command that waits for a rebuild is to bind it (R175). -/
def State.runUnbound (s : State) (first n : Nat) : Bool :=
  decide (first + n ≤ 4194304) && s.cmdq.cmds.all (fun c => match c.step with
    | .held f m => c.opcode == 0x33 || c.opcode == 0x34 || decide (f + m ≤ first) || decide (first + n ≤ f)
    | _ => true) && s.xlat.dir.all (fun e => decide (e.1 < first) || decide (first + n ≤ e.1) || !e.2.bound)

/-- Whether every granule of a run is bound to a context. -/
def State.runBound (s : State) (c first n : Nat) : Bool :=
  decide (first + n ≤ 4194304) && (s.xlat.dir.filter (fun e => decide (first ≤ e.1) && decide (e.1 < first + n) && e.2.bound && e.2.ctx.toNat == c)).length == n

/-- Binds a run for a command, which then waits for the commit of the record; where a directory line is being rebuilt the binding waits
first (R175, R304). -/
def State.bindFor (s : State) (c : Cmd) (first n : Nat) : State :=
  if s.heldRun first n then s.await c (.held first n) else (s.bindRun c.ctxOf first n).await c (.journal (s.bindRun c.ctxOf first n).lastRseq)

/-- CTX_CREATE (R300, R304, R306, R308): the entry keeps its GENERATION count. -/
def State.ctxCreate (s : State) (c : Cmd) : State :=
  let ctx := c.ctxOf
  let first := c.pkt.u 0x20 4
  let n := c.pkt.u 0x24 4
  let x := (s.ctx ctx).withAttr (c.pkt.u 0x18 4)
  if s.ctxBusy ctx then s.fail c stBusy
  else if !attrOk (c.pkt.u 0x18 4) then s.finish c stField 0x18 none
  else if !s.runUnbound first n then s.fail c stRange
  else if x.cls ≠ 2#2 ∧ s.pinLimit < s.pinDemand + n then s.fail c stNoSpace
  else
    let x := { x with valid := true, key := if x.enc then .empty else .none, sweep := false, generation := x.generation + 1 }
    let s := s.storeCtx ctx x
    if n = 0 then s.ok c else s.bindFor c first n

def execCtxCreate (port : Port) (pkt : Packet) (s : State) : Host.Outcome State Fault Refusal := s.done (s.run 0x10 port pkt State.ctxCreate)

/-- The attributes after a CTX_MODIFY (Table 10.8). -/
def Ctx.modified (x : Ctx) (attr mask : Nat) : Ctx := x.withAttr ((x.attr &&& (mask ^^^ 0x7F000000)) ||| (attr &&& mask &&& 0x7F000000))

/-- Granules of a context are pinned or unpinned as its class says; pins made by PIN_SEGMENTS stay (R180, Table 9.3). Segments that are
not resident load as MAP. Where a rebuild holds the line, the change waits for its end (R175). -/
def State.repin (s : State) (ctx id : Nat) : State :=
  let on := (s.ctx ctx).cls != 2#2
  (s.granulesOf ctx).foldl (fun s g =>
    let pinned := on || s.xlat.pins.contains g
    if s.lineHeld (lineOf g) then s.setXlat { s.xlat with pinsDue := s.xlat.pinsDue.filter (fun p => p.1 != g) ++ [(g, pinned)] }
    else
      let s := s.pin g pinned
      if on && (s.entry g).st == .inMedia then s.spawnSegRead g false none (some id) else s) s

/-- The dirty lines of a context go to the head of the write-back order, and the command waits for their commits (Table 9.3). -/
def State.pushDirty (s : State) (ctx id : Nat) : State :=
  let ks := s.cache.dirtyList.filter (fun k => match Tab.find s.cache.lines k with | some l => l.ctx.toNat == ctx | none => false)
  let s := ks.foldl (fun s k => s.flushLine k (.cmd id)) s
  s.setCache { s.cache with dirtyList := ks ++ s.cache.dirtyList.filter (fun k => !ks.contains k)
                            lines := s.cache.lines.map (fun e => if e.2.ctx.toNat = ctx then (e.1, { e.2 with wt := true }) else e) }

/-- A context is write-through no longer: its lines follow the write-back policy, and those that writes have made dirty under
write-through keep their place as lines named for write-back (Table 9.3). -/
def State.endWt (s : State) (ctx : Nat) : State :=
  s.setCache { s.cache with lines := s.cache.lines.map (fun e =>
    if e.2.ctx.toNat = ctx then (e.1, { e.2 with wt := false, named := e.2.named || (e.2.wt && e.2.isDirty) }) else e) }

/-- CTX_MODIFY (R300, R303-R305): attributes change before binding. -/
def State.ctxModify (s : State) (c : Cmd) : State :=
  let ctx := c.ctxOf
  let old := s.ctx ctx
  let x := old.modified (c.pkt.u 0x18 4) (c.pkt.u 0x1C 4)
  let bind := c.pkt.u 0x28 1
  let first := c.pkt.u 0x20 4
  let n := c.pkt.u 0x24 4
  let fresh := if x.cls = 2#2 then 0
    else (if old.cls = 2#2 then ((s.granulesOf ctx).filter (fun g => !(s.entry g).pinned)).length else 0) + (if bind = 1 then n else 0)
  if s.ctxBusy ctx then s.fail c stBusy
  else if x.enc ≠ old.enc ∨ !attrOk x.attr then s.finish c stField 0x18 none
  else if (bind = 1 ∧ !s.runUnbound first n) ∨ (bind = 2 ∧ !s.runBound ctx first n) then s.fail c stRange
  else if fresh ≠ 0 ∧ s.pinLimit < s.pinDemand + fresh then s.fail c stNoSpace
  else
    let s := s.storeCtx ctx x
    let s := if (old.cls = 2#2) = (x.cls = 2#2) then s else s.repin ctx c.id
    let s := if !old.wt && x.wt then s.pushDirty ctx c.id else if old.wt && !x.wt then s.endWt ctx else s
    match bind with
    | 1 => if n = 0 then s.await c .commits else s.bindFor c first n
    | 2 => if n = 0 then s.await c .commits else (s.await c (.unbind (granuleRun first n))).advance
    | _ => s.await c .commits

def execCtxModify (port : Port) (pkt : Packet) (s : State) : Host.Outcome State Fault Refusal := s.done (s.run 0x11 port pkt State.ctxModify)

/-- CTX_DELETE (R306): a LOADED key is destroyed, then every granule is unbound. -/
def State.ctxDelete (s : State) (c : Cmd) : State :=
  let ctx := c.ctxOf
  if s.ctxBusy ctx then s.fail c stBusy
  else
    let s := if (s.ctx ctx).key = .loaded then s.destroyKey ctx else s
    (s.await c (.unbind (s.granulesOf ctx))).advance

def execCtxDelete (port : Port) (pkt : Packet) (s : State) : Host.Outcome State Fault Refusal := s.done (s.run 0x12 port pkt State.ctxDelete)

/-- CTX_QUERY: the entry, and whether the KEK is still the one of manufacture. -/
def execCtxQuery (port : Port) (pkt : Packet) (s : State) : Host.Outcome State Fault Refusal :=
  s.done (s.run 0x13 port pkt (fun s c => s.answer c (s.ctxEntry c.ctxOf ++ le 1 (flag (s.store.record recKek).isSome) ++ zeros 7)))

/-! ### Keys (R309-R312) -/

/-- The KEK in force: 32 zero bytes until one is loaded (R311). -/
def State.kek (s : State) : List Byte := (s.store.record recKek).getD (zeros 32)

/-- The status with which KEY_LOAD refuses a blob of 80 bytes (R310); none when every check passes. -/
def State.keyFault (s : State) (ctx : Nat) (b : List Byte) : Option (Nat × Nat) :=
  let kind := recField b 1 1
  let x := s.ctx ctx
  let wrapped := b.drop 8
  if kind = 1 ∧ !x.valid then some (stContext, 0)
  else if recField b 0 1 ≠ 1 ∨ (kind ≠ 1 ∧ kind ≠ 2) ∨ recField b 2 2 ≠ ctx ∨ (kind = 2 ∧ ctx ≠ 0) ∨ recField b 4 4 ≠ 0
      ∨ (kind = 2 ∧ !zeroAt b 0x30 32) then some (stField, 0x7F)
  else if kind = 2 ∧ s.dev.state ≠ .maintenance then some (stState, 0)
  else if kind = 1 ∧ ((x.key ≠ .empty ∧ x.key ≠ .destroyed) ∨ (s.store.record recKek).isNone) then some (stKey, 0)
  else if !Config.unwraps s.kek wrapped then some (stKey, 0)
  else if kind = 1 ∧ Config.sameHalves s.kek wrapped then some (stKey, 0)
  else none

/-- KEY_LOAD. -/
def State.keyLoad (s : State) (c : Cmd) (blob : HostRead) : State :=
  match blob with
  | .failed => s.fail c stTimeout
  | .bytes b =>
    let b := fit 80 b
    let ctx := c.ctxOf
    if recField b 1 1 = 1 ∧ s.ctxBusy ctx = true then s.fail c stBusy
    else match s.keyFault ctx b with
      | some (code, d) => (s.event portCore 0x0901 s.devicePath (le 2 ctx ++ le 1 code)).finish c code d none
      | none =>
        if recField b 1 1 = 1 then
          let s := s.save (recKey0 + ctx) (fit 72 (Config.storedKey s.kek (b.drop 8)))
          (s.storeCtx ctx { s.ctx ctx with key := .loaded }).ok c
        else (s.save recKek (fit 32 (Config.unwrapKek s.kek (b.drop 8)))).ok c

def execKeyLoad (port : Port) (pkt : Packet) (blob : HostRead) (s : State) : Host.Outcome State Fault Refusal :=
  s.done (s.run 0x14 port pkt (fun s c => s.keyLoad c blob))

/-- KEY_DESTROY, the crypto-erase (R312). -/
def State.keyDestroy (s : State) (c : Cmd) : State :=
  let ctx := c.ctxOf
  if s.ctxBusy ctx then s.fail c stBusy
  else if (s.ctx ctx).key ≠ .loaded then s.fail c stKey
  else ((s.destroyKey ctx).await c (.sweep s.serial)).advance

def execKeyDestroy (port : Port) (pkt : Packet) (s : State) : Host.Outcome State Fault Refusal := s.done (s.run 0x15 port pkt State.keyDestroy)

end Sys2Proof.Machine
end

