-- ==== Sys2Proof/Machine/Dram.lean ====
section
/-! DEFINITION. The stacked DRAM: its address space (Table 7.1), the side band and metadata of a line (Tables 7.3, 7.4), the sector code
(R244), and what the sectors whose contents the spec gives hold. -/

namespace Sys2Proof.Machine

/-! ### The partition (R238) -/

/-- The regions of Table 7.1. -/
inductive DramRegion where
  | lines | segments | working | skiver | welt | samples | tags | reserved
  deriving DecidableEq, Repr

/-- The region of a DRAM address. -/
def dramRegion (a : Nat) : Option DramRegion :=
  if a < 0x400000000 then some .lines
  else if a < 0x700000000 then some .segments
  else if a < 0x780000000 then some .working
  else if a < 0x7C0000000 then some .skiver
  else if a < 0x7E0000000 then some .welt
  else if a < 0x7F0000000 then some .samples
  else if a < 0x7F2000000 then some .tags
  else if a < 0x800000000 then some .reserved
  else none

/-- The stack that holds a DRAM address: bit 12. -/
def dramStack (a : Nat) : Nat := a / 4096 % 2

/-- Where the line of a set and way lies. -/
def dramLine (set way : Nat) : Nat := 4096 * (16 * set + way)

/-- Where a slot of the segment cache lies. -/
def dramSlot (i : Nat) : Nat := 0x400000000 + 32768 * i

/-- Where the tag of a set and way lies. -/
def dramTag (set way : Nat) : Nat := 0x7F0000000 + 8 * (16 * set + way)

/-! ### Metadata and side band (R241) -/

/-- The metadata word of a line (Table 7.4). -/
def Line.metaWord (l : Line) : Nat :=
  l.leaf % 2 ^ 34 * 2 ^ 30 + l.ctx.toNat * 2 ^ 18 + flag l.locked * 2 ^ 17 + flag l.wt * 2 ^ 16

/-- META of sector `i`: in sectors 16c + k, k below 4, slice k of the word. -/
def Line.metaSlice (l : Line) (i : Nat) : Nat := if i % 16 < 4 then bits l.metaWord (16 * (i % 16)) 16 else 0

/-- What a metadata word says. -/
def MetaCopy.ofWord (w : Nat) : MetaCopy :=
  { leaf := BitVec.ofNat 34 (bits w 30 34), ctx := BitVec.ofNat 12 (bits w 18 12), locked := bit w 17, wt := bit w 16 }

/-- Copy `c` of a line's metadata, from the slices in sectors 16c to 16c + 3. -/
def Line.storedCopy (l : Line) (c : Nat) : MetaCopy :=
  MetaCopy.ofWord (total ((List.range 4).map (fun k => l.metaSlice (16 * c + k) * 2 ^ (16 * k))))

/-- Side-band bytes 0 to 2 of sector `i` (Table 7.3). -/
def Line.sideBand (l : Line) (i : Nat) : List Byte :=
  le 2 (l.metaSlice i) ++ le 1 (flag (l.valid.getLsbD i) + 2 * flag (l.dirty.getLsbD i) + 4 * flag (l.poison.getLsbD i))

/-! ### The sector code (R244) -/

/-- Doubling in GF(2^8) with x^8 + x^4 + x^3 + x^2 + 1. -/
def gfDouble (a : Byte) : Byte := (a <<< 1) ^^^ (if a.getLsbD 7 then 0x1D#8 else 0#8)

/-- The product in GF(2^8). -/
def gfMul (a b : Byte) : Byte :=
  [7, 6, 5, 4, 3, 2, 1, 0].foldl (fun r i => gfDouble r ^^^ (if b.getLsbD i then a else 0#8)) 0#8

/-- A power of the root x. -/
def gfPow (n : Nat) : Byte := (List.range n).foldl (fun r _ => gfDouble r) 1#8

/-- The coefficients below the highest of the generator polynomial, highest first: five successive powers of x are its roots, from the one
that Config names (log 68). -/
def rsGenerator : List Byte :=
  ((List.range 5).foldl (fun g i =>
    let r := gfPow (Config.rsFirstRoot.toNat + i)
    List.zipWith (· ^^^ ·) (g ++ [0#8]) (0#8 :: g.map (gfMul r))) [1#8]).drop 1

/-- The five check bytes of 67 information bytes: the remainder by the generator. -/
def rsCheck (info : List Byte) : List Byte :=
  info.foldl (fun rem b =>
    let f := b ^^^ (rem.headD 0#8)
    List.zipWith (· ^^^ ·) (rem.drop 1 ++ [0#8]) (rsGenerator.map (gfMul f))) (List.replicate 5 0#8)

/-- A sector as stored: 64 data bytes, side-band bytes 0 to 2, and its code. -/
def codedSector (data side : List Byte) : List Byte := data ++ side ++ rsCheck (data ++ side)

/-- Sector `i` of a line as the DRAM holds it (R242): every change of its bytes or bits makes its code afresh. -/
def Line.sector (l : Line) (i : Nat) : List Byte := codedSector (Memory.readBytes 0 l.data (64 * i) 64) (l.sideBand i)

/-! ### What the DRAM holds -/

/-- An entry of the dirty list (R250). -/
def dirtyEntry (key leaf : Nat) : Nat :=
  let w := leaf % 2 ^ 34 + key / 16 * 2 ^ 34 + key % 16 * 2 ^ 52
  w + (Config.dirtyCheck w).toNat * 2 ^ 56

/-- The dirty list as the firmware working area holds it. -/
def State.dirtyEntries (s : State) : List Nat :=
  s.cache.dirtyList.filterMap (fun k => (Tab.find s.cache.lines k).map (fun l => dirtyEntry k l.leaf))

/-- The 72 bytes of the DRAM sector at an address, where the spec gives what stands there: lines, segment slots, tags and sample
entries. The layouts of the working area and of the staging areas are the firmware's own. -/
def State.dramSector (s : State) (a : Nat) : Option (List Byte) :=
  let plain := fun (bs : List Byte) => codedSector bs (zeros 3)
  match dramRegion a with
  | some .lines => (Tab.find s.cache.lines (a / 4096)).map (fun l => l.sector (a / 64 % 64))
  | some .segments =>
    let b := a - 0x400000000
    (Tab.find s.xlat.slots (b / 32768)).map (fun sl =>
      plain ((List.range 8).flatMap (fun i => le 8 (Tab.get sl.leaves (b % 32768 / 64 * 8 + i) LeafEntry.init).word)))
  | some .tags =>
    let k := (a - 0x7F0000000) / 64 * 8
    some (plain ((List.range 8).flatMap (fun i =>
      le 8 (match Tab.find s.cache.lines (k + i) with | some l => l.tagWord | none => 0))))
  | some .samples => (Tab.find s.obs.ring ((a - 0x7E0000000) / 64)).map plain
  | _ => none

end Sys2Proof.Machine
end

