-- ==== Sys2Proof/Machine/CacheEngine.lean ====
section
/-! DEFINITION. The write-back engine, tag rebuilds, the range engine and the cache's enable and disable (R246-R259). -/

namespace Sys2Proof.Machine

/-! ### Write-back (R251) -/

/-- Whether a line of the dirty list may begin a write-back: none holds it yet, and it is not a locked line with POISON, which the triggers of R251 skip (R248).
In a cinch and on the clean shutdown path such a line is taken too and dropped with the others that carry POISON (Table 7.8 step 5). -/
def State.mayWriteBack (s : State) (k : Nat) : Bool :=
  match Tab.find s.cache.lines k with
  | some l => l.isDirty && !l.wbBusy && !(l.locked && l.poisoned && s.dev.state != .cinch && s.power.shutdown == .none)
      && !s.tacks.any (fun e => e.2.op == .leafWriteback && e.2.leaf.toNat == l.leaf && e.2.wait != .switch)
  | none => false

/-- Whether the level calls for the head of the dirty list. -/
def State.levelDue (s : State) : Bool := decide (s.wbStart * (s.cache.ceiling * linesPerMib) ≤ 100 * s.dirtyLines)

/-- The line whose age has passed WB_AGE_MS: the head of the dirty list, locked lines with POISON skipped (R248, R251). -/
def State.agedLine (s : State) : Option Nat :=
  if !s.cache.ageDue then none
  else s.cache.dirtyList.find? (fun k => match Tab.find s.cache.lines k with | some l => !(l.locked && l.poisoned) | none => false)

/-- The line the write-back engine takes: in CINCH and on the clean shutdown path the list in order; else one that is write-through or named, or the head when
it is due (R251, Table 7.8). -/
def State.nextWriteback (s : State) : Option Nat :=
  let ks := s.cache.dirtyList.filter s.mayWriteBack
  if s.dev.state = .cinch ∨ s.power.shutdown ≠ .none then ks.head?
  else
    match ks.find? (fun k => match Tab.find s.cache.lines k with | some l => s.actsWt l.wt || l.named | none => false) with
    | some k => some k
    | none => if s.levelDue then ks.head? else s.agedLine.filter s.mayWriteBack

/-- Gives birth to the write-back of a line. -/
def State.startWriteback (s : State) (k : Nat) : State :=
  match Tab.find s.cache.lines k with
  | none => s
  | some l =>
    let t := (Tack.of .leafWriteback (.engine engWriteback) 3 l.leaf).withCtx (s.ctx l.ctx.toNat)
    match s.birth { t with wait := .leaf } none with
    | (s', some j) =>
      let due := s'.cache.ageDue && s.agedLine != some k
      (s'.setCache { s'.cache with ageDue := due }).tryWriteback j
    | (_, none) => s

/-- WRITEBACK_START. -/
def execWritebackStart (s : State) : Host.Outcome State Fault Refusal :=
  match (if s.mapUp then s.nextWriteback else none) with
  | some k => s.done (s.startWriteback k).advance
  | none => s.done s

/-- WB_AGE_EXPIRY: the head has been dirty for WB_AGE_MS. -/
def execWbAgeExpiry (s : State) : Host.Outcome State Fault Refusal :=
  s.done (if s.cache.dirtyList.isEmpty then s else s.setCache { s.cache with ageDue := true })

/-- ALLOCATION_RETRY: allocations that wait take their way, or choose again (R254). -/
def execAllocationRetry (s : State) : Host.Outcome State Fault Refusal := s.done s.advance

/-! ### Tag rebuilds (R246, R247) -/

/-- The first of the four metadata copies whose sectors decode (R246 step 1). -/
def Line.firstCopy (l : Line) (copies : List CopyRead) : Option MetaCopy :=
  copies.zipIdx.findSome? (fun c => match c.1 with | .stored => some (l.storedCopy c.2) | .other m => some m | .lost => none)

/-- TAG_REBUILD: a tag parity error in a way (R246, R247). The rebuild reads all 64 sectors, and meets those that the code cannot
correct. -/
def execTagRebuild (set : BitVec 18) (way : Fin 16) (copies : List CopyRead) (s : State) : Host.Outcome State Fault Refusal :=
  let k := set.toNat * 16 + way.val
  if !s.powered then s.done s
  else
    let s' := (s.bump rCacheTagPar 0 32 1).aer .corrected []
    match Tab.find s.cache.lines k with
    | none => s.done s'
    | some l =>
      match ((l.firstCopy copies).filter (fun m => setOf m.leaf.toNat == set.toNat)) with
      | some m =>
        let s' := s'.setLine k { l with leaf := m.leaf.toNat, ctx := m.ctx, locked := m.locked, wt := m.wt }
        s.done (s'.meetBad m.leaf.toNat (BitVec.allOnes 64) 0xFFFF).1.advance
      | none =>
        let dirty := s.cache.dirtyList.contains k
        let s' := s'.dropLine k
        let s' := if dirty then (s'.voidWritebacks l.leaf 1).poisonLeaf l.leaf 4 else s'
        s.done (((s'.bump rCacheLost 0 32 1).event portCache 0x0702 s.devicePath (le 4 set.toNat ++ le 1 way.val ++ le 1 (flag dirty))).advance)

/-! ### The range engine (R256, R257) -/

/-- Gives birth to the engine's tack of a leaf, which takes it at once or waits for it: a PREFETCH for LOCK (`owner` 1) and PREFETCH, else
a tack that touches the line only. -/
def State.birthRange (s : State) (r : RangeOp) : State :=
  let t := Tack.of (if r.op = 3 ∨ r.op = 5 then .prefetch else .lineOp) (.engine engRange) 3 r.next
  match s.birth { t with wait := .leaf, owner := some (if r.op = 3 then 1 else 0) } none with
  | (s, some k) => s.tryRange k
  | (s, none) => s

/-- RANGE_ENGINE_LEAF: the engine gives birth to the tack of its operation's next leaf, unless the one before has still to take its. -/
def execRangeEngineLeaf (s : State) : Host.Outcome State Fault Refusal :=
  match s.cache.rng with
  | none => s.done s
  | some r =>
    if !s.mapUp || s.dev.state == .cinch || decide (r.last < r.next) || s.tacks.any (fun e => s.rangeUntaken e.2) then s.done s
    else s.done (s.birthRange r).advance

/-- Starts a checked operation, or lets it wait behind the one that runs (R256). -/
def State.submitRange (s : State) (r : RangeOp) : State :=
  (s.setCache { s.cache with rngQueue := s.cache.rngQueue ++ [r] }).nextRange (s.cache.rngQueue.length + 2)

/-- A new operation over `n` leaves. -/
def RangeOp.start (op ctx first n : Nat) (incl : Bool) (cmd : Option Nat) : RangeOp :=
  { op := op, ctx := BitVec.ofNat 12 ctx, next := first, last := first + n - 1, includeLocked := incl, leaves := 0, written := 0
    skipped := 0, lockFull := 0, dropped := 0, cmd := cmd }

/-- The first check of R257. -/
def rangeFieldsOk (op first n : Nat) : Bool := decide (op ≤ 5) && decide (n ≠ 0) && decide (first + n ≤ 2 ^ 34)

/-- The write of CACHE_RNG_CTRL (Table 7.14, R256, R257). -/
def State.writeRngCtrl (s : State) (v : Nat) : State :=
  if s.cache.rng.isSome then s.setBit rRngStatus 30
  else
    let s := s.setReg rRngCtrl (v % 8 + bits v 8 1 * 256 + bits v 16 12 * 65536)
    if !bit v 31 then s
    else if s.cache.disableWaits || s.cache.draining then s.setBit rRngStatus 30
    else
      let op := v % 8
      let ctx := bits v 16 12
      let first := (s.reg (rRngAddr + 4) % 2 ^ 14 * 2 ^ 32 + s.reg rRngAddr) / 4096
      let n := s.reg (rRngCount + 4) % 8 * 2 ^ 32 + s.reg rRngCount
      if rangeFieldsOk op first n && s.mapUp && s.dev.state != .cinch && s.rangeStateOk op && s.bindsRun ctx first n then
        s.submitRange (RangeOp.start op ctx first n (bit v 8) none)
      else s.setBit rRngStatus 29

/-- A register start of one operation. -/
def rngStart (op : Nat) (v : Word) : Nat := setBits (setBits v.toNat 0 3 op) 31 1 1

def execRangeGoClean (v : Word) (s : State) : Host.Outcome State Fault Refusal := s.done (if s.barOpen then s.writeRngCtrl (rngStart 0 v) else s)
def execRangeGoInvalidate (v : Word) (s : State) : Host.Outcome State Fault Refusal := s.done (if s.barOpen then s.writeRngCtrl (rngStart 1 v) else s)
def execRangeGoDiscard (v : Word) (s : State) : Host.Outcome State Fault Refusal := s.done (if s.barOpen then s.writeRngCtrl (rngStart 2 v) else s)
def execRangeGoLock (v : Word) (s : State) : Host.Outcome State Fault Refusal := s.done (if s.barOpen then s.writeRngCtrl (rngStart 3 v) else s)
def execRangeGoUnlock (v : Word) (s : State) : Host.Outcome State Fault Refusal := s.done (if s.barOpen then s.writeRngCtrl (rngStart 4 v) else s)
def execRangeGoPrefetch (v : Word) (s : State) : Host.Outcome State Fault Refusal := s.done (if s.barOpen then s.writeRngCtrl (rngStart 5 v) else s)

/-! ### Enable and disable (R258, R259) -/

/-- CACHE_DISABLE: waits for the engine, then drains. One that finds the cache disabled changes nothing. -/
def State.disableCache (s : State) : State :=
  if s.cache.draining || s.cache.disableWaits || !s.cache.enabled then s
  else if s.cache.rng.isSome then s.setCache { s.cache with disableWaits := true }
  else s.startDrain.advance

/-- CACHE_ENABLE; during a drain it changes nothing. -/
def State.enableCache (s : State) : State :=
  if s.cache.draining then s else s.setCache { s.cache with enabled := true }

/-- The write of CACHE_CTRL (Table 7.12): its two actions in SERVING and MAINTENANCE. -/
def State.writeCacheCtrl (s : State) (v : Nat) : State :=
  let s := s.setReg rCacheCtrl (v % 4)
  let ok := s.dev.state == .serving || s.dev.state == .maintenance
  let s := if bit v 4 && ok then s.disableCache else s
  if bit v 5 && ok then s.enableCache else s

def execCacheCtrlEnable (v : Word) (s : State) : Host.Outcome State Fault Refusal := s.done (if s.barOpen then s.writeCacheCtrl v.toNat else s)
def execCacheCtrlDisable (v : Word) (s : State) : Host.Outcome State Fault Refusal := s.done (if s.barOpen then s.writeCacheCtrl v.toNat else s)

/-- CACHE_DRAIN_DONE: the last line of a drain has been invalidated (R258 step 5); operations that waited go on. -/
def execCacheDrainDone (s : State) : Host.Outcome State Fault Refusal :=
  let s' := s.advance
  s.done (if s'.cache.draining && s'.cache.lines.isEmpty then
      (s'.setCache { s'.cache with draining := false }).nextRange (s'.cache.rngQueue.length + 1)
    else s')

end Sys2Proof.Machine
end

