-- ==== Sys2Proof/Machine/Harness.lean ====
section
/-! DEFINITION. Harnesses: the join, pushes, the leader's mailbox and its level-4 record, and the harness commands (R314-R321). -/

namespace Sys2Proof.Machine

def State.setHarness (s : State) (h : Harness) : State := { s with harness := h }
def Harness.member (h : Harness) : Bool := h.role.getLsbD 0
def Harness.leader (h : Harness) : Bool := h.role.getLsbD 1

/-- A slot that no valid record has reached. -/
def MemberSlot.init : MemberSlot := { cls := .empty, seq := 0, same := 0, record := [], accepted := 0 }

/-! ### The stored join (R316) -/

/-- The payload of the join's record; its layout is the model's (log 25). -/
def Harness.joinBytes (h : Harness) (unit : Nat) : List Byte := le 2 unit ++ le 1 h.role.toNat ++ zeros 5 ++ le 8 h.parent.toNat ++ le 8 h.mailbox

/-- The stored join takes effect at an entry to SERVING (R316). -/
def State.rejoin (s : State) : State :=
  match s.store.record recHarnessJoin with
  | some b =>
    s.setHarness { s.harness with role := BitVec.ofNat 2 (recField b 2 1), parent := BitVec.ofNat 64 (recField b 8 8), mailbox := recField b 16 8 }
  | none => s

/-! ### Bytes of the memory window -/

/-- The bytes of a leaf as the device itself reads them: the line's sectors, else the version below (R164, R243). -/
def State.leafBytes (s : State) (leaf : Nat) : Nat → Byte :=
  let e := s.leafNow leaf
  let c := s.ctx (s.entry (granuleOf leaf)).ctx.toNat
  let below : Nat → Byte := if e.st = .mapped then s.mediaBytes e.addr else fun _ => unmappedByte e.st c.zeroOnUnmap
  match s.lineAt leaf with
  | some (_, l) => fun i => if l.valid.getLsbD (i / 64) then Memory.read 0 l.data i else below i
  | none => below

/-- `n` bytes of the memory window from a host byte address inside one leaf. -/
def State.windowBytes (s : State) (addr n : Nat) : List Byte :=
  let f := s.leafBytes (addr / 4096)
  (List.range n).map (fun i => f (addr % 4096 + i))

/-- A write of the device's own into its memory window, as an ordinary write (R316). -/
def State.ownWrite (s : State) (addr : Nat) (bs : List Byte) : State :=
  s.enqueue { write := true, addr := BitVec.ofNat 46 addr, len := bs.length, tag := 0, data := bs, poison := false, cxl := false, ev := AccessEv.none
              posted := false }

/-! ### The leader's read (R319, Tables 9.6, 9.7) -/

/-- A slot's record is valid: FORMAT 0x01, its CRC, and the path of its member or of level 4. -/
def slotValid (m : Nat) (b : List Byte) : Bool :=
  let path := recField b 0 4
  recField b 5 1 == 1 && recField b 0xFC 4 == crc32c (b.take 0xFC)
    && ((bits path 24 8 == 3 && bits path 10 14 == m && bits path 0 10 == 0) || path == 0x04000000)

/-- The class of a slot from its bytes, its notice and what the leader knew (Table 9.7, first row that holds). -/
def MemberSlot.judge (x : MemberSlot) (m lost now : Nat) (b : List Byte) (notice : Nat) : MemberSlot :=
  if recField b 5 1 = 0 ∨ notice / 2 ^ 30 = 2 then MemberSlot.init
  else if !slotValid m b then x
  else
    let seq := recField b 0xF0 8
    if x.cls = SlotClass.empty ∨ x.seq ≠ seq then { cls := .present, seq := seq, same := 0, record := b, accepted := now }
    else
      let same := Nat.min lost (x.same + 1)
      { x with same := same, cls := if same < lost then .present else if notice / 2 ^ 30 = 1 then .dark else .lost }

/-- Slots that may hold a record: those already known, and those whose leaf of the mailbox has content. -/
def State.slotsToRead (s : State) : List Nat :=
  let base := s.harness.mailbox / 4096
  let touched := (s.cache.lines.map (fun e => e.2.leaf)) ++ ((s.mapEntries.filter (fun e => e.2.st != .unmapped)).map (fun e => e.1))
  let leaves := (touched.filter (fun l => decide (base ≤ l) && decide (l < base + 1024))).dedup
  let ms := (s.harness.slots.map (fun e => e.1)) ++ leaves.flatMap (fun l => (List.range 16).map (fun i => (l - base) * 16 + i))
  (sortBy (fun (a b : Nat) => decide (a < b)) ms.dedup).filter (fun m => m != s.dev.unitId.toNat)

/-- Reads one slot; a slot that becomes Lost is logged. -/
def State.readSlot (s : State) (m : Nat) : State :=
  let h := s.harness
  let x := Tab.get h.slots m MemberSlot.init
  let y := x.judge m s.harnessLost s.store.opSeconds (s.windowBytes (h.mailbox + 256 * m) 256) (ofLe (s.windowBytes (h.mailbox + 0x400000 + 4 * m) 4))
  let slots := if y.cls = SlotClass.empty then Tab.del h.slots m else Tab.put h.slots m y
  let s := s.setHarness { h with slots := slots }
  if y.cls = SlotClass.lost ∧ x.cls ≠ SlotClass.lost then s.event portCore 0x0903 s.devicePath (le 2 m) else s

/-- The leader reads its mailbox. -/
def State.leaderRead (s : State) : State := s.slotsToRead.foldl State.readSlot s

/-- What a slot contributes (Table 9.7). Wall and operating seconds advance together while the device runs (log 42). -/
def MemberSlot.contribution (x : MemberSlot) (now : Nat) : Option HRec :=
  match x.cls with
  | .empty => none
  | .lost => some (HRec.offline hFault (recField x.record 8 4))
  | _ =>
    let h := HRec.ofBytes x.record
    let d := now - x.accepted
    some { h with recordAge := (h.recordAge.1 + d, h.recordAge.2 + d) }

/-- The level-4 record. -/
def State.harnessRec (s : State) : HRec :=
  HRec.aggregate (s.unitRec 3 0 :: s.harness.slots.filterMap (fun e => e.2.contribution s.store.opSeconds))

abbrev harnessPath : Nat := 0x04000000

/-- A leader forms its level-4 record. -/
def State.formHarness (s : State) : State × List Byte := s.formRecord 4 0 harnessPath s.harnessRec

/-- The leaves of the mailbox that the leader reads, of records and of notices. -/
def State.mailboxLeaves (s : State) : List Nat :=
  let box := s.harness.mailbox
  (s.slotsToRead.flatMap (fun m => [leafOf (box + 256 * m), leafOf (box + 0x400000 + 4 * m)])).dedup

/-- The reads of the medium that a leader's read needs: leaves MAPPED whose line does not stand whole in the cache. They draw as DIA, and serve
the command of `owner` if there is one (R319, R491). -/
def State.mailboxReads (s : State) (owner : Option Nat) : List Tack :=
  s.mailboxLeaves.filterMap (fun l =>
    let e := s.leafNow l
    let held := match s.lineAt l with | some (_, x) => x.full | none => false
    if e.st = .mapped ∧ held = false then some { (Tack.engine .diagRead engDiag l false).reads e.addr with owner := owner } else none)

/-- Whether a read of the mailbox still waits for the medium. -/
def State.mailboxBusy (s : State) : Bool := (s.tacks.map (fun e => e.2) ++ s.unborn).any (fun t => t.op == .diagRead)

/-- The reads of the mailbox have ended: its slots are classed, the record is formed, and commands that waited for it take it. -/
def State.leaderEnds (s : State) : State :=
  let (s, b) := (s.setHarness { s.harness with reading := false }).leaderRead.formHarness
  (s.cmdq.cmds.filter (fun c => c.step == CmdStep.leader)).foldl (fun s c => s.answer c b) s

/-- The leader begins to read its mailbox; with nothing to read from the medium the read ends at once. -/
def State.leaderBegins (s : State) (owner : Option Nat) : State :=
  match s.mailboxReads owner with
  | [] => s.leaderEnds
  | ts => ts.foldl (fun s t => (s.ask t).1) (s.setHarness { s.harness with reading := true })

/-- HARNESS_LEADER_READ at each HARNESS_PERIOD: a read begins, or one whose reads of the medium have ended is taken. -/
def execHarnessLeaderRead (s : State) : Host.Outcome State Fault Refusal :=
  let up := s.dev.state == .serving || s.dev.state == .maintenance
  s.done (if s.harness.reading then (if s.mailboxBusy then s else s.leaderEnds)
    else if up && s.harness.leader && !s.harness.mailboxLost && s.engines then s.leaderBegins none else s)

/-! ### Pushes (R317, R318) -/

/-- Notices of Table 9.6. -/
def noticeDark (m : Nat) : Nat := 2 ^ 30 + m
def noticeLeft (m : Nat) : Nat := 2 ^ 31 + m

/-- Where a member writes in its parent's mailbox. -/
def State.parentAt (s : State) (off : Nat) : Nat := s.harness.parent.toNat + off
def State.slotAt (s : State) : Nat := s.parentAt (256 * s.dev.unitId.toNat)
def State.noticeAt (s : State) : Nat := s.parentAt (0x400000 + 4 * s.dev.unitId.toNat)

/-- Commands that wait for a push complete (R316). -/
def State.endPushCommands (s : State) : State :=
  s.cmdq.cmds.foldl (fun s c => if c.step == CmdStep.push then s.finish c stSuccess 0 none else s) s

/-- A push failed (R317). -/
def State.pushFailed (s : State) : State :=
  let n := s.harness.pushFails + 1
  let s := s.setHarness { s.harness with pushFails := n, pushing := none }
  let s := if s.harnessLost ≤ n then (s.setHarness { s.harness with leaderLost := true }).event portCore 0x0902 s.devicePath (le 4 n) else s
  s.endPushCommands

/-- Steps 1 to 3 of a push; with Bus Master Enable clear it fails at once. -/
def State.startPush (s : State) : State :=
  if !s.host.busMaster then s.pushFailed
  else
    let (s, b) := if s.harness.leader then s.formHarness else s.formRecord 3 0 s.devicePath (s.unitRec 3 0)
    let s := (s.emit (.hostWrite s.slotAt b)).emit (.hostWrite s.noticeAt (le 4 s.dev.unitId.toNat))
    s.setHarness { s.harness with pushing := some (recField b 0xF0 8) }

/-- Step 4: the read-back of SEQUENCE. -/
def State.pushRead (s : State) (r : HostRead) : State :=
  match s.harness.pushing, r with
  | none, _ => s
  | some n, .bytes b =>
    if b.length = 8 ∧ ofLe b = n then
      (s.setHarness { s.harness with pushing := none, pushFails := 0, leaderLost := false, pushes := s.harness.pushes + 1
                                     lastPush := s.store.opSeconds }).endPushCommands
    else s.pushFailed
  | some _, .failed => s.pushFailed

/-- HARNESS_PUSH at each HARNESS_PERIOD and after a change of STATE. -/
def execHarnessPush (s : State) : Host.Outcome State Fault Refusal :=
  let up := s.dev.state == .serving || s.dev.state == .maintenance
  s.done (if up && s.harness.member && s.harness.pushing.isNone && !s.harness.silent && s.engines then s.startPush else s)

/-- HARNESS_PUSH_READBACK. -/
def execHarnessPushReadback (r : HostRead) (s : State) : Host.Outcome State Fault Refusal := s.done (s.pushRead r)

/-! ### Commands -/

/-- Whether a granule of the memory window takes the device's own writes (R302, R308, R316). -/
def State.mailboxOk (s : State) (addr : Nat) : Bool :=
  let e := s.entry (addr / 2 ^ 24)
  e.bound && !(s.ctx e.ctx.toNat).refuses

/-- HARNESS_JOIN (R316): the fields are stored and taken; a MEMBER's command waits for its first push. -/
def execHarnessJoin (port : Port) (pkt : Packet) (s : State) : Host.Outcome State Fault Refusal :=
  s.done (s.run 0x90 port pkt (fun s c =>
    let role := pkt.u 0x1A 1
    let box := pkt.u 0x28 8
    if bit role 1 && !s.mailboxOk box then s.fail c stRange
    else
      let id := pkt.u 0x18 2
      let h : Harness := { s.harness with role := BitVec.ofNat 2 role, parent := BitVec.ofNat 64 (pkt.u 0x20 8), mailbox := box, leaderLost := false
                                          mailboxLost := false, pushFails := 0, pushing := none, slots := [] }
      let s := { s with dev := { s.dev with unitId := BitVec.ofNat 14 id }, harness := h }
      let s := (s.save recUnitId (le 8 id)).save recHarnessJoin (h.joinBytes id)
      if bit role 0 then (s.await c .push).startPush else s.ok c))

/-- HARNESS_LEAVE (R318). With MEMBER_VALID it clears a member's slot in the leader's own mailbox; on a device that leads no harness
it ends like a level-4 GET_HEALTH there (log 43). -/
def execHarnessLeave (port : Port) (pkt : Packet) (s : State) : Host.Outcome State Fault Refusal :=
  s.done (s.run 0x91 port pkt (fun s c =>
    let m := pkt.u 0x18 2
    let h := s.harness
    if bit (pkt.u 0x1A 1) 0 then
      if !h.leader || h.mailboxLost || !s.mailboxOk h.mailbox then s.fail c stRange
      else ((s.ownWrite (h.mailbox + 256 * m) (zeros 256)).ownWrite (h.mailbox + 0x400000 + 4 * m) (le 4 (noticeLeft m))).ok c
    else
      let s := if h.member && s.host.busMaster then (s.emit (.hostWrite s.slotAt (zeros 256))).emit (.hostWrite s.noticeAt (le 4 (noticeLeft s.dev.unitId.toNat)))
        else s
      let s := s.setHarness { Harness.reset with pushes := h.pushes, lastPush := h.lastPush }
      ((s.erase [recHarnessJoin]).endPushCommands).ok c))

/-- Slots of a class at the last leader read. -/
def Harness.countOf (h : Harness) (k : SlotClass) : Nat := (h.slots.filter (fun e => e.2.cls == k)).length

/-- HARNESS_QUERY (Table 9.9). -/
def execHarnessQuery (port : Port) (pkt : Packet) (s : State) : Host.Outcome State Fault Refusal :=
  s.done (s.run 0x92 port pkt (fun s c =>
    let h := s.harness
    s.answer c (le 2 s.dev.unitId.toNat ++ le 1 h.role.toNat ++ le 1 (flag h.leaderLost + 2 * flag h.mailboxLost + 4 * flag (!s.host.busMaster))
      ++ le 4 h.pushFails ++ le 8 h.parent.toNat ++ le 8 h.mailbox ++ le 4 h.pushes ++ le 4 h.lastPush ++ le 4 (h.countOf .present)
      ++ le 4 (h.countOf .dark) ++ le 4 (h.countOf .lost) ++ zeros 12)))

/-- GET_HEALTH (R27, R315): the record of the unit; at level 4 the leader reads its mailbox first (R319). -/
def execGetHealth (port : Port) (pkt : Packet) (s : State) : Host.Outcome State Fault Refusal :=
  s.done (s.run 0x03 port pkt (fun s c =>
    let path := pkt.u 0x08 4
    let (level, first, _) := unitOf path
    if level = 4 then
      if !s.harness.leader || s.harness.mailboxLost then s.fail c stRange
      else
        if s.power.shutdown ≠ .none then
          let (s, b) := s.formHarness
          s.answer c b
        else if s.harness.reading then s.await c .leader
        else (s.await c .leader).leaderBegins (some c.id)
    else
      let (s, b) := s.formRecord level first path (s.unitRec level first)
      s.answer c b))

end Sys2Proof.Machine
end

