-- ==== Sys2Proof/Machine/Boot.lean ====
section
/-! DEFINITION. Boot attempts, the medium profile, activation, the choice of a welt, brand assessment, replay and the entry to SERVING
(R112, R122-R132, R174, R195-R197, R377, R387-R390, R465-R467). -/

namespace Sys2Proof.Machine

def State.setBoot (s : State) (b : Boot) : State := { s with boot := b }

/-! ### The medium profile (R389, R467, Table 4.2) -/

/-- VERSION of the profile part of a slot's image. -/
def State.slotProfile (s : State) (slot : Nat) : Nat :=
  match s.slotHeader slot with
  | some h => ((profilePart h).map (fun x => x.1)).getD 0
  | none => Config.factoryProfile.toNat

/-- The scalars of a profile version. -/
def profileOf (v : Nat) : Profile :=
  let f := fun (i w : Nat) => (Config.profileScalar v i).toNat % 2 ^ w
  { version := v, factors := (List.range 6).map (fun i => f i 24), edges := (List.range 3).map (fun i => f (6 + i) 11)
    delta5 := f 9 6, delta6 := f 10 6, ofsLimit := f 11 6, refreshAge := f 12 32, readLimit := f 13 32 }

/-- The profile of a slot comes into force, with the DRIFT registers that it loads. -/
def State.loadProfile (s : State) (slot : Nat) : State :=
  let p := profileOf (s.slotProfile slot)
  let s := { s with drift := { s.drift with profile := p, profileLoaded := true } }
  ((s.setReg rDriftRefreshAge p.refreshAge).setReg rDriftTune (p.ofsLimit * 65536 + p.delta6 * 256 + p.delta5)).limitOffsets

/-! ### Boot attempts (R388) -/

/-- The command whose activation runs. -/
def State.activator (s : State) : Option Cmd := s.cmdq.cmds.find? (fun c => c.step == CmdStep.activate && s.img.st != StageSt.staged)

/-- Whether the boot loader may begin: each boot position READY or out of service (Table 12.1, step 6). -/
def State.bootReady (s : State) : Bool :=
  [0, 24, 48, 72].all (fun ch => match (s.chan ch).st with | .off | .ready | .retraining | .offline | .fault => true | _ => false)

/-- Whether a slot's image can be read from some position. -/
def State.bootable (s : State) (slot : Nat) : Bool :=
  match Tab.find s.img.slots slot with
  | some x => x.copies &&& s.onlinePositions != 0
  | none => slot == 0 && s.onlinePositions != 0

/-- Step 3 of an activation: the slot pointer names the staged slot as a trial; once (Table 16.6). -/
def State.pointTrial (s : State) : State :=
  match s.activator with
  | none => s
  | some c =>
    if c.done ≠ 0 then s
    else
      let old := s.slotPtr.active
      (s.setSlotPtr { active := s.img.slot, previous := old, trial := true, attempts := 0 }).updCmd c.id (fun x => { x with done := 1 })

/-- The start of an attempt: the pointer, and the slot that is booted; none when no slot is left to try. -/
def State.beginAttempt (s : State) : State × Option Nat :=
  let p := s.slotPtr
  let (s, p) := if p.trial ∧ p.attempts = 3 then
      let q : SlotPtr := { active := p.previous, previous := 0xFF, trial := false, attempts := 0 }
      ((s.setSlotPtr q).event portBoot 0x0A06 s.devicePath (le 1 p.active ++ le 1 p.attempts), q)
    else (s, p)
  if !p.trial && p.attempts == 3 then
    if p.previous ≠ 0xFF ∧ s.boot.triedPrevious = false then (s.setBoot { s.boot with triedPrevious := true }, some p.previous)
    else (s, none)
  else (s.setSlotPtr { p with attempts := p.attempts + 1 }, some p.active)

/-- A copy of a slot that fails its digest is logged, and is renewed once SERVING is reached (R389). -/
def State.copyBad (s : State) (slot : Nat) (x : BadPart) : State :=
  let block := if x.profile then (s.profileAt x.pos).1 else (s.copyAt slot x.pos).1
  let db := dbKey (bootDie x.pos) block
  let s := s.event portBoot 0x0A07 s.devicePath (le 1 x.pos ++ [x.part])
  let s := s.setImg { s.img with badCopies := s.img.badCopies.filter (fun y => y != db) ++ [db] }
  if s.mounted then s.queueCopy db else s

/-- BOOT_ATTEMPT: the boot loader starts an attempt with what its reads of the parts give. In an activation the open journal page commits
first (Table 16.6, step 2). -/
def State.bootAttempt (s : State) (parts : BootParts) : State :=
  let mounting := s.dev.state == .mounting
  if s.boot.step ≠ .boot ∨ !(mounting || s.mounted) ∨ s.dev.state = .cinch ∨ (mounting && !s.bootReady) then s
  else if !mounting && !s.journalDone then s.closePage
  else
    match s.pointTrial.beginAttempt with
    | (s, none) => s.softFault causeBoot
    | (s, some slot) =>
      let s := parts.bad.foldl (fun s x => s.copyBad slot x) s
      if parts.ok && s.bootable slot then (s.loadProfile slot).setBoot { s.boot with step := .attempt, slot := slot } else s

def execBootAttempt (parts : BootParts) (s : State) : Host.Outcome State Fault Refusal := s.done (s.bootAttempt parts)

/-- BOOT_ATTEMPT_TIMEOUT: the cores reset and the boot loader starts again at once. -/
def execBootAttemptTimeout (s : State) : Host.Outcome State Fault Refusal :=
  s.done (if s.boot.step = .attempt then s.setBoot { s.boot with step := .boot } else s)

/-! ### What the store restores (Table 12.1, step 7) -/

/-- Record IDs of a range that the store holds. -/
def Store.idsIn (st : Store) (lo hi : Nat) : List Nat :=
  (st.copies.map (fun e => e.1 / 2)).dedup.filter (fun i => decide (lo ≤ i) && decide (i < hi) && (st.record i).isSome)

/-- Contexts from their records (R299). -/
def State.restoreCtxs (s : State) : State :=
  (s.store.idsIn recCtx0 (recCtx0 + 4096)).foldl (fun s i =>
    match s.store.record i with
    | some b => (s.checkTie i).setCtx (i - recCtx0) (Ctx.ofBytes b)
    | none => s) s

/-- The directory's spare lines from record 0x0011. -/
def State.restoreSpares (s : State) : State :=
  match s.store.record recDirRemap with
  | none => s
  | some b =>
    let sp := (List.range 8).filterMap (fun n =>
      let v := recField b (8 * n) 8
      if bit v 31 then some (n, ({ line := some (v % 2 ^ 19), bad := bit v 30 } : Spare))
      else if bit v 30 then some (n, ({ line := none, bad := true } : Spare)) else none)
    s.setXlat { s.xlat with spares := sp, remapFull := decide (8 ≤ sp.length) }

/-- READ_ONLY from record 0x000B (R231). -/
def State.restoreSpace (s : State) : State :=
  { s with dev := { s.dev with readOnly := (s.recordNat recSpaceState).getD 0 == 1 } }

/-- At mount an inactive slot that its boot records name while PREVIOUS is none is STAGED again, once its header passes (R463). -/
def State.restoreStaged (s : State) : State :=
  let slot := s.stagingSlot
  match Tab.find s.img.slots slot with
  | some x =>
    if s.slotPtr.previous = 0xFF ∧ x.copies ≠ 0 ∧ (s.headerReason x.header).isNone = true then
      s.setImg { s.img with st := .staged, slot := slot, received := x.len, header := x.header, writing := x.copies }
    else s
  | none => s

/-- The end of an activation (Table 16.6, step 7; R466). -/
def State.endActivation (s : State) : State :=
  match s.activator with
  | none => s
  | some c =>
    let won := s.boot.slot == s.img.slot
    let i := s.img
    let s := s.endPause
    let s := s.setCmdq { s.cmdq with stopped := none }
    if won then
      let s := s.setImg { i.empty with lastActivation := 1 }
      (s.event portBoot 0x0A08 s.devicePath (le 1 s.boot.slot ++ le 8 (s.slotVersion s.boot.slot))).finish c stSuccess 0 none
    else
      (s.setImg { i.empty with reason := subStart, lastActivation := 2 }).finish c stImage subStart none

/-- BOOT_READY: every part is accepted and the firmware is ready. -/
def State.bootSucceeds (s : State) : State :=
  if s.boot.step ≠ .attempt then s
  else
    let s := s.setSlotPtr { s.slotPtr with trial := false, attempts := 0 }
    let s := { s with therm := { s.therm with accepted := true }, boot := { s.boot with triedPrevious := false } }
    if s.dev.state = .mounting then
      s.restoreCtxs.restoreSpares.restoreSpace.restoreStaged.setBoot { s.boot with step := .ready }
    else (s.setBoot { s.boot with step := .replayed }).endActivation.followProfile.advance

def execBootReady (s : State) : Host.Outcome State Fault Refusal := s.done s.bootSucceeds

/-- ACTIVATION_PAUSE_LIMIT: the pause ends 600 ms after it began; until an attempt succeeds requests are answered as in MOUNTING. -/
def execActivationPauseLimit (s : State) : Host.Outcome State Fault Refusal :=
  s.done (if s.cache.pause then
      (s.endPause.setImg (if s.img.st = .activating then s.img.empty else s.img)).advance
    else s)

/-! ### The entry to SERVING (R174, R196 step 7) -/

/-- The contexts left with SWEEP resume at step 6 of the crypto-erase, as background work: a key command that posts no completion
(R313). -/
def State.resumeSweeps (s : State) : State :=
  ((s.ctxs.filter (fun e => e.2.sweep)).map (fun e => e.1)).foldl (fun s n =>
    let c : Cmd := { id := s.cmdq.nextId, port := .svc, pkt := BitVec.ofNat 512 (0x15 + n * 2 ^ 32), posts := false, step := .poison (s.granulesOf n)
                     done := 0, holed := 0, code := stSuccess }
    s.setCmdq { s.cmdq with cmds := s.cmdq.cmds ++ [c], nextId := s.cmdq.nextId + 1 }) s

/-- The salvage of units that faulted before goes on: their stitched members are forced again (R228). -/
def State.resumeSalvage (s : State) : State :=
  (s.blocks.leaving.foldl (fun s u => ((s.dataBlocks u.first u.count).filter (fun db => (s.memberOf db).isSome)).foldl (fun s db => s.force db) s) s).endUnits

/-- Online dies. -/
def State.onlineDies (s : State) : List Nat := (s.ctl.filter (fun e => e.2.online)).map (fun e => e.1)

/-- Pass 2 is complete: BRAND_ASSESSING clears, the figures of R132 are set, and a bank measurement that waited begins (R366). -/
def State.endPass2 (s : State) : State :=
  if s.drift.dies.any (fun e => e.2.provisional) then s
  else
    let us := (s.onlineDies.filter (fun k => (s.age k).readable)).map (fun k => (s.age k).uApplied / 256)
    let low := match us with | [] => 0 | u :: r => r.foldl Nat.min u
    let s := { s with drift := { s.drift with assessing := false, brandMedian := median us, brandSpread := maximum us - low } }
    if s.power.measDue then (s.setPower { s.power with measDue := false }).startMeasure else s

/-- Every directory line is written and the device enters SERVING, where BRAND_ASSESSING sets and pass 2 starts; with no die
provisional it is complete at once (R130; log 59). -/
def State.enterServing (s : State) : State :=
  let s := s.setXlat { s.xlat with dirUp := true, badLines := [], errs := [] }
  let s := s.flagChanges { s with drift := { s.drift with assessing := true } }
  let s := ({ s with boot := { s.boot with step := .replayed } }).goto .serving
  let s := s.rejoin.checkMailbox.wearSnapshot.resumeSweeps.resumeSalvage.checkSpace.checkAges.endPass2
  (s.img.badCopies.foldl State.queueCopy s).followProfile.advance

/-! ### A blank device (R390) -/

/-- The first page of every welt and journal block is erased (R390). -/
def State.isBlankDevice (s : State) : Bool :=
  s.xlat.welts.isEmpty && s.media.all (fun e =>
    !(decide (1024 ≤ bits e.1 13 11) && decide (bits e.1 13 11 < 1032) && bits e.1 3 10 == 0 && bits e.1 26 3 == 0 && decide (e.1 / 2 ^ 29 < 16)))

/-- Mounts a blank device: welt 1 with CLEAN in set A, its records in journal page 0 at EPOCH 0. -/
def State.mountBlank (s : State) : State :=
  let s := s.setBlocks { s.blocks with blank := true, pbs := [], stitches := [], stitchSeq := 1 }
  let s := (s.popDies 0 768).foldl (fun s k => s.setAge k { s.age k with counter := 0, restored := true, groups := 0, cBrand := 0, cLast := 0 }) s
  let w := s.captureWelt 0 true
  let p : JPage := { jseq := 0, epoch := 0, weltSeq := 0, recs := [.weltMark 1 0, .weltDone 1 0], primary := true, mirror := true }
  let x := s.xlat
  (s.setXlat { x with welts := [w], weltSeq := 1, pages := [p], ring := [(0, 0), (4096, 0)], ringAt := [(0, 1), (1, 1)], jHead := 1
                      jCommit := some 0, markRseq := 0, sinceMark := 0 }).enterServing

/-! ### The choice of a welt (R195) -/

/-- A journal page that at least one of its copies gives (R196 step 2): its die is online and the copy decodes. -/
def State.readablePage (s : State) (p : JPage) : Bool :=
  let on := fun (half : Nat) => (s.ctlOf (dieKey (p.jseq % 8 + 8 * half) 0)).online
  (p.primary && on 0 && !s.xlat.unread.contains (2 * p.jseq)) || (p.mirror && on 1 && !s.xlat.unread.contains (2 * p.jseq + 1))

/-- The run that a welt's replay reads. -/
def State.runOf (s : State) (w : Welt) : List JPage :=
  let ps := s.xlat.pages.filter s.readablePage
  runFrom ps (w.replayFrom / 4096) 0 ps.length

/-- A candidate is usable when the run from its REPLAY_FROM holds its WELT_DONE. -/
def State.usable (s : State) (w : Welt) : Bool := w.doneIn (s.runOf w)

/-- The welt of largest sequence. -/
def newestOf (ws : List Welt) : Option Welt :=
  ws.foldl (fun best w => match best with | some (b : Welt) => if b.seq < w.seq then some w else some b | none => some w) none

/-- What a welt holds of a die that its table does not list: zeros, and no brand group (Table 5.8). -/
def WeltAge.none : WeltAge := { counter := 0, cBrand := 0, groups := 0, assumed := false, clamped := false, uLast := 0 }

/-- The counters, brand data and learned offsets of a welt (R112, R196 step 1), for every die: a counter keeps the additions made since
power-up. -/
def State.restoreAges (s : State) (w : Welt) : State :=
  let rest := ((s.popDies 0 768).filter (fun d => (Tab.find w.ages d).isNone)).map (fun d => (d, WeltAge.none))
  let s := (w.ages ++ rest).foldl (fun s e =>
    let a := s.age e.1
    s.setAge e.1 { a with counter := satAge (e.2.counter + a.holding), restored := true, cLast := e.2.counter, cBrand := e.2.cBrand, groups := e.2.groups
                          assumed := e.2.assumed, clamped := e.2.clamped }) s
  State.limitOffsets { s with drift := { s.drift with learned := w.learned, holes := w.holes, holeFull := w.holeFull, fullSeconds := w.fullSeconds } }

/-- The choice of a welt among those that could be read (R195), with the journal page copies that could not. -/
def State.chooseWelt (s : State) (reads : MountReads) : State :=
  if s.isBlankDevice then s.mountBlank
  else
    let s := s.setXlat { s.xlat with unread := reads.unread }
    let cands := s.xlat.welts.filter (fun w => reads.welts.contains w.seq)
    match newestOf (cands.filter s.usable) with
    | none => s.waitFault causeNoWelt
    | some w =>
      let newest := ((newestOf cands).map (fun x => x.seq)).getD w.seq
      let s := s.setXlat { s.xlat with chosen := some w, fallback := decide (w.seq < newest) }
      let s := if w.seq < newest then s.event portCore 0x0503 s.devicePath (le 8 w.seq ++ le 4 (newest - w.seq)) else s
      (s.restoreAges w).setBoot { s.boot with step := .welt }

def execMountWeltChoice (reads : MountReads) (s : State) : Host.Outcome State Fault Refusal :=
  s.done (if s.dev.state = .mounting ∧ s.boot.step = .ready then s.chooseWelt reads else s)

/-! ### Brand assessment (R125-R132) -/

/-- What an assessment finds: U in 1/256 tick before and after its bounds, and how it was come by. -/
structure Assessed where
  raw : Nat
  u : Nat
  readable : Bool
  assumed : Bool
  clamped : Bool
  measured : Option Nat
  brand : BitVec 2

/-- The assessment of a die from the histograms of its newest group. -/
def State.assessed (s : State) (k : Nat) (rows : List (List Nat)) : Assessed :=
  let a := s.age k
  let e := s.elapsed.1
  if a.groups = 0 then { raw := 0, u := 0, readable := false, assumed := false, clamped := false, measured := none, brand := 0 }
  else
    match dieEstimate s.drift.profile.version a.band rows with
    | none => { raw := assumedU e, u := assumedU e, readable := false, assumed := true, clamped := false, measured := none, brand := 3 }
    | some l =>
      let m := brandAge l
      let raw := unpowered m a.cLast a.cBrand
      let (u, cl) := bounded raw e
      { raw := raw, u := u, readable := true, assumed := false, clamped := cl, measured := some m, brand := 2 }

/-- Applies an assessment in place of the U applied so far. -/
def State.assess (s : State) (k : Nat) (rows : List (List Nat)) : State :=
  let a := s.age k
  let o := s.assessed k rows
  let s := s.setAge k { a with counter := satAge (a.counter + o.u - a.uApplied), uApplied := o.u, unpow := o.u / 256, provisional := false, brandRun := none
                               readable := o.readable, assumed := o.assumed, clamped := o.clamped, measured := o.measured, brandState := o.brand
                               reassessed := false }
  let s := { s with drift := { s.drift with lastE := s.elapsed.1, wallUsed := s.elapsed.1.isSome && s.elapsed.2, aonUsed := s.elapsed.1.isSome && !s.elapsed.2 } }
  if o.clamped then (s.event portDrift 0x0401 (s.diePath k) (le 4 (o.raw / 256) ++ s.elapsedBytes ++ le 4 (o.u / 256))).tick
  else if o.assumed then (s.event portDrift 0x0402 (s.diePath k) (le 4 (o.u / 256) ++ s.elapsedBytes ++ le 1 0)).tick
  else s

/-- The histograms that a die's reads gave. -/
def DieAge.rows (a : DieAge) : List (List Nat) := match a.brandRun with | some b => b.rows | none => []

/-- Whether the reads of a die's rows have ended: one without a group has none (R129). -/
def DieAge.read (a : DieAge) : Bool := a.groups == 0 || (match a.brandRun with | some b => b.over | none => false)

/-- The provisional U of R130. -/
def State.provisionalU (s : State) : Nat :=
  let ks := s.onlineDies.filter (fun k => k % 8 == 0)
  match (ks.filter (fun k => (s.age k).readable)).map (fun k => (s.age k).uApplied) with
  | [] => if ks.any (fun k => (s.age k).assumed) then assumedU s.elapsed.1 else 0
  | u :: us => median (u :: us)

/-- Dies 0 of the online channels: those of pass 1 (R130). -/
def State.firstDies (s : State) : List Nat := s.onlineDies.filter (fun k => k % 8 == 0)

/-- Pass 1, once its reads have ended: die 0 of every online channel is assessed, and every other die takes a provisional U (R130). -/
def State.pass1 (s : State) : State :=
  let s := { s with drift := { s.drift with lastE := s.elapsed.1 } }
  let s := s.firstDies.foldl (fun s k => s.assess k (s.age k).rows) s
  let u := s.provisionalU
  let s := (s.onlineDies.filter (fun k => k % 8 != 0)).foldl (fun s k =>
    let a := s.age k
    s.setAge k { a with counter := satAge (a.counter + u), uApplied := u, unpow := u / 256, provisional := true, brandState := 1 }) s
  ({ s with drift := { s.drift with pass1Done := true } }).setBoot { s.boot with step := .pass1 }

/-- BRAND_PASS1: the brand rows of die 0 of every online channel are read, channels in parallel; once all reads have ended, they are
assessed (R125, R130). -/
def execBrandPass1 (_ : Kept) (s : State) : Host.Outcome State Fault Refusal :=
  s.done (if s.dev.state ≠ .mounting ∨ s.boot.step ≠ .welt then s
    else if s.firstDies.all (fun k => (s.age k).read) then s.pass1
    else s.firstDies.foldl (fun s k =>
      if (s.age k).read then s else if (s.age k).brandRun.isSome then s.brandOn k else s.brandBegin k) s)

/-- A reassessment that was asked for while the die's pass 2 ran begins (R132). -/
def State.reassessNext (s : State) (k : Nat) : State :=
  if !s.drift.reassessQ.contains k then s
  else
    let s := { s with drift := { s.drift with reassessQ := s.drift.reassessQ.filter (fun d => d != k) } }
    if (s.age k).groups = 0 then s.reassessed k else s.brandBegin k

/-- BRAND_PASS2_DIE: the rows of a die are read, one die per channel at a time; once the reads have ended, its final U is applied, and
programs that waited for it may start (R130, R131). -/
def execBrandPass2Die (die : Fin 768) (s : State) : Host.Outcome State Fault Refusal :=
  let k := die.val
  let a := s.age k
  let busy := (List.range 8).any (fun i => (s.age (dieKey (k / 8) i)).brandRun.isSome)
  s.done (if ¬ (s.dev.state = .serving ∨ s.dev.state = .maintenance) then s
    else if a.provisional && a.read then ((((s.assess k a.rows).endPass2).checkAges).reassessNext k).kick k
    else if a.brandRun.isSome then s.brandOn k
    else if a.provisional && !busy then s.brandBegin k
    else s)

/-- A write of 1 to REASSESS in SERVING or MAINTENANCE: the rows of every online die are read (R132); those of a die that pass 2 has still to
assess, after that. -/
def State.reassessAll (s : State) : State :=
  s.onlineDies.foldl (fun s k =>
    if (s.age k).provisional then
      { s with drift := { s.drift with reassessing := true, reassessQ := s.drift.reassessQ.filter (fun d => d != k) ++ [k] } }
    else if (s.age k).brandRun.isSome then s
    else if (s.age k).groups = 0 then s.reassessed k
    else State.brandBegin { s with drift := { s.drift with reassessing := true } } k) s

/-- A write of DRIFT_CTRL (Table 4.13). LEARN_CLEAR clears offsets and accumulators (R122), and with them each group's count of decodes
since its last update, which R122 does not name (DESIGN CHOICE, log 64). -/
def State.writeDriftCtrl (s : State) (v : Nat) : State :=
  let s := s.setReg rDriftCtrl (v % 4 + bits v 4 1 * 16)
  let s := if bit v 2 then { s with drift := { s.drift with learned := [] } } else s
  if bit v 3 ∧ (s.dev.state = .serving ∨ s.dev.state = .maintenance) then s.reassessAll else s

def execReassess (v : Word) (_ : Kept) (s : State) : Host.Outcome State Fault Refusal := s.done (if s.barOpen then s.writeDriftCtrl v.toNat else s)

def execLearnClear (v : Word) (s : State) : Host.Outcome State Fault Refusal := s.done (if s.barOpen then s.writeDriftCtrl v.toNat else s)

/-! ### Replay (R196, R197) -/

/-- The state that a BLOCK record of SUB 0 gives by its USE (Table 5.5). -/
def useState (use : Nat) : PbSt := match use with | 0 | 1 => .opened | 2 => .map | _ => .system

/-- A BLOCK record. Links of replaced plane-blocks, and the reserves that the planes of a dropped die-block went to, are those that the medium
shows (R227, log 34). Those of a unit that has left service say nothing more about it. -/
def State.replayBlock (s : State) (kept : Tab PbRec) (sub die index : Nat) (planes : BitVec 4) (use : Nat) (erases : List Nat) : State :=
  let db := dbKey die index
  let on := (List.range 4).filter (fun p => planes.getLsbD p)
  let counts := fun (s : State) => if erases.isEmpty then s
    else ((List.range 4).zip erases).foldl (fun s e => s.updPb (s.serving db e.1) (fun r => { r with erases := e.2 })) s
  match sub with
  | 0 => counts (s.updDb db (fun r => { r with st := useState use }))
  | 1 => counts (on.foldl (fun s p => s.updPb (s.serving db p) (fun r =>
      { (PbRec.initAt false (s.serving db p)) with erases := r.erases, link := r.link, flags := r.flags &&& 2#8
                                                   st := if index < 1024 then .free else (PbRec.initAt false (s.serving db p)).st })) s)
  | 2 => if (s.ctlOf die).retired || (s.ctlOf die).lost then s else on.foldl (fun s p =>
      let own := pbKey die p index
      match Tab.find kept own with
      | some q =>
        let s := s.setPb own { q with st := .retired }
        if q.flag pbRemapped then s.updPb (pbKey die p q.link) (fun r => { r with st := .free, link := index })
        else ((List.range 4).flatMap (fun p => [s.serving db p, pbKey die p index])).foldl (fun s k =>
          match Tab.find kept k with
          | some r => if r.st = .reserve ∨ r.st = .retired then s.setPb k r else s
          | none => s) s
      | none => s.updPb own (fun r => { r with st := .retired })) s
  | 3 => s.updDb db (fun r => { r with st := if r.st = .opened then .closed else r.st })
  | _ => s.updDb db (fun r => { r with st := .burnished })

/-- The last record of a granule's binding: older leaf records do not reach its segment (R197, log 36). -/
def State.granuleAt (s : State) (g rseq : Nat) (e : DirEntry) : State :=
  (s.setXlat { s.xlat with segTable := Tab.put s.xlat.segTable g (0, rseq) }).setEntry g e

/-- A GRANULE record. -/
def State.replayGranule (s : State) (rseq sub : Nat) (ctx : BitVec 12) (first n : Nat) : State :=
  let gs := (List.range n).map (fun i => first + i)
  match sub with
  | 0 => gs.foldl (fun s g => s.granuleAt g rseq { ctx := ctx, st := .absent, pinned := false, dirty := false, loc := 0 }) s
  | 1 => gs.foldl (fun s g => ((s.granuleAt g rseq DirEntry.unbound).leaveHoles (g * 4096) 4096).setXlat
      { ((s.granuleAt g rseq DirEntry.unbound).leaveHoles (g * 4096) 4096).xlat with pins := s.xlat.pins.filter (fun x => x != g) }) s
  | 2 => s.setXlat { s.xlat with pins := s.xlat.pins ++ gs.filter (fun g => !s.xlat.pins.contains g) }
  | _ => s.setXlat { s.xlat with pins := s.xlat.pins.filter (fun g => !gs.contains g) }

/-- A hole record of a LEAF_STATE: the journal carries no address, second or unit, so these are free values (log 10). -/
def State.replayHole (s : State) (ctx : BitVec 12) (first n : Nat) (reason : Byte) : State :=
  let f := fun i => (Config.free (s.nonce + i)).toNat
  (s.enterHoles { first := first, count := n, ctx := ctx, reason := reason, media := BitVec.ofNat 36 (f 0), seconds := f 1,
                   unit := BitVec.ofNat 32 (f 2) }).tick.tick.tick

/-- An AGE record (R127, R196 step 3): a die that pass 1 has measured takes its U anew, and a bounded one is CLAMPED and logged (R128). -/
def State.replayAge (s : State) (die counter : Nat) : State :=
  let a := s.age die
  let set := fun (s : State) (u : Nat) (clamped : Bool) =>
    s.setAge die { a with cLast := counter, uApplied := u, unpow := u / 256, counter := satAge (counter + u + a.holding), restored := true,
                          clamped := clamped }
  match a.measured with
  | some m =>
    if a.provisional then set s a.uApplied a.clamped
    else
      let raw := unpowered m counter a.cBrand
      let (u, cl) := bounded raw s.elapsed.1
      let s := set s u cl
      if cl then (s.event portDrift 0x0401 (s.diePath die) (le 4 (raw / 256) ++ s.elapsedBytes ++ le 4 (u / 256))).tick else s
  | none => set s a.uApplied a.clamped

/-- The first pass over one record at or above MARK_RSEQ (R196 step 3). -/
def State.replay1 (kept : Tab PbRec) (s : State) (e : Nat × JRec) : State :=
  match e.2 with
  | .leafMap _ _ leaf _ new old =>
    let s := (s.addValid new).leaveHoles leaf 1
    match old with | some a => s.subValid a | none => s
  | .leafState st ctx first n reason =>
    if st = .poisoned ∧ reason ≠ 0 then s.replayHole ctx first n reason else s.leaveHoles first n
  | .segLoc ctx g primary mirror rseq dropped =>
    let d := s.entry g
    let x := { s.xlat with segTable := Tab.put s.xlat.segTable g (if dropped then (0, rseq) else (mirror, rseq)) }
    (s.setXlat x).setEntry g (if dropped then { d with ctx := ctx, st := .absent, dirty := false, loc := 0 }
      else { d with ctx := ctx, st := .inMedia, dirty := false, loc := primary })
  | .granule sub ctx first n => s.replayGranule e.1 sub ctx first n
  | .block sub die index planes use erases =>
    let s := s.replayBlock kept sub die index planes use erases
    if sub = 0 ∧ use = 2 then s.setXlat { s.xlat with mapFill := Tab.put s.xlat.mapFill die (index, 0) }
    else if sub = 3 ∧ (Tab.get s.xlat.mapFill die (2048, 0)).1 = index then s.setXlat { s.xlat with mapFill := Tab.del s.xlat.mapFill die }
    else s
  | .age die counter => s.replayAge die counter
  | .openPtr _ _ _ | .weltMark _ _ | .weltDone _ _ | .deltaEnd _ => s

/-- The second pass over one record at or above REPLAY_FROM (R196 step 4). -/
def State.replay2 (s : State) (e : Nat × JRec) : State :=
  let covered := fun (g : Nat) => !(s.entry g).bound || decide (e.1 < (Tab.get s.xlat.segTable g (0, 0)).2)
  match e.2 with
  | .leafMap _ _ leaf gen new _ =>
    if covered (granuleOf leaf) then s else s.setLeaf leaf e.1 (fun _ => { st := .mapped, gen := gen, hole := false, addr := new })
  | .leafState st _ first n _ =>
    let gs := (List.range ((first + n - 1) / 4096 - first / 4096 + 1)).map (fun i => first / 4096 + i)
    gs.foldl (fun s g =>
      if covered g || ((s.entry g).st == .absent && st == .unmapped) then s
      else
        let s := s.bringIn g
        let lo := first - g * 4096
        let hi := Nat.min 4096 (first + n - g * 4096)
        let ls := if st = .unmapped then s.leavesOf g lo hi else (List.range (hi - lo)).map (fun i => lo + i)
        ls.foldl (fun s i => s.setLeaf (g * 4096 + i) e.1 (fun x =>
          { x with st := st, hole := st == .poisoned && s.listed (g * 4096 + i)
                   addr := if st = .poisoned ∧ (x.st = .mapped ∨ x.st = .poisoned) then x.addr else 0 })) s) s
  | _ => s

/-- The first page of a die-block from `from'` on whose codewords are all erased (R196 step 5). -/
def State.probe (s : State) (db from' : Nat) : Nat :=
  let ks := s.servingAll db
  let pages := (s.media.filter (fun e => decide (e.1 / 8192 ∈ ks))).map (fun e => e.1 / 8 % 1024)
  ((List.range (1024 - from')).map (fun i => from' + i)).find? (fun p => !pages.contains p) |>.getD 1024

/-- Fields of a plane-block that no journal record carries: of the erase cycle that replay finds, the medium shows them (log 34). -/
def mergePb (kept : Tab PbRec) (e : Nat × PbRec) : Nat × PbRec :=
  match Tab.find kept e.1 with
  | some q => if q.erases = e.2.erases ∧ e.2.st ≠ .free ∧ e.2.st ≠ .erasePending then (e.1, { q with st := e.2.st, valid := e.2.valid }) else e
  | none => e

/-- A stitch without the positions whose allocation replay does not find (log 34). Of a RELEASING one the parity die-blocks that are not
erased yet stay, to be erased (R218). -/
def State.settleStitch (s : State) (e : Nat × Stitch) : Option (Nat × Stitch) :=
  let live := fun (db : Nat) => db == dbGone || (match (s.dbRec db).st with | .opened | .closed | .burnished | .victim | .retired => true | _ => false)
  let x := e.2
  if x.st = .releasing then
    let ps := x.positions.filter (fun p => p.2 != dbGone && (s.dbRec p.2).st != .free)
    if ps.isEmpty then none else some (e.1, { x with positions := ps })
  else
    let ps := x.positions.filter (fun p => live p.2)
    if ps.any (fun p => decide (p.1 < 16)) then
      let has := fun (m : Nat) => ps.any (fun p => p.1 == m)
      some (e.1, { x with positions := ps, order := x.order.filter has
                          openMask := BitVec.ofNat 16 (ofBits ((List.range 16).map (fun m => x.isOpen m && has m))) })
    else none

/-- Die-blocks that carry a flag. -/
def State.flagged (s : State) (i : Nat) : List Nat := ((s.blocks.pbs.filter (fun e => e.2.flag i)).map (fun e => s.servedBy e.1)).dedup

/-- The block tables after the first pass. -/
def State.settleBlocks (s : State) (kept : Tab PbRec) : State :=
  let s := s.setBlocks { s.blocks with pbs := s.blocks.pbs.map (mergePb kept) }
  let s := s.setBlocks { s.blocks with stitches := s.blocks.stitches.filterMap s.settleStitch }
  let parity := s.blocks.stitches.flatMap (fun e => if e.2.st = .releasing then e.2.positions.map (fun p => p.2) else [])
  let s := parity.foldl (fun s db => s.updDb db (fun r => { r with st := if r.st = .retired then .retired else .erasePending })) s
  s.setBlocks { s.blocks with forced := s.flagged pbForced, refreshQ := s.flagged pbRefresh }

/-- Whether a record makes a mount unclean: anything but AGE, OPEN_PTR, DELTA_END and the welt's own marks (R391). -/
def JRec.unclean (r : JRec) : Bool :=
  match r with | .age _ _ | .openPtr _ _ _ | .deltaEnd _ | .weltMark _ _ | .weltDone _ _ => false | _ => true

/-- The write pointer of an open die-block (R196 step 5): its OPEN_PTR when the delta ends the run, else the first page from the recorded one
on that is erased. -/
def State.pointerOf (s : State) (recs : List JRec) (delta : Bool) (db from' : Nat) : Nat :=
  let ptr := recs.foldl (fun (o : Option Nat) r =>
    match r with | .openPtr d b p => if d = dbDie db ∧ b = dbBlock db then some p else o | _ => o) none
  match delta, ptr with | true, some p => p | _, _ => s.probe db from'

/-- A position whose next page is `p`: its LAST_PAGE, in the stitch and in its records. -/
def State.placeMember (s : State) (i m db p : Nat) : State :=
  let x := Tab.get s.blocks.stitches i Stitch.init
  let last := if p = 0 then none else some (p - 1)
  let s := s.setStitch i { x with lastPage := match last with | some n => Tab.put x.lastPage m n | none => Tab.del x.lastPage m }
  s.updDb db (fun r => { r with lastPage := last })

/-- The write pointers of the open die-blocks: members and parity of stitches, and the map-area die-blocks being filled (R196 step 5). -/
def State.placePointers (s : State) (recs : List JRec) (delta : Bool) : State :=
  let opens := s.blocks.stitches.flatMap (fun e =>
    (e.2.positions.filter (fun p => p.2 != dbGone && (s.dbRec p.2).st == .opened)).map (fun p => (e.1, p.1, p.2, e.2.next p.1)))
  let s := opens.foldl (fun s o => s.placeMember o.1 o.2.1 o.2.2.1 (s.pointerOf recs delta o.2.2.1 o.2.2.2)) s
  let fills := s.xlat.mapFill.map (fun (e : Nat × (Nat × Nat)) => (e.1, (e.2.1, s.pointerOf recs delta (dbKey e.1 e.2.1) e.2.2)))
  s.setXlat { s.xlat with mapFill := fills.filter (fun e => decide (e.2.2 < 1024)) }

/-- Granules are pinned by their context's class or by a command (R180). -/
def State.pinAll (s : State) : State :=
  s.setXlat { s.xlat with dir := s.xlat.dir.map (fun e => (e.1, { e.2 with pinned := e.2.bound && ((s.ctx e.2.ctx.toNat).cls != 2#2 || s.xlat.pins.contains e.1) })) }

/-- JOURNAL_REPLAY: the two passes, the journal's new head and epoch, and the write pointers (R196 steps 2 to 5). -/
def State.replay (s : State) (w : Welt) : State :=
  let run := s.runOf w
  let recs := recordsOf run
  let fresh := recs.filter (fun e => decide (w.markRseq ≤ e.1))
  let stop := w.replayFrom / 4096 + run.length
  let kept := s.blocks.pbs
  let x := s.xlat
  let counts := x.images.foldl (fun t e => Tab.put t e.2.index (Nat.max e.2.count (Tab.get t e.2.index 0))) ([] : Tab Nat)
  let s := s.setXlat { x with dir := w.dir, segTable := w.segTable, pins := w.pins, mapFill := w.mapFill, imageCount := counts }
  let s := s.setBlocks { s.blocks with pbs := w.pbs }
  let s := fresh.foldl (State.replay1 kept) s
  let s := (recs.filter (fun e => decide (w.replayFrom ≤ e.1))).foldl State.replay2 s
  let s := (s.settleBlocks kept).pinAll
  let delta := match recs.getLast? with | some (_, .deltaEnd _) => true | _ => false
  let s := s.placePointers (fresh.map (fun e => e.2)) delta
  let stale := x.pages.any (fun p => s.readablePage p && decide (stop ≤ p.jseq))
  let top := maximum (x.pages.map (fun p => p.epoch))
  let unclean := fresh.any (fun e => e.2.unclean)
  let marks := fresh.filterMap (fun e => match e.2 with | .weltMark q _ => some q | _ => none)
  let s := s.setXlat { s.xlat with jHead := stop, jRecs := [], jCommit := if stop = 0 then none else some (stop - 1)
                                   epoch := if stale then top + 1 else (run.getLast?.map (fun p => p.epoch)).getD 0
                                   markRseq := w.markRseq, sinceMark := fresh.length, weltSeq := marks.foldl Nat.max w.seq, weltDue := unclean
                                   unclean := unclean, deltaUsed := delta }
  let s := s.setXlat { s.xlat with mapped := (s.mapEntries.filter (fun e => e.2.st == .mapped)).length }
  let s := ((s.blocks.stitches.filter (fun e => e.2.st == .filling)).map (fun e => e.1)).foldl (fun s i => s.sealStitch i true) s
  let s := if s.host.cinchCut then { s with host := { s.host with cinchCut := false, dirtyMounts := s.host.dirtyMounts + 1 } } else s
  s.setBoot { s.boot with step := .replayed }

def execJournalReplay (s : State) : Host.Outcome State Fault Refusal :=
  s.done (match s.xlat.chosen with
    | some w => if s.dev.state = .mounting ∧ s.boot.step = .pass1 then s.replay w else s
    | none => s)

/-- DIRECTORY_WRITE: pinned segments are loaded, every directory line is written, and the device enters SERVING (R196 steps 6 and 7); stitches
that closed as they were sealed, and whose members had all passed, are released (R218). -/
def execDirectoryWrite (s : State) : Host.Outcome State Fault Refusal :=
  s.done (if s.dev.state = .mounting ∧ s.boot.step = .replayed ∧ s.power.faultWait = none then
      (((s.xlat.dir.filter (fun e => e.2.pinned && e.2.st == .inMedia)).map (fun e => e.1)).foldl State.bringIn s).enterServing.releaseAll
    else s)

end Sys2Proof.Machine
end

