-- ==== Sys2Proof/Machine/Observe.lean ====
section
/-! DEFINITION. Observation: slot snapshots, counters, the sample ring and the trace port (R440-R448). -/

namespace Sys2Proof.Machine

/-- A write of OBS_CTRL (Table 15.8): a snapshot first, then the slot clear (Table 15.6), the counter clear, FREEZE. -/
def State.writeObsCtrl (s : State) (v : Nat) : State :=
  let s := if bit v 2 then { s with obs := { s.obs with shadows := s.obs.slots, snapValid := true } } else s
  let s := if bit v 3 then { s with obs := { s.obs with slots := [], shadows := [], snapValid := false } } else s
  let s := if bit v 1 then
      let cs := s.obs.counters.map (fun e => (e.1, { e.2 with count := 0 }))
      ({ s with obs := { s.obs with counters := cs } }).setField rObsStatus 16 16 0
    else s
  s.setField rObsCtrl 0 1 (bits v 0 1)

def execSlotSnap (v : Word) (s : State) : Host.Outcome State Fault Refusal := s.done (if s.barOpen then s.writeObsCtrl v.toNat else s)

def execSlotClear (v : Word) (s : State) : Host.Outcome State Fault Refusal := s.done (if s.barOpen then s.writeObsCtrl v.toNat else s)

def execCntClear (v : Word) (s : State) : Host.Outcome State Fault Refusal := s.done (if s.barOpen then s.writeObsCtrl v.toNat else s)

/-- Sets the sample configuration; a change restarts the count of births (R443), KIND 7 stores 0, a CHANNEL above 95
is ignored, CLEAR empties the ring (Table 15.9). -/
def State.writeSmpCfg (s : State) (v : Nat) : State :=
  let ch := if bits v 8 7 ≤ 95 then bits v 8 7 else s.field rSmpCfg 8 7
  let kind := if bits v 0 3 = 7 then 0 else bits v 0 3
  let new := kind + 2 ^ 8 * ch + 2 ^ 15 * bits v 15 15
  let s' := if new = s.reg rSmpCfg then s else { s with obs := { s.obs with births := 0 } }
  let s' := s'.setReg rSmpCfg new
  if bit v 30 then { s' with obs := { s'.obs with head := 0, tail := 0, waiting := [] } } else s'

def execSampleRingClear (v : Word) (s : State) : Host.Outcome State Fault Refusal := s.done (if s.barOpen then s.writeSmpCfg v.toNat else s)

/-- A write of OBS_SMP_TAIL that does not lie between TAIL and HEAD is ignored (R446). -/
def State.writeSmpTail (s : State) (v : Nat) : State :=
  let t := bits v 0 22
  if (t + 4194304 - s.obs.tail) % 4194304 ≤ s.smpFill then { s with obs := { s.obs with tail := t } } else s

def execSampleTailWrite (v : Word) (s : State) : Host.Outcome State Fault Refusal := s.done (if s.barOpen then s.writeSmpTail v.toNat else s)

/-- A read of OBS_CNT_LO_k captures bits [47:32] in the same cycle (R441). -/
def execCounterLoRead (k : Fin 16) (s : State) : Host.Outcome State Fault Refusal :=
  let c := Tab.get s.obs.counters k.val ObsCnt.init
  let cs := Tab.put s.obs.counters k.val { c with capture := bits c.count 32 16 }
  s.done (if s.barOpen then ({ s with obs := { s.obs with counters := cs } }).emit (.regRead (0xE0108 + 32 * k.val) (bits c.count 0 32)) else s)

/-- The increments of the cycles up to an overflow of counter `k` (R440); a counter that is off or frozen takes
none. -/
def execCounterOverflow (k : Fin 16) (inc : Nat) (s : State) : Host.Outcome State Fault Refusal :=
  let c := Tab.get s.obs.counters k.val ObsCnt.init
  s.done (if bit c.cfg 31 && !bit (s.reg rObsCtrl) 0 then s.addCount k.val inc else s)

/-- A sample entry (Table 15.3). -/
def Retired.entry (r : Retired) (t : SampleTimes) : List Byte :=
  le 16 r.header.toNat ++ le 8 r.hostAddr.toNat ++ le 2 r.ctx.toNat ++ le 1 r.losses ++ le 1 r.senses
    ++ le 4 t.birth.toNat ++ le 4 t.queue.toNat ++ le 4 t.arb.toNat ++ le 4 t.die.toNat ++ le 4 t.xfer.toNat
    ++ le 4 t.decode.toNat ++ le 4 t.host.toNat ++ le 5 r.media.toNat ++ zeros 3

/-- The oldest waiting entry enters the ring at HEAD; a full ring drops it, or with WRAP advances both ends
(R446). -/
def execSampleEntryWrite (times : SampleTimes) (s : State) : Host.Outcome State Fault Refusal :=
  match s.obs.waiting with
  | [] => s.done s
  | r :: rest =>
    let s' := { s with obs := { s.obs with waiting := rest } }
    let full := s.smpFill == 4194303
    if full && !bit (s.reg rSmpCfg) 29 then s.done (s'.bump rSmpDrop 0 32 1)
    else
      let tail := if full then (s.obs.tail + 1) % 4194304 else s.obs.tail
      s.done { s' with obs := { s'.obs with ring := Tab.put s'.obs.ring s.obs.head (r.entry times)
                                            head := (s.obs.head + 1) % 4194304, tail := tail } }

/-- No DRAM cycle came for an entry within 10 µs: it is dropped and counted (R438). -/
def execSampleWriteTimeout (s : State) : Host.Outcome State Fault Refusal :=
  match s.obs.waiting with
  | [] => s.done s
  | _ :: rest => s.done (({ s with obs := { s.obs with waiting := rest } }).bump rSmpDrop 0 32 1)

/-- A frame of the trace port: sync bytes, TYPE, sequence number, payload (R447). -/
def frameBytes (ty : Byte) (seq : BitVec 8) (payload : List Byte) : List Byte :=
  [0xC3, 0x5A, ty, seq] ++ (payload ++ zeros 32).take 32

/-- Sends one frame: a LOSS frame first when frames were dropped (R448). Nothing leaves before the TIME frame that
follows enabling. -/
def execTraceFrameSend (s : State) : Host.Outcome State Fault Refusal :=
  if !bit (s.reg rTrcCfg) 31 || s.obs.traceTimeDue then s.done s
  else match s.obs.trace with
    | [] => s.done s
    | (ty, p) :: rest =>
      if s.obs.traceLost = 0 then
        s.done (({ s with obs := { s.obs with trace := rest, traceSeq := s.obs.traceSeq + 1 } }).emit
          (.trace (frameBytes ty s.obs.traceSeq p)))
      else
        s.done (({ s with obs := { s.obs with traceLost := 0, traceSeq := s.obs.traceSeq + 1 } }).emit
          (.trace (frameBytes 0x04 s.obs.traceSeq (le 4 s.obs.traceLost))))

/-- A TIME frame: the first after enabling, then every 1 ms (R448, Table 15.4). -/
def execTraceTime (cycles : BitVec 64) (s : State) : Host.Outcome State Fault Refusal :=
  let p := le 8 cycles.toNat ++ le 4 s.store.opSeconds ++ le 4 s.store.powerCycles ++ le 2 s.dev.unitId.toNat
  if !bit (s.reg rTrcCfg) 31 then s.done s
  else if s.obs.traceTimeDue then
    s.done { s with obs := { s.obs with traceTimeDue := false, trace := (0x03, p) :: s.obs.trace } }
  else s.done (s.frame 0x03 p)

end Sys2Proof.Machine
end

