-- ==== Sys2Proof/Machine/Commands.lean ====
section
/-! DEFINITION. Device, cache, map, media, power, parameter, observation and event commands (Tables 10.8 to 10.12; R342-R346). -/

namespace Sys2Proof.Machine

/-! ### Device -/

/-- Bit n set: opcode n is implemented (Table 10.9). -/
def opcodeMap : Nat := total (opRows.map (fun r => 2 ^ r.code))

/-- DEV_GEOM (Table 1.12). -/
abbrev devGeom : Nat := 22 * 2 ^ 24 + 8 * 2 ^ 16 + 96

/-- IDENTIFY (Table 10.9). -/
def execIdentify (port : Port) (pkt : Packet) (s : State) : Host.Outcome State Fault Refusal :=
  s.done (s.run 0x01 port pkt (fun s c =>
    s.answer c (le 4 devId ++ le 4 devGeom ++ le 16 Config.deviceSerial.toNat ++ le 2 s.dev.unitId.toNat ++ le 2 1024 ++ le 4 65536 ++ le 2 4096
      ++ le 2 1024 ++ zeros 4 ++ le 8 0x400000000000 ++ le 8 s.fwVersion ++ le 32 opcodeMap ++ zeros 32)))

/-- DEV_STATE (Table 1.13). -/
def State.devState (s : State) : Nat := s.dev.seq.toNat * 256 + s.dev.prev.code * 16 + s.dev.state.code

/-- Seconds as a 32-bit figure. -/
def low32 (n : Nat) : List Byte := le 4 (Nat.min 0xFFFFFFFF n)

/-- GET_STATE (Table 10.10). -/
def execGetState (port : Port) (pkt : Packet) (s : State) : Host.Outcome State Fault Refusal :=
  s.done (s.run 0x02 port pkt (fun s c =>
    s.answer c (le 4 s.devState ++ le 4 s.devFlags ++ le 12 s.boundMask ++ low32 s.store.opSeconds ++ low32 s.store.powerCycles ++ zeros 4
      ++ le 8 (s.wallNow.getD 0) ++ le 4 s.hostBusy ++ zeros 12)))

/-- The wall time arrives (R128, R133). -/
def State.setWall (s : State) (t : Nat) : State := s.setPower { s.power with wall := some (t, s.power.aonSeconds), wallFresh := true }

/-- SET_WALLTIME (R133). -/
def execSetWalltime (port : Port) (pkt : Packet) (s : State) : Host.Outcome State Fault Refusal :=
  s.done (s.run 0x04 port pkt (fun s c =>
    (s.setWall (pkt.u 0x18 8)).ok c))

/-- ENTER_MAINTENANCE. -/
def execEnterMaintenance (port : Port) (pkt : Packet) (s : State) : Host.Outcome State Fault Refusal :=
  s.done (s.run 0x05 port pkt (fun s c => (if s.dev.state = .serving then s.goto .maintenance else s).ok c))

/-- Whether a command in progress is legal only in MAINTENANCE, and so keeps LEAVE_MAINTENANCE away (Tables 10.8, 10.13). -/
def Cmd.needsMaintenance (c : Cmd) : Bool :=
  c.step != CmdStep.fetched && ((c.opcode == 0x20 && c.pkt.u 0x28 1 == 2) || (match opRowOf c.opcode with | some r => !r.legal .serving | none => false))

/-- LEAVE_MAINTENANCE. -/
def execLeaveMaintenance (port : Port) (pkt : Packet) (s : State) : Host.Outcome State Fault Refusal :=
  s.done (s.run 0x06 port pkt (fun s c =>
    if s.dev.state ≠ .maintenance then s.ok c
    else if s.cmdq.cmds.any Cmd.needsMaintenance then s.fail c stBusy
    else ((s.goto .serving).rejoin).ok c))

/-! ### Stopping commands (R345, R346, Table 10.12) -/

/-- The tacks of a stopped range operation leave service (R18, R144, R346). -/
def State.drainRange (s : State) : State :=
  (s.tacks.filter (fun e => e.2.origin == .engine engRange && e.2.owner.isSome && !e.2.draining)).foldl (fun s e => s.drain e.1) s

/-- The result of a die-block command that has come so far. -/
def Cmd.soFar (c : Cmd) (left : Nat) : Option (List Byte) := some (le 8 (c.done - left) ++ le 8 c.holed ++ zeros 8)

/-- Stops a command, when Table 10.12 has it stop: the state, and whether it did. -/
def State.stopCmd (s : State) (c : Cmd) : State × Bool :=
  let gone := fun (r : Option (List Byte)) => (s.finish c stAborted 0 r, true)
  match c.step with
  | .fetched => if c.opcode = 0x08 then (s, false) else gone none
  | .activate => if s.img.st = .staged then ((s.finish c stAborted 0 none).setCmdq { (s.finish c stAborted 0 none).cmdq with stopped := none }, true) else (s, false)
  | .shutdown =>
    if s.power.shutdown = .none then ((s.finish c stAborted 0 none).setCmdq { (s.finish c stAborted 0 none).cmdq with stopped := none }, true) else (s, false)
  | .range =>
    match s.cache.rng with
    | some r =>
      if r.cmd = some c.id then
        if r.next ≤ r.last then
          let s := s.finish c stAborted 0 (some r.result)
          ((s.leaveRange r).drainRange.nextRange (s.cache.rngQueue.length + 1), true)
        else (s, false)
      else gone none
    | none => gone none
  | .leaves _ _ _ => ((s.endRunTack c.id).finish c stAborted 0 (some (le 8 c.done)), true)
  | .scrub dbs => gone (c.soFar (dbs.filter s.stillBurnished).length)
  | .refresh dbs => gone (c.soFar (dbs.filter (fun db => s.blocks.refreshQ.contains db || s.blocks.forced.contains db || s.blocks.jobs.any (fun j => j.db == db))).length)
  | .burnish ks => gone (c.soFar (ks.filter s.stillBurnishing).length)
  | .image => (s.dropPartial.finish c stAborted 0 none, true)
  | .fifo =>
    if c.opcode = 0x80 then
      let s := s.dropPartial.finish c stAborted 0 none
      ({ s with svc := { s.svc with consumer := none, taken := [] } }, true)
    else (s, false)
  | _ => (s, false)

/-- A range operation that waited in the queue leaves it when its command has ended. -/
def State.dropRangeOf (s : State) (id : Nat) : State := s.setCache { s.cache with rngQueue := s.cache.rngQueue.filter (fun r => r.cmd != some id) }

/-- The port that TARGET_SQ names. -/
def targetPort (n : Nat) : Port := if h : n < 1024 then .sq ⟨n, h⟩ else .svc

/-- ABORT (R346, Table 10.12). -/
def execAbort (port : Port) (pkt : Packet) (s : State) : Host.Outcome State Fault Refusal :=
  s.done (s.run 0x08 port pkt (fun s c =>
    match s.cmdq.cmds.find? (fun x => x.id != c.id && x.port == targetPort (pkt.u 0x18 2) && x.pkt.u 2 2 == pkt.u 0x1A 2) with
    | none => s.finish c stSuccess 1 none
    | some t =>
      let (s, stopped) := s.stopCmd t
      if stopped then (s.dropRangeOf t.id).finish c stSuccess 0 none else s.finish c stSuccess 2 none))

/-- PREPARE_SHELF_DOWN (R345, R392, R393): fetching stops, commands whose Abort entry is P end, and the path waits for the others. One
more while the shutdown is held writes nothing. -/
def execPrepareShelfDown (port : Port) (pkt : Packet) (s : State) : Host.Outcome State Fault Refusal :=
  s.done (s.run 0x07 port pkt (fun s c =>
    if s.power.shutdown = .held then s.answer c (s.retention 0 768 s.devicePath (tempOf (pkt.u 0x18 2)))
    else if s.cmdq.stopped.isSome ∨ s.power.shutdown ≠ .none then s.fail c stBusy
    else
      let s := (s.setCmdq { s.cmdq with stopped := some c.id }).await c .shutdown
      let ps := s.cmdq.cmds.filter (fun x => x.id != c.id && (match opRowOf x.opcode with | some r => r.abort == .p | none => false))
      ps.foldl (fun s x => ((s.stopCmd x).1).dropRangeOf x.id) s))

/-! ### Cache -/

/-- The range of ADDR and LEAVES: the first leaf and the count. -/
def Cmd.leafRange (c : Cmd) : Nat × Nat := (c.pkt.u 0x18 8 / 4096, c.pkt.u 0x20 8)

/-- CACHE_RANGE after its field checks (R256, R257, R344). -/
def State.cacheRange (s : State) (c : Cmd) : State :=
  let op := c.pkt.u 0x28 1
  let (first, n) := c.leafRange
  let ctx := c.ctxOf
  if !s.rangeStateOk op then s.fail c stState
  else if !s.bindsRun ctx first n then s.fail c stRange
  else if op = 2 ∧ (s.ctx ctx).rdOnly = true then s.finish c stReadOnly 1 none
  else if (s.cache.rng.isSome || s.cache.draining || s.cache.disableWaits) && decide (16 ≤ s.cache.rngQueue.length) then s.fail c stBusy
  else (s.await c .range).submitRange (RangeOp.start op ctx first n (bit (c.pkt.u 0x29 1) 0) (some c.id))

/-- A row of CACHE_RANGE acts on the packets of its OP; a packet of a reserved OP, which the checks turn away, comes with the row of CLEAN. -/
def State.runRange (s : State) (op : Nat) (port : Port) (pkt : Packet) : State := if pkt.u 0x28 1 = op ∨ (op = 0 ∧ 5 < pkt.u 0x28 1) then s.run 0x20 port pkt State.cacheRange else s

def execCacheRangeClean (port : Port) (pkt : Packet) (s : State) : Host.Outcome State Fault Refusal := s.done (s.runRange 0 port pkt)
def execCacheRangeInvalidate (port : Port) (pkt : Packet) (s : State) : Host.Outcome State Fault Refusal := s.done (s.runRange 1 port pkt)
def execCacheRangeDiscard (port : Port) (pkt : Packet) (s : State) : Host.Outcome State Fault Refusal := s.done (s.runRange 2 port pkt)
def execCacheRangeLock (port : Port) (pkt : Packet) (s : State) : Host.Outcome State Fault Refusal := s.done (s.runRange 3 port pkt)
def execCacheRangeUnlock (port : Port) (pkt : Packet) (s : State) : Host.Outcome State Fault Refusal := s.done (s.runRange 4 port pkt)
def execCacheRangePrefetch (port : Port) (pkt : Packet) (s : State) : Host.Outcome State Fault Refusal := s.done (s.runRange 5 port pkt)

/-- CACHE_ENABLE (R259). -/
def execCacheEnable (port : Port) (pkt : Packet) (s : State) : Host.Outcome State Fault Refusal :=
  s.done (s.run 0x21 port pkt (fun s c => if s.cache.draining then s.fail c stBusy else s.enableCache.ok c))

/-- CACHE_DISABLE (R258). -/
def execCacheDisable (port : Port) (pkt : Packet) (s : State) : Host.Outcome State Fault Refusal :=
  s.done (s.run 0x22 port pkt (fun s c =>
    if !s.cache.enabled && !s.cache.draining && !s.cache.disableWaits then s.ok c else (s.await c .drain).disableCache))

/-- Lines that are locked. -/
def State.lockedLines (s : State) : Nat := (s.cache.lines.filter (fun e => e.2.locked)).length

/-- The five error counters of Table 7.11. -/
def State.cacheErrors (s : State) : List Byte :=
  le 4 (s.reg rCacheTagPar) ++ le 4 (s.reg rCacheCorr) ++ le 4 (s.reg rCacheUncorr) ++ le 4 (s.reg rCacheLost) ++ le 4 (s.reg rCachePoison)

/-- CACHE_STATUS (Table 10.8). -/
def execCacheStatus (port : Port) (pkt : Packet) (s : State) : Host.Outcome State Fault Refusal :=
  s.done (s.run 0x23 port pkt (fun s c =>
    s.answer c (le 4 s.cacheStatus ++ le 4 s.cache.ceiling ++ le 4 (s.field rCacheCeilLimit 0 12) ++ le 4 s.dirtyLines ++ le 4 s.lockedLines
      ++ le 1 (s.field rCacheCtrl 0 2) ++ zeros 3 ++ s.cacheErrors ++ zeros 12)))

/-! ### Map -/

/-- UNMAP_RANGE and ZERO_RANGE (R343, R344). -/
def State.clearRange (s : State) (zero : Bool) (c : Cmd) : State :=
  let (first, n) := c.leafRange
  if !s.bindsRun c.ctxOf first n then s.fail c stRange
  else if zero && s.dev.readOnly then s.fail c stReadOnly
  else if (s.ctx c.ctxOf).rdOnly then s.finish c stReadOnly 1 none
  else (s.await c (.leaves zero first (first + n - 1))).advance

def execUnmapRange (port : Port) (pkt : Packet) (s : State) : Host.Outcome State Fault Refusal := s.done (s.run 0x30 port pkt (State.clearRange · false))
def execZeroRange (port : Port) (pkt : Packet) (s : State) : Host.Outcome State Fault Refusal := s.done (s.run 0x31 port pkt (State.clearRange · true))

/-- Records that fit in a result after its header. -/
def Cmd.fits (c : Cmd) (header size : Nat) : Nat := (c.room - header) / size

/-- MAP_QUERY (Tables 5.2, 10.11). -/
def execMapQuery (port : Port) (pkt : Packet) (s : State) : Host.Outcome State Fault Refusal :=
  s.done (s.run 0x32 port pkt (fun s c =>
    let (first, n) := c.leafRange
    if !s.bindsRun c.ctxOf first n then s.fail c stRange
    else
      let k := Nat.min n (c.fits 16 8)
      s.answer c (le 4 k ++ zeros 4 ++ (List.range k).flatMap (fun i => le 8 (s.leafNow (first + i)).word))))

/-- PIN_SEGMENTS (R180): the pins and their record; segments that are not resident are read, as MAP. -/
def execPinSegments (port : Port) (pkt : Packet) (s : State) : Host.Outcome State Fault Refusal :=
  s.done (s.run 0x33 port pkt (fun s c =>
    let first := pkt.u 0x20 4
    let n := pkt.u 0x24 4
    if !s.runBound c.ctxOf first n then s.fail c stRange
    else
      let new := (granuleRun first n).filter (fun g => !(s.entry g).pinned)
      if s.pinLimit < s.pinDemand + new.length then s.fail c stNoSpace
      else if s.heldRun first n then s.await c (.held first n)
      else ((s.pinRun c.ctxOf first n).await c (.segments new)).updaterReads))

/-- UNPIN_SEGMENTS (R180). -/
def execUnpinSegments (port : Port) (pkt : Packet) (s : State) : Host.Outcome State Fault Refusal :=
  s.done (s.run 0x34 port pkt (fun s c =>
    let first := pkt.u 0x20 4
    let n := pkt.u 0x24 4
    if !s.runBound c.ctxOf first n then s.fail c stRange
    else
      if s.heldRun first n then s.await c (.held first n) else (s.unpinRun c.ctxOf first n).ok c))

/-- GET_HOLES (R147, Table 10.11). -/
def execGetHoles (port : Port) (pkt : Packet) (s : State) : Host.Outcome State Fault Refusal :=
  s.done (s.run 0x35 port pkt (fun s c =>
    let flags := pkt.u 0x1C 1
    let s := if bit flags 1 && decide (s.drift.holes.length < 1048576) then { s with drift := { s.drift with holeFull := false, fullSeconds := 0 } } else s
    let hs := if bit flags 0 then s.drift.holes.filter (fun h => h.ctx.toNat == c.ctxOf) else s.drift.holes
    let out := (hs.drop (pkt.u 0x18 4)).take (c.fits 32 32)
    s.answer c (le 4 hs.length ++ le 4 out.length ++ le 4 s.drift.listGen ++ le 4 (flag s.drift.holeFull)
      ++ low32 (if s.drift.holeFull then s.drift.fullSeconds else 0) ++ zeros 4 ++ out.flatMap Hole.bytes)))

/-- CLEAR_READ_ONLY (R232). -/
def execClearReadOnly (port : Port) (pkt : Packet) (s : State) : Host.Outcome State Fault Refusal :=
  s.done (s.run 0x36 port pkt (fun s c =>
    if !s.dev.readOnly then s.ok c
    else if s.spaceGood < s.need + 7865 then s.fail c stNoSpace
    else ({ s.save recSpaceState (le 8 0) with dev := { s.dev with readOnly := false } }).ok c))

/-! ### Media (Table 6.8) -/

/-- Every die-block of a unit that holds data that refresh renews (R225). -/
def State.holdingOn (s : State) (first n : Nat) : List Nat :=
  (s.agingBlocks.filter refreshable).filter (fun db => decide (first ≤ dbDie db) && decide (dbDie db < first + n))

/-- SCRUB_NOW (R225). -/
def execScrubNow (port : Port) (pkt : Packet) (s : State) : Host.Outcome State Fault Refusal :=
  s.done (s.run 0x40 port pkt (fun s c =>
    let (_, first, n) := c.unit
    let dbs := (s.holdingOn first n).filter s.stillBurnished
    (s.await c (.scrub dbs)).updCmd c.id (fun x => { x with done := dbs.length })))

/-- BURNISH_NOW: the unit's waiting members move to the head of the order (R216). -/
def execBurnishNow (port : Port) (pkt : Packet) (s : State) : Host.Outcome State Fault Refusal :=
  s.done (s.run 0x41 port pkt (fun s c =>
    let (_, first, n) := c.unit
    let mine := fun (k : Nat) => match (Tab.find s.blocks.stitches (k / 16)).bind (fun x => Tab.find x.positions (k % 16)) with
      | some db => decide (first ≤ dbDie db) && decide (dbDie db < first + n)
      | none => false
    let running := s.blocks.burnishing.map (fun e => e.1)
    let all := s.burnishOrder ++ running
    let ks := all.filter mine
    let b := s.blocks
    let s := s.setBlocks { b with burnishFirst := ks.filter (fun k => !running.contains k) ++ b.burnishFirst.filter (fun k => !ks.contains k) }
    (s.await c (.burnish ks)).updCmd c.id (fun x => { x with done := ks.length })))

/-- REFRESH_NOW (R224). -/
def execRefreshNow (port : Port) (pkt : Packet) (s : State) : Host.Outcome State Fault Refusal :=
  s.done (s.run 0x42 port pkt (fun s c =>
    let (_, first, n) := c.unit
    let dbs := s.holdingOn first n
    (dbs.foldl State.queueRefresh (s.await c (.refresh dbs))).updCmd c.id (fun x => { x with done := dbs.length })))

/-- RETIRE_UNIT (R228): the die-blocks that are open on the unit close, every die-block is a forced victim, and the unit goes offline when
it is empty. -/
def execRetireUnit (port : Port) (pkt : Packet) (s : State) : Host.Outcome State Fault Refusal :=
  s.done (s.run 0x43 port pkt (fun s c =>
    let (level, first, n) := c.unit
    if !(unitDies first n).any (fun d => (s.ctlOf d).online) then s.answer c (zeros 24)
    else
      let s := (unitDies first n).foldl (fun s d => (s.closeOpen d).closeFill (dbKey d (Tab.get s.xlat.mapFill d (2048, 0)).1)) s
      let dbs := s.dataBlocks first n
      let s := dbs.foldl (fun s db => s.force db) s
      let u : Leaving := { level := level, first := first, count := n, fault := false, holes := 0, sweep := none }
      let s := if s.blocks.leaving.contains u then s else s.setBlocks { s.blocks with leaving := s.blocks.leaving ++ [u] }
      ((s.await c (.retire level first n)).updCmd c.id (fun x => { x with done := dbs.length })).endUnits))

/-- RESTORE_UNIT (R229, R362): rails of an octet that is off are sequenced first. -/
def execRestoreUnit (port : Port) (pkt : Packet) (s : State) : Host.Outcome State Fault Refusal :=
  s.done (s.run 0x44 port pkt (fun s c =>
    let (level, first, n) := c.unit
    let k := first / 64
    if s.power.octetOff.getLsbD k then
      if s.power.up ≠ UpStep.none then s.await c (.rails k)
      else
        let s := (s.await c (.rails k)).enableRail (6 + 2 * k) true
        s.setPower { s.power with up := .med k false }
    else
      let s := s.restoreUnit level first n
      s.answer c (le 8 (1024 * ((unitDies first n).filter (fun d => (s.ctlOf d).online)).length) ++ zeros 16)))

/-- MEDIA_REPORT (R234). -/
def execMediaReport (port : Port) (pkt : Packet) (s : State) : Host.Outcome State Fault Refusal :=
  s.done (s.run 0x45 port pkt (fun s c => let (_, first, n) := c.unit; s.answer c (s.mediaReport first n (pkt.u 8 4))))

/-- RETENTION_REPORT (R159). -/
def execRetentionReport (port : Port) (pkt : Packet) (s : State) : Host.Outcome State Fault Refusal :=
  s.done (s.run 0x46 port pkt (fun s c => let (_, first, n) := c.unit; s.answer c (s.retention first n (pkt.u 8 4) (tempOf (pkt.u 0x18 2)))))

/-! ### Power, parameters -/

/-- POWER_STATUS (R374). -/
def execPowerStatus (port : Port) (pkt : Packet) (s : State) : Host.Outcome State Fault Refusal :=
  s.done (s.run 0x50 port pkt (fun s c => s.answer c (s.powerResult s.power.measFlags.toNat)))

/-- HOLDUP_MEASURE (R367, R374). -/
def execHoldupMeasure (port : Port) (pkt : Packet) (s : State) : Host.Outcome State Fault Refusal :=
  s.done (s.run 0x51 port pkt (fun s c =>
    if s.power.overvolt then s.answer c (s.powerResult (s.power.measFlags ||| 18#7).toNat) else (s.await c .measure).startMeasure))

/-- SET_LIMITS (R376). -/
def execSetLimits (port : Port) (pkt : Packet) (s : State) : Host.Outcome State Fault Refusal :=
  s.done (s.run 0x52 port pkt (fun s c =>
    let m := pkt.u 0x18 1
    let s := if bit m 0 then s.setReg rCacheCeilLimit (pkt.u 0x1A 2) else s
    let s := if bit m 1 then s.setReg rPwrBudget (pkt.u 0x1C 2) else s
    let s := if bit m 2 then s.setReg rPwrPfwLevel (pkt.u 0x1E 2 / 50 * 50) else s
    let s := if bit m 1 || bit m 2 then s.save recLimits (le 2 (s.reg rPwrBudget) ++ le 2 (s.reg rPwrPfwLevel) ++ zeros 4) else s
    (s.recomputeCeiling s.power.bankE).ok c))

/-- PARAM_GET. -/
def execParamGet (port : Port) (pkt : Packet) (s : State) : Host.Outcome State Fault Refusal :=
  s.done (s.run 0x63 port pkt (fun s c => let id := pkt.u 0x18 2; s.answer c (le 2 id ++ zeros 6 ++ le 8 ((s.paramValue id).getD 0))))

/-- PARAM_SET. -/
def execParamSet (port : Port) (pkt : Packet) (s : State) : Host.Outcome State Fault Refusal :=
  s.done (s.run 0x64 port pkt (fun s c => (s.setParam (pkt.u 0x18 2) (pkt.u 0x20 8)).ok c))

/-! ### Observation (R449, Table 15.5) -/

/-- COUNTER_CONFIG. -/
def execCounterConfig (port : Port) (pkt : Packet) (s : State) : Host.Outcome State Fault Refusal :=
  s.done (s.run 0x70 port pkt (fun s c =>
    let k := pkt.u 0x18 1
    let f := pkt.u 0x19 1
    let cfg := pkt.u 0x1C 4
    let x := Tab.get s.obs.counters k ObsCnt.init
    let y : ObsCnt := if bit f 0 then { x with cfg := 2 ^ 31 + cfg % 64, flt := 0xF0000000, count := 0, reload := 0 }
      else { x with cfg := cfg, flt := pkt.u 0x20 4, reload := if bit f 1 then pkt.u 0x28 8 else x.reload, count := if bit f 2 then 0 else x.count }
    ({ s with obs := { s.obs with counters := Tab.put s.obs.counters k y } }).ok c))

/-- The live slot counters of a channel. -/
def SlotCnt.bytes (x : SlotCnt) : List Byte := le 8 x.elapsed ++ le 8 x.retired ++ le 8 x.wasted ++ le 8 x.front ++ le 8 x.back

/-- COUNTER_READ. -/
def execCounterRead (port : Port) (pkt : Packet) (s : State) : Host.Outcome State Fault Refusal :=
  s.done (s.run 0x71 port pkt (fun s c =>
    let counts := (List.range 16).flatMap (fun k => le 8 (Tab.get s.obs.counters k ObsCnt.init).count)
    let bytes := counts ++ le 2 (s.field rObsStatus 16 16) ++ zeros 6 ++ (Tab.get s.obs.slots (pkt.u 0x18 1) SlotCnt.init).bytes
    let s := if bit (pkt.u 0x19 1) 0 then
        let cs := s.obs.counters.map (fun (e : Nat × ObsCnt) => (e.1, { e.2 with count := 0 }))
        { s with obs := { s.obs with counters := cs } }
      else s
    s.answer c bytes))

/-- SAMPLE_CONFIG: as OBS_SMP_CFG and OBS_SMP_PERIOD. -/
def execSampleConfig (port : Port) (pkt : Packet) (s : State) : Host.Outcome State Fault Refusal :=
  s.done (s.run 0x72 port pkt (fun s c =>
    let f := pkt.u 0x19 1
    let cfg := pkt.u 0x18 1 + 2 ^ 8 * pkt.u 0x20 1 + 2 ^ 15 * flag (bit f 3) + 2 ^ 16 * pkt.u 0x1A 2 + 2 ^ 28 * flag (bit f 2) + 2 ^ 29 * flag (bit f 0)
      + 2 ^ 30 * flag (bit f 1)
    let s := s.setReg rSmpPeriod (pkt.u 0x1C 4)
    (({ s with obs := { s.obs with births := 0 } }).writeSmpCfg cfg).ok c))

/-! ### Events (R411-R413) -/

/-- EVENT_READ (Table 10.11). -/
def execEventRead (port : Port) (pkt : Packet) (s : State) : Host.Outcome State Fault Refusal :=
  s.done (s.run 0x73 port pkt (fun s c =>
    let n := s.store.evCount
    let first := pkt.u 0x18 2
    let k := Nat.min (n - first) (c.fits 16 32)
    s.answer c (le 2 n ++ le 2 k ++ le 4 s.store.evOverflow ++ (List.range k).flatMap (fun i => (s.store.evAt (first + i)).bytes))))

/-- EVENT_CLEAR (R413). -/
def execEventClear (port : Port) (pkt : Packet) (s : State) : Host.Outcome State Fault Refusal :=
  s.done (s.run 0x74 port pkt (fun s c => if pkt.u 0x18 2 = s.store.evCount then s.clearLog.ok c else s.fail c stBusy))

end Sys2Proof.Machine
end

