-- ==== Sys2Proof/Machine/Service.lean ====
section
/-! DEFINITION. The service port: transactions and their errors, MCTP control messages, Aglith messages, the receive FIFO and the
two commands that consume it (R347, R451-R456). -/

namespace Sys2Proof.Machine

def State.setSvc (s : State) (v : Svc) : State := { s with svc := v }

/-! ### Transactions (R451, R452) -/

/-- The bus on which the port answers: I3C once it holds a dynamic address, else SMBus while SMBUS_EN is 1. -/
def State.svcBus (s : State) : Option SvcBus :=
  if s.svc.dyn ≠ 0 then some .i3c else if bit (s.reg rSvcCtrl) 0 then some .smbus else none

/-- A message is discarded: MSG_ERR is set and counted, and source SVC raised. -/
def State.msgError (s : State) : State := ((s.setBit rSvcStatus 2).bump rSvcErrors 16 16 1).raise 14

/-- A transaction fails its PEC. -/
def State.pecError (s : State) : State := ((s.setBit rSvcStatus 3).bump rSvcErrors 0 16 1).raise 14

/-- A transaction that the port answers; one whose PEC fails is discarded. -/
def State.transact (s : State) (pecOk : Bool) (act : State → State) : State :=
  match s.svcBus with
  | none => s
  | some b => let s := s.setSvc { s.svc with bus := b }
    if pecOk then act s else s.pecError

/-! ### The receive FIFO (R454-R456) -/

/-- LENGTH of the run that a command consumes. -/
def Cmd.runLength (c : Cmd) : Nat := if c.opcode = 0x61 then c.pkt.u 0x1C 4 else c.chunk.2.1

/-- The word that a read delivers and what it leaves: 32 bytes, or fewer when the last byte held carries END (R455). -/
def fifoWord (q : List (Byte × Bool)) : Option (List (Byte × Bool) × List (Byte × Bool)) :=
  if 32 ≤ q.length then some (q.take 32, q.drop 32)
  else match q.getLast? with
    | some (_, true) => some (q, [])
    | _ => none

/-- The consuming command ends with a status; an image falls back to its last whole page, BOARD_SET writes nothing (R456). -/
def State.endRun (s : State) (c : Cmd) (code detail : Nat) : State :=
  let s := s.setSvc { s.svc with consumer := none, taken := [] }
  (if c.opcode = 0x80 then s.dropPartial else s).finish c code detail none

/-- The run is complete: BOARD_SET writes PENDING, a chunk ends. -/
def State.runDone (s : State) (c : Cmd) : State :=
  let bs := s.svc.taken
  let s := s.setSvc { s.svc with consumer := none, taken := [] }
  if c.opcode = 0x61 then (s.writePending (c.pkt.u 0x18 4) bs).ok c else s.endChunk c

/-- Whether a word of `w` breaks a run of which `left` bytes are still to come: bytes beyond LENGTH, or END before it. -/
def breaksRun (w : List (Byte × Bool)) (left : Nat) : Bool :=
  decide (left < w.length) || (w.take (left - 1)).any (fun b => b.2)

/-- The consuming command takes every word that can be delivered. -/
def State.feed (s : State) (fuel : Nat) : State :=
  match fuel with
  | 0 => s
  | n + 1 =>
    match s.consumer with
    | none => s
    | some c =>
      if s.svc.overflow then s.endRun c stField 0x7F
      else match fifoWord s.svc.fifo with
        | none => s
        | some (w, rest) =>
          let left := c.runLength - c.done
          let bs := w.map (fun b => b.1)
          let s := s.setSvc { s.svc with fifo := rest }
          if breaksRun w left then s.endRun c stField 0x7F
          else
            let s := s.updCmd c.id (fun x => { x with done := x.done + bs.length })
            let s := if c.opcode = 0x61 then s.setSvc { s.svc with taken := s.svc.taken ++ bs } else s.takeImage c bs (if c.chunk.1 = 0 then s.img.empty else { s.img with header := s.img.header.take c.chunk.1, page := s.img.page.take c.chunk.1, received := c.chunk.1 })
            if bs.length = left then s.runDone c
            else if s.running c then s.feed n
            else s.setSvc { s.svc with consumer := none, taken := [] }

/-- A DATA byte enters the FIFO, and words are delivered as they fill (R454). -/
def State.pushByte (s : State) (b : Byte × Bool) : State :=
  if 4096 ≤ s.svc.fifo.length then s.setSvc { s.svc with overflow := true }
  else (s.setSvc { s.svc with fifo := s.svc.fifo ++ [b] }).feed 1

/-- FIFO_FLUSH (R455). -/
def State.flushFifo (s : State) : State := s.setSvc { s.svc with fifo := [], overflow := false }

/-- IMAGE_STAGE. -/
def execImageStage (port : Port) (pkt : Packet) (chunk : HostRead) (s : State) : Host.Outcome State Fault Refusal :=
  s.done (s.run 0x80 port pkt (fun s c => (s.stage c chunk).feed 130))

/-- BOARD_SET: from host memory, or from the receive FIFO on the service port (R347). -/
def execBoardSet (port : Port) (pkt : Packet) (data : HostRead) (s : State) : Host.Outcome State Fault Refusal :=
  s.done (s.run 0x61 port pkt (fun s c =>
    match port, data with
    | .svc, _ =>
      if s.consumer.isSome then s.fail c stBusy
      else ((s.setSvc { s.svc with consumer := some c.id, taken := [] }).await c .fifo).feed 130
    | _, .failed => s.fail c stTimeout
    | _, .bytes b => (s.writePending (pkt.u 0x18 4) (fit (pkt.u 0x1C 4) b)).ok c))

/-- A write of SVC_CTRL (Table 16.9). -/
def State.writeSvcCtrl (s : State) (v : Nat) : State :=
  let s := s.setField rSvcCtrl 0 1 v
  if bit v 1 then s.flushFifo else s

def execFifoFlush (v : Word) (s : State) : Host.Outcome State Fault Refusal := s.done (if s.barOpen then s.writeSvcCtrl v.toNat else s)

/-- FIFO_TIMEOUT: no byte has come for 1 s. -/
def execFifoTimeout (s : State) : Host.Outcome State Fault Refusal :=
  s.done (match s.consumer with
    | none => s
    | some c => s.endRun c stTimeout 0)

/-! ### Aglith messages (R453, Table 16.1) -/

abbrev kindRequest : Nat := 0x01
abbrev kindData : Nat := 0x03

/-- The CID of a REQUEST body; 0 when the body is too short to carry one. -/
def bodyCid (body : List Byte) : Nat := if body.length < 8 then 0 else ofLe ((body.drop 6).take 2)

/-- A RESPONSE without a command. Its DETAIL for a broken message is stated nowhere: a free value (log 32). -/
def State.answerMessage (s : State) (cid code detail : Nat) : State :=
  let seq := s.sequence
  (s.setCmdq { s.cmdq with seqs := s.cmdq.seqs + 1 }).respond cid code detail seq []

def State.brokenMessage (s : State) (cid : Nat) : State :=
  (s.answerMessage cid stField ((Config.free s.nonce).toNat % 128)).tick

/-- SVC_REQUEST: a packet is taken into progress, or answered at once (R347, R453). A REQUEST that comes while fetching is stopped
is answered BUSY (log 32). -/
def State.takeRequest (s : State) (body : List Byte) : State :=
  if body.length ≠ 68 ∨ recField body 0 1 ≠ kindRequest ∨ zeroAt body 1 3 = false then s.brokenMessage (bodyCid body)
  else if 4 ≤ s.svcBusy ∨ s.mayFetch = false ∨ s.slotsFull = true then s.answerMessage (bodyCid body) stBusy 0
  else
    let p : Packet := BitVec.ofNat 512 (ofLe (body.drop 4))
    let (s, c) := s.enterCmd .svc p
    match opRowOf (p.u 0 1) with
    | none => s.finish c stOpcode 0 none
    | some _ => s

def execSvcRequest (body : List Byte) (pecOk : Bool) (s : State) : Host.Outcome State Fault Refusal :=
  s.done (s.transact pecOk (fun s => s.takeRequest body))

/-- The bytes of a DATA message with their END tags. -/
def dataBytes (body : List Byte) : List (Byte × Bool) :=
  let bs := body.drop 4
  let last := bit (recField body 1 1) 0
  ((List.range bs.length).zip bs).map (fun e => (e.2, last && e.1 + 1 == bs.length))

/-- SVC_DATA: the bytes enter the receive FIFO; those that find it full are discarded, which sets MSG_ERR (R454). -/
def State.takeData (s : State) (body : List Byte) : State :=
  if body.length < 5 ∨ 1028 < body.length ∨ recField body 0 1 ≠ kindData ∨ 2 ≤ recField body 1 1 ∨ zeroAt body 2 2 = false then s.brokenMessage 0
  else
    let full := decide (4096 < s.svc.fifo.length + (body.length - 4)) && s.consumer.isNone
    let s := (dataBytes body).foldl State.pushByte s
    if full then s.msgError else s

def execSvcData (body : List Byte) (pecOk : Bool) (s : State) : Host.Outcome State Fault Refusal :=
  s.done (s.transact pecOk (fun s => s.takeData body))

/-! ### MCTP control messages and I3C addresses (R451, R452) -/

/-- SET_ENDPOINT_ID: the reserved IDs 0x00 and 0xFF are refused, as the MCTP base protocol has it (PRESUMED, log 33). -/
def execSetEndpointId (eid : Byte) (s : State) : Host.Outcome State Fault Refusal :=
  s.done (s.transact true (fun s =>
    let s := if eid = 0 ∨ eid = 0xFF then s else s.setSvc { s.svc with eid := eid }
    s.emit (.message "Set Endpoint ID response" s.svc.eid.toNat)))

/-- GET_ENDPOINT_ID. -/
def execGetEndpointId (s : State) : Host.Outcome State Fault Refusal :=
  s.done (s.transact true (fun s => s.emit (.message "Get Endpoint ID response" s.svc.eid.toNat)))

/-- GET_MCTP_VERSION_SUPPORT. -/
def execGetMctpVersionSupport (s : State) : Host.Outcome State Fault Refusal :=
  s.done (s.transact true (fun s => s.emit (.message "Get MCTP Version Support response" 0)))

/-- GET_MESSAGE_TYPE_SUPPORT: type 0x7E. -/
def execGetMessageTypeSupport (s : State) : Host.Outcome State Fault Refusal :=
  s.done (s.transact true (fun s => s.emit (.message "Get Message Type Support response" 0x7E)))

/-- GET_VENDOR_DEFINED_MESSAGE_SUPPORT: Aglith's Vendor ID. -/
def execGetVendorDefinedMessageSupport (s : State) : Host.Outcome State Fault Refusal :=
  s.done (s.transact true (fun s => s.emit (.message "Get Vendor Defined Message Support response" Config.vendorId.toNat)))

/-- OTHER_MESSAGE_TYPE: every other type is discarded and sets MSG_ERR; control (0x00) and 0x7E have rows of their own. -/
def execOtherMessageType (ty : Byte) (s : State) : Host.Outcome State Fault Refusal :=
  s.done (if ty = 0 ∨ ty = 0x7E then s else s.transact true State.msgError)

/-- A dynamic address is assigned on the I3C bus. -/
def State.assignAddr (s : State) (addr : BitVec 7) (pecOk : Bool) : State :=
  let s := s.setSvc { s.svc with bus := .i3c }
  if pecOk then s.setSvc { s.svc with dyn := addr } else s.pecError

/-- ENTDAA. -/
def execEntdaa (addr : BitVec 7) (pecOk : Bool) (s : State) : Host.Outcome State Fault Refusal := s.done (s.assignAddr addr pecOk)

/-- SETDASA. -/
def execSetdasa (addr : BitVec 7) (pecOk : Bool) (s : State) : Host.Outcome State Fault Refusal := s.done (s.assignAddr addr pecOk)

/-- RSTDAA clears the dynamic address. -/
def execRstdaa (s : State) : Host.Outcome State Fault Refusal := s.done (s.setSvc { s.svc with bus := .i3c, dyn := 0 })

end Sys2Proof.Machine
end

