-- ==== Sys2Proof/Machine/Queues.lean ====
section
/-! DEFINITION. Queue pairs: doorbells, QCTRL and the other queue registers, fetches and completions (R322-R335; Tables 10.1 to
10.3). -/

namespace Sys2Proof.Machine

/-! ### Registers of a pair -/

/-- A write to QSTATUS: W1C bits. -/
def State.writeQStatus (s : State) (q v : Nat) : State :=
  let x := s.queue q
  s.setQueue q { x with fetchErr := x.fetchErr && !bit v 29, dbErr := x.dbErr && !bit v 28, cfgErr := x.cfgErr && !bit v 27 }

/-- ENABLE written 1 in IDLE (R324). -/
def Queue.enable (x : Queue) : Queue :=
  if x.sqLast = 0 ∨ x.cqLast = 0 then { x with st := .error, cfgErr := true }
  else { x with st := .running, sqHead := 0, sqTail := 0, cqHead := 0, cqTail := 0, phase := true, fetchErr := false, dbErr := false, cfgErr := false }

/-- ENABLE written 0 in RUNNING or ERROR: commands already fetched run to their end without completions (R324). -/
def State.disablePair (s : State) (q : Fin 1024) : State :=
  let s := s.setQueue q.val { s.queue q.val with st := .stopping, ready := [] }
  let s := s.setCmdq { s.cmdq with cmds := s.cmdq.cmds.map (fun c => if c.port = Port.sq q then { c with posts := false } else c) }
  s.settlePair q

/-- A write to QCTRL: WEIGHT at any time, the lock in IDLE, ENABLE under R324. -/
def State.writeQctrl (s : State) (q : Fin 1024) (v : Nat) : State :=
  let x := s.queue q.val
  let x := { x with weight := Nat.max 1 (bits v 0 4) }
  let x := if x.st = .idle then { x with lock := bit v 30, lockCtx := bits v 18 12 } else x
  let x := if x.st = .idle ∧ bit v 31 = true then x.enable else x
  let s := s.setQueue q.val x
  if !bit v 31 && (x.st == .running || x.st == .error) then s.disablePair q else s

/-- A write to one of the 8 registers of a pair, by its offset in the pair. Bases and SIZE change in IDLE only. -/
def State.writeQueueReg (s : State) (q : Fin 1024) (off v : Nat) : State :=
  let x := s.queue q.val
  let idle := fun (y : Queue) => if x.st = .idle then s.setQueue q.val y else s
  let lo := v / 4096 * 4096
  match off with
  | 0x00 => idle { x with sqBase := setBits x.sqBase 0 32 lo }
  | 0x04 => idle { x with sqBase := setBits x.sqBase 32 32 v }
  | 0x08 => idle { x with cqBase := setBits x.cqBase 0 32 lo }
  | 0x0C => idle { x with cqBase := setBits x.cqBase 32 32 v }
  | 0x10 => idle { x with sqLast := bits v 0 16, cqLast := bits v 16 16 }
  | 0x14 => s.writeQctrl q v
  | 0x18 => s.setQueue q.val { x with intEn := bit v 31, vector := bits v 16 11, coalUs := bits v 8 8, coalCount := bits v 0 8 }
  | 0x1C => s.writeQStatus q.val v
  | _ => s

def execQueueEnable (q : Fin 1024) (v : Word) (s : State) : Host.Outcome State Fault Refusal :=
  s.done (if s.barOpen then s.writeQctrl q v.toNat else s)

def execQueueDisable (q : Fin 1024) (v : Word) (s : State) : Host.Outcome State Fault Refusal :=
  s.done (if s.barOpen then s.writeQctrl q v.toNat else s)

/-! ### Doorbells (R325) -/

/-- A doorbell value that is refused: DB_ERR, and the pair enters ERROR. -/
def State.refuseDoorbell (s : State) (q : Nat) : State := s.setQueue q { s.queue q with st := .error, dbErr := true }

/-- Entries from the head of a CQ to `v`, round the ring. -/
def Queue.cqSpan (x : Queue) (v : Nat) : Nat := (v + (x.cqLast + 1) - x.cqHead) % (x.cqLast + 1)

def State.writeSqTail (s : State) (q v : Nat) : State :=
  let x := s.queue q
  if x.st ≠ .running then s
  else if x.sqLast < v then s.refuseDoorbell q
  else s.setQueue q { x with sqTail := v }

def State.writeCqHead (s : State) (q v : Nat) : State :=
  let x := s.queue q
  if x.st ≠ .running then s
  else if x.cqLast < v ∨ x.cqSpan x.cqTail < x.cqSpan v then s.refuseDoorbell q
  else (s.setQueue q { x with cqHead := v }).postReady q x.ready.length

def execSqTailDoorbell (q : Fin 1024) (v : Word) (s : State) : Host.Outcome State Fault Refusal :=
  s.done (if s.barOpen then s.writeSqTail q.val (bits v.toNat 0 16) else s)

def execCqHeadDoorbell (q : Fin 1024) (v : Word) (s : State) : Host.Outcome State Fault Refusal :=
  s.done (if s.barOpen then s.writeCqHead q.val (bits v.toNat 0 16) else s)

/-! ### Fetch (R326-R328) -/

/-- Whether a pair, by its number, may be fetched from. -/
def State.fetchableAt (s : State) (q : Nat) : Bool := if h : q < 1024 then s.fetchable ⟨q, h⟩ else false

/-- The pair fetched next: pair 0, then the pair whose turn goes on, then the next one in ascending round-robin order (R326). -/
def State.nextPair (s : State) : Option (Fin 1024) :=
  let c := s.cmdq
  let others := (c.queues.map (fun e => e.1)).filter (fun q => decide (0 < q) && s.fetchableAt q)
  let pick := if s.fetchableAt 0 then some 0
    else if 0 < c.turnLeft ∧ others.contains c.turn = true then some c.turn
    else match others.find? (fun q => decide (c.turn < q)) with | some q => some q | none => others.head?
  match pick with
  | some q => if h : q < 1024 then some ⟨q, h⟩ else none
  | none => none

/-- The round-robin place after a fetch from pair `q`. -/
def State.takeTurn (s : State) (q : Nat) : State :=
  let c := s.cmdq
  if q = 0 then s
  else if 0 < c.turnLeft ∧ c.turn = q then s.setCmdq { c with turnLeft := c.turnLeft - 1 }
  else s.setCmdq { c with turn := q, turnLeft := (s.queue q).weight - 1 }

/-- A fetch that fails (R328): no entry is taken. -/
def State.failFetch (s : State) (q : Fin 1024) : State :=
  let x := s.queue q.val
  (s.setQueue q.val { x with st := .error, fetchErr := true }).event portHost 0x0806 s.devicePath (le 2 q.val ++ le 2 x.sqHead)

/-- SQ_FETCH. A packet of a reserved opcode, which no row is for, ends at once (R336). -/
def execSqFetch (read : Option Packet) (s : State) : Host.Outcome State Fault Refusal :=
  match s.nextPair, read with
  | none, _ => s.done s
  | some q, none => s.done (s.failFetch q)
  | some q, some p =>
    let (s', c) := (s.takeTurn q.val).fetchEntry q p
    s.done (if (opRowOf (p.u 0 1)).isNone then s'.finish c stOpcode 0 none else s')

/-- COMPLETION_POST: completions that waited for room are posted as far as the CQ has room (R334). -/
def execCompletionPost (q : Fin 1024) (s : State) : Host.Outcome State Fault Refusal :=
  s.done ((s.postReady q.val (s.queue q.val).ready.length).settlePair q)

/-- COALESCE_TIMEOUT: COAL_US after the first completion posted since the last message (R335). -/
def execCoalesceTimeout (q : Fin 1024) (s : State) : Host.Outcome State Fault Refusal :=
  let x := s.queue q.val
  s.done (if x.intEn && decide (0 < x.coalUs) && decide (0 < x.unsent) then (s.setQueue q.val { x with unsent := 0 }).msix x.vector else s)

end Sys2Proof.Machine
end

