-- ==== Sys2Proof/Machine/Shutdown.lean ====
section
/-! DEFINITION. The clean shutdown path (R392-R394, Table 12.6). -/

namespace Sys2Proof.Machine

def State.setShutdown (s : State) (x : Shutdown) : State := s.setPower { s.power with shutdown := x }

/-- Step 2: jobs stop, staged leaves whose program has not started are dropped and their sources stay mapped, and engine reads
end (R392). -/
def State.stopEngines (s : State) : State :=
  let s := s.setBlocks { s.blocks with jobs := [], copyOffers := [], skiving := false, burnishing := [], scrubbing := [] }
  let ks := (s.tacks.filter (fun e => !e.2.draining && (match e.2.op with
    | .skvRead | .refreshRead | .burnishRead | .scrubRead => true
    | _ => false))).map (fun e => e.1)
  ks.foldl State.drain s

/-- Step 4: what is FILLING is sealed (R214). -/
def State.sealAll (s : State) : State :=
  ((s.blocks.stitches.filter (fun e => e.2.st == .filling && !e.2.sealed)).map (fun e => e.1)).foldl (fun s i => s.sealStitch i) s

/-- Whether parity is still to program, or programs. -/
def State.parityDue (s : State) : Bool :=
  s.blocks.stitches.any (fun e => e.2.st == .filling && (s.nextRow e.1 e.2).isSome) || s.tacks.any (fun e => e.2.op == .parityProgram)

/-- Steps 2 to 6, as far as they go; true when they are done. -/
def State.flushPath (s : State) : State × Bool :=
  let s := s.stopEngines
  if !s.writtenBack || s.parityDue then (s, false)
  else
    let s := s.sealAll
    match s.mustWrite true with
    | g :: gs => (s.writeSegments ((g :: gs).take 4), false)
    | [] =>
      if s.imagesUnderWay true then (s, false)
      else if s.journalDone then (s, true)
      else (s.closePage, false)

/-- Step 8: wall time and the wear snapshot. -/
def State.storePath (s : State) : State := s.saveWall.wearSnapshot.setShutdown .noted

/-- Step 7, its end: the notice DARK (R318). -/
def State.goDark (s : State) : State :=
  (s.setHarness { s.harness with silent := true }).emit (.hostWrite s.noticeAt (le 4 (noticeDark s.dev.unitId.toNat)))

/-- Step 9: a brand group on every online die that has none to come yet (R124); true when every group stands. -/
def State.brandAll (s : State) (dies : List Nat) : State × Bool :=
  let s := dies.foldl (fun s k => (s.writeBrand k).kick k) s
  let busy := s.underWay (fun w => match w with | .brand _ _ => true | .eraseSystem db => dbBlock db == 1039 | _ => false)
  (s.setShutdown (.brand []), !busy)

/-- Step 11: the completion, or for an off request the power-down (R356). -/
def State.hold (s : State) : State :=
  let s := (s.setShutdown .held).setCmdq { s.cmdq with stopped := none }
  let s := match s.cmdq.cmds.find? (fun c => c.step == CmdStep.shutdown) with
    | some c => s.finish c stSuccess 0 (some (s.retention 0 768 s.devicePath (tempOf (c.pkt.u 0x18 2))))
    | none => s
  if s.power.offAsked then s.powerDown else s

/-- CLEAN_SHUTDOWN: the path goes on as far as its steps have ended. -/
def State.shutdownPath (s : State) : State :=
  match s.power.shutdown with
  | .none | .held => s
  | .running =>
    match s.flushPath with
    | (s, false) => s
    | (s, true) => if s.harness.member && !s.harness.silent then s.startPush.setShutdown .pushed else s.storePath
  | .pushed => if s.harness.pushing.isSome then s else s.goDark.storePath
  | .noted =>
    if s.drift.assessing || s.xlat.run.isSome || !s.journalDone then s
    else (s.brandAll ((s.ctl.filter (fun e => e.2.online)).map (fun e => e.1))).1
  | .brand dies =>
    match s.brandAll dies with
    | (s, true) => (s.setShutdown .welt).startWelt true
    | (s, false) => s
  | .welt => if s.xlat.run.isNone && s.journalDone then s.hold else s

def execCleanShutdown (s : State) : Host.Outcome State Fault Refusal :=
  s.done (if s.dev.state = .serving ∨ s.dev.state = .maintenance then s.shutdownPath else s)

end Sys2Proof.Machine
end

