-- ==== Sys2Proof/Machine/Host.lean ====
section
/-! DEFINITION. The host link, the host-port reset, and the CXL mailbox (R270-R279, R293-R295, R425). -/

namespace Sys2Proof.Machine

def State.setHost (s : State) (h : HostPort) : State := { s with host := h }

/-! ### The link -/

/-- Whether a training can end with a rate, width, mode and personality: the PHY rails did not time out (R354), the caps of R274
hold, Flit mode is in force at 64 GT/s (R270), and CXL only when it is offered (R272). -/
def State.mayTrain (s : State) (rate width : Nat) (flit cxl : Bool) : Bool :=
  s.dev.state != .standby && !s.host.up && !s.power.timedOut.contains 0 && !s.power.timedOut.contains 4
    && decide (1 ≤ rate) && decide (rate ≤ s.linkParam 0x0801) && decide (width ∈ [1, 2, 4, 8]) && decide (width ≤ s.linkParam 0x0802)
    && (flit || rate != 6) && (!cxl || s.linkParam 0x0803 == 1)

/-- LINK_TRAINING. -/
def execLinkTraining (rate : Nat) (width : Nat) (flit : Bool) (cxl : Bool) (s : State) : Host.Outcome State Fault Refusal :=
  if s.mayTrain rate width flit cxl then
    let s' := s.setHost { s.host with up := true, rate := rate, width := width, flit := flit, cxl := cxl, l1ss := s.param 0x0805 3 }
    s.done (if rate < s.linkParam 0x0801 ∨ width < s.linkParam 0x0802 then
      (s'.event portHost 0x0801 s.devicePath [BitVec.ofNat 8 rate, BitVec.ofNat 8 width]).raise 16 else s')
  else s.done s

/-- PM_STATE_CHANGE: software moves the function between D0 and D3hot. -/
def execPmStateChange (d3hot : Bool) (s : State) : Host.Outcome State Fault Refusal :=
  s.done (if s.host.up then s.setHost { s.host with d3hot := d3hot } else s)

/-- Whether a received non-posted request is still without its completion. -/
def State.holdsReads (s : State) : Bool :=
  s.cache.requests.any (fun r => !r.write) || s.tacks.any (fun e => !e.2.draining && match e.2.req with | some r => !r.write | none => false)

/-- ASPM_L1_ENTRY: the idle time has passed; the request is sent when nothing is held (R275). -/
def execAspmL1Entry (s : State) : Host.Outcome State Fault Refusal :=
  s.done (if s.host.up && !s.holdsReads then s.emit (.message "ASPM L1 request" 0) else s)

/-! ### The host-port reset (R276, R425) -/

def causeCode (c : ResetCause) : Nat := match c with | .flr => 0 | .hotReset => 1 | .dlDown => 2 | .perst => 3

/-- Discards the open reads; their tacks become DRAINING. -/
def State.dropReads (s : State) : State :=
  let s := s.setCache { s.cache with requests := s.cache.requests.filter (fun r => r.write) }
  let ks := (s.tacks.filter (fun e => !e.2.draining && (match e.2.req with | some r => !r.write | none => false))).map (fun e => e.1)
  ks.foldl State.drain s

/-- The CMDQ block at its reset values; host-queue commands run on without completions. -/
def State.resetCmdq (s : State) : State :=
  let c := s.cmdq
  s.setCmdq { c with queues := [], turn := Cmdq.reset.turn, turnLeft := Cmdq.reset.turnLeft
                     cmds := c.cmds.map (fun x => if x.port = Port.svc then x else { x with posts := false }) }

/-- Every host route at priority 0 and target 0 with nothing pending or active, and the host targets at reset (R425). -/
def State.resetHostRoutes (s : State) : State := { s with intc := { s.intc with host := [], targets := [] } }

/-- The MSI-X table's registers. -/
def msixOffset (off : Nat) : Bool := decide (0x2000000 ≤ off)

/-- A host-port reset. A Hot Reset, DL_Down and PERST_N also take the link down (log 18). -/
def State.hostPortReset (s : State) (cause : ResetCause) : State :=
  let h := s.host
  let s := s.resetRegs msixOffset
  let s := s.setHost { HostPort.reset with up := h.up && cause == .flr, rate := h.rate, width := h.width, flit := h.flit, cxl := h.cxl
                                           l1ss := h.l1ss, decoders := h.decoders, mailboxCode := h.mailboxCode, logs := h.logs
                                           logsFull := h.logsFull, cinchCut := h.cinchCut, dirtyMounts := h.dirtyMounts
                                           dirRebuilds := h.dirRebuilds }
  let s := (s.dropReads.resetCmdq).resetHostRoutes
  let s := if cause = .dlDown then s.bump rHpDowns 16 16 1 else s.bump rHpDowns 0 16 1
  ((s.event portHost 0x0802 s.devicePath [BitVec.ofNat 8 (causeCode cause)]).raise 16).advance

/-- HOST_PORT_RESET. The port has power outside STANDBY; a link that is down has no FLR, Hot Reset or transition to DL_Down. -/
def execHostPortReset (cause : ResetCause) (s : State) : Host.Outcome State Fault Refusal :=
  s.done (if s.dev.state != .standby && (s.host.up || cause == .perst) then s.hostPortReset cause else s)

/-- The timeout of a read that the device issued as requester (R290, R317, R328, R340). -/
def State.readTimeout (s : State) (who : HostReader) : State :=
  match who with
  | .sqFetch => (match s.nextPair with | some q => s.failFetch q | none => s)
  | .readBack => s.pushRead .failed
  | .command q cid =>
    match s.cmdq.cmds.find? (fun c => c.port == Port.sq q && c.step == CmdStep.fetched && c.pkt.u 2 2 == cid.toNat
        && (c.opcode == 0x14 || c.opcode == 0x61 || c.opcode == 0x80)) with
    | some c => s.run c.opcode c.port c.pkt (fun s c =>
        if c.opcode = 0x14 then s.keyLoad c .failed else if c.opcode = 0x61 then s.fail c stTimeout else s.stage c .failed)
    | none => s

/-- COMPLETION_TIMEOUT; with the disable bit set no read of the device times out (R290). -/
def execCompletionTimeout (who : HostReader) (s : State) : Host.Outcome State Fault Refusal :=
  s.done (if s.host.ctoDisable then s else s.readTimeout who)

/-! ### The CXL mailbox (R293-R295) -/

/-- Whether the mailbox answers: the CXL personality is in force and BAR0 decodes. -/
def State.mailboxUp (s : State) : Bool := s.barOpen && s.host.cxl

/-- States in which the mailbox answers Busy to Get Poison List and Set Timestamp, and Media Status is Not Ready. -/
def State.notReady (s : State) : Bool := s.dev.state == .powering || s.dev.state == .held || s.dev.state == .mounting

/-- The CXL standard's return code (log 70). -/
def MailboxStatus.code (m : MailboxStatus) : Nat := match m with | .success => 0 | .busy => 6 | .unsupported => 3

/-- An answer of the mailbox, whose return code the mailbox status shows. -/
def State.mailbox (s : State) (st : MailboxStatus) (fields : List (String × Int)) (records : List (List Byte)) : State :=
  (s.setHost { s.host with mailboxCode := st.code }).emit (.mailbox st fields records)

/-- CXL_IDENTIFY_MEMORY_DEVICE (Table 8.9). -/
def execCxlIdentifyMemoryDevice (s : State) : Host.Outcome State Fault Refusal :=
  s.done (if s.mailboxUp then
    s.mailbox .success [("Total Capacity", 262144), ("Persistent Only Capacity", 262144), ("Volatile Only Capacity", 0)
      , ("LSA Size", 0), ("Informational Event Log Size", 256), ("Warning Event Log Size", 256), ("Failure Event Log Size", 256)
      , ("Fatal Event Log Size", 256), ("Poison List Maximum Records", 1048576)] []
    else s)

/-- The sources of Table 8.10. The temperature is the junction's in whole °C, rounded down (DESIGN CHOICE, log 45). -/
def State.healthInfo (s : State) : List (String × Int) :=
  let h := s.deviceRec s.mappedOn
  let dies := s.popDies 0 768
  let b := fun (x : Bool) => ((flag x : Nat) : Int)
  [("Maintenance Needed", b (h.state == hAttention || h.state == hDegraded)), ("Performance Degraded", b (s.boundMask != 0 || s.throttled)),
   ("Hardware Replacement Needed", b (dies.any (fun d => s.spareLow d || !(s.ctlOf d).online))), ("Media Not Ready", b s.notReady),
   ("Life Used", ((Nat.min 100 (100 * h.erase.2 / s.blBudget) : Nat) : Int)), ("Device Temperature", s.therm.junction / 16),
   ("Dirty Shutdown Count", (s.host.dirtyMounts : Int)),
   ("Corrected Volatile Error Count", ((s.reg rCacheCorr + s.reg rCacheTagPar + s.host.dirRebuilds : Nat) : Int)),
   ("Corrected Persistent Error Count", ((h.sums.getD 12 0 : Nat) : Int))]

/-- CXL_GET_HEALTH_INFO. -/
def execCxlGetHealthInfo (s : State) : Host.Outcome State Fault Refusal :=
  s.done (if s.mailboxUp then s.mailbox .success s.healthInfo [] else s)

/-- The source Internal of a media error record. -/
abbrev sourceInternal : Nat := 2

/-- The media error record of a hole inside a range of bytes, none outside it: DPA with source Internal in its low bits, and length in 64-byte
units (R294; the CXL standard's layout, log 45). -/
def Hole.poison (h : Hole) (dpa len : Nat) : Option (List Byte) :=
  let lo := Nat.max dpa (h.first * 4096)
  let hi := Nat.min (dpa + len) ((h.first + h.count) * 4096)
  if lo < hi then some (le 8 (lo / 64 * 64 + sourceInternal) ++ le 4 ((hi - lo) / 64) ++ zeros 4) else none

/-- CXL_GET_POISON_LIST of `len` bytes from a DPA. -/
def execCxlGetPoisonList (dpa : BitVec 64) (len : BitVec 64) (s : State) : Host.Outcome State Fault Refusal :=
  s.done (if !s.mailboxUp then s
    else if s.notReady then s.mailbox .busy [] []
    else s.mailbox .success ([("Overflow", ((flag s.drift.holeFull : Nat) : Int))]
        ++ (if s.drift.holeFull then [("Overflow Timestamp", (s.drift.fullSeconds : Int))] else []))
      (s.drift.holes.filterMap (fun h => h.poison dpa.toNat len.toNat)))

/-- CXL_SET_TIMESTAMP acts as SET_WALLTIME with whole seconds. -/
def execCxlSetTimestamp (ns : BitVec 64) (s : State) : Host.Outcome State Fault Refusal :=
  s.done (if !s.mailboxUp then s
    else if s.notReady then s.mailbox .busy [] []
    else (s.setWall (ns.toNat / 1000000000)).mailbox .success [] [])

/-- UUID of a vendor-specific event record (R295), most significant byte first. -/
def vendorUuid : List Byte := (le 16 0x5c2a9e417b064d3fa18e0e6f3b92d7c5).reverse

/-- A record of the CXL view: the DPA of LEAF_UNCORRECTABLE, or the vendor record. -/
def EvRec.view (r : EvRec) : List Byte :=
  if r.code = 0x0403 then le 8 (ofLe (r.params.take 5) * 4096) else vendorUuid ++ r.bytes

/-- CXL_GET_EVENT_RECORDS of a log: 0 Informational, 1 Warning, 2 Failure, 3 Fatal. -/
def execCxlGetEventRecords (log : Fin 4) (s : State) : Host.Outcome State Fault Refusal :=
  s.done (if s.mailboxUp then
    s.mailbox .success [("Overflow", ((flag (s.host.logsFull.contains log.val) : Nat) : Int))] ((Tab.get s.host.logs log.val []).map EvRec.view)
    else s)

/-- CXL_CLEAR_EVENT_RECORDS removes the oldest records of a log of the view; the recorder's log stays. -/
def execCxlClearEventRecords (log : Fin 4) (count : Nat) (s : State) : Host.Outcome State Fault Refusal :=
  s.done (if s.mailboxUp then
    (s.setHost { s.host with logs := Tab.put s.host.logs log.val ((Tab.get s.host.logs log.val []).drop count)
                             logsFull := if count = 0 then s.host.logsFull else s.host.logsFull.filter (fun k => k != log.val) }).mailbox .success [] []
    else s)

/-- MAILBOX_UNSUPPORTED_OPCODE. -/
def execMailboxUnsupportedOpcode (opcode : BitVec 16) (s : State) : Host.Outcome State Fault Refusal :=
  s.done (if s.mailboxUp then s.mailbox .unsupported [("Opcode", (opcode.toNat : Int))] [] else s)

/-! ### The latched age (R161) -/

/-- AGE_LO_READ takes the whole counter in one cycle; AGE_HI reads what was taken. -/
def execAgeLoRead (ch : Chan) (d : DieNo) (s : State) : Host.Outcome State Fault Refusal :=
  let k := dieKey ch.val d.val
  let v := (s.age k).counter
  s.done (if s.barOpen then
    ({ s with drift := { s.drift with ageLatch := Tab.put s.drift.ageLatch k v } }).emit (.regRead (0x61000 + 16 * k) (v / 256 % 2 ^ 32))
    else s)

end Sys2Proof.Machine
end

