-- ==== Sys2Proof/Machine/Registers.lean ====
section
/-! DEFINITION. Writes of registers by offset (R8-R10): BAR0 from 0, the host-port DVSEC and configuration space from 0x1000000, the
MSI-X table from 0x2000000. Registers whose write has a row of its own act here as there. -/

namespace Sys2Proof.Machine

/-! ### Ways to write a field (Table 0.4) -/

/-- RW bits of a mask; the other bits stay. -/
def State.writeRw (s : State) (off mask v : Nat) : State := s.setReg off ((s.reg off - (s.reg off &&& mask)) + (v &&& mask))

/-- W1C bits of a mask: a 1 clears. -/
def State.writeW1c (s : State) (off mask v : Nat) : State := s.setReg off (s.reg off - (s.reg off &&& (v &&& mask)))

/-- A field that stores the nearer limit of its range. -/
def State.writeNear (s : State) (off lo w a b v : Nat) : State := s.setField off lo w (clamp a b (bits v lo w))

/-- Whether the RWL fields are open: no board description is in force (R8, R381, R384). -/
def State.rwlOpen (s : State) : Bool := s.boot.bd.isNone

/-! ### Blocks -/

/-- INTC (Tables 14.3 to 14.6). -/
def State.writeIntc (s : State) (off v : Nat) : State :=
  if off = rIntcStatus then s.setReg off v
  else if off = 0x20010 then s.softSet (bits v 0 9)
  else if 0x21000 ≤ off ∧ off < 0x22000 then
    let n := (off - 0x21000) / 8
    if off % 8 = 0 ∧ isSource n = true ∧ ¬ (256 ≤ n ∧ n ≤ 319) then
      let r := Tab.get s.intc.host n Route.init
      { s with intc := { s.intc with host := Tab.put s.intc.host n { r with target := bits v 8 6, prio := bits v 0 4 } } }
    else s
  else if 0x22000 ≤ off ∧ off < 0x22800 then
    let t := (off - 0x22000) / 32
    let x := Tab.get s.intc.targets t Target.init
    match off % 32 with
    | 4 => s.eoi t (bits v 0 9)
    | 8 => { s with intc := { s.intc with targets := Tab.put s.intc.targets t { x with enable := bit v 31, vector := bits v 0 11 } } }
    | 12 => { s with intc := { s.intc with targets := Tab.put s.intc.targets t { x with eoiErr := x.eoiErr && !bit v 9 } } }
    | _ => s
  else s

/-- ARB_CH_TICKETS_i of a channel: only under CUSTOM (R107). -/
def State.writeTickets (s : State) (ch i v : Nat) : State :=
  if bit (s.reg (rArbChCtrl ch)) 0 then
    (s.setReg (rArbTickets ch i) (match i with | 0 => v | 1 => setBits v 0 8 255 | _ => v % 65536)).judge ch
  else s

/-- ARB (Tables 3.3 to 3.11). -/
def State.writeArb (s : State) (off v : Nat) : State :=
  if off = rArbProfile then (s.setReg off (v % 4)).judgeAll
  else if off = rArbSeed then (if v = 0 then s else s.setReg off v)
  else if off = 0x3000C then (if bit v 0 then s.reseedAll else s)
  else if off = rArbOvrCount then s.setReg off (v % 65536)
  else if 0x31000 ≤ off ∧ off < 0x31000 + 96 * 0x40 then
    let ch := (off - 0x31000) / 0x40
    match off % 0x40 with
    | 0x00 => s.writeCustom ch (bit v 0)
    | 0x04 => s.writeTickets ch 0 v
    | 0x08 => s.writeTickets ch 1 v
    | 0x0C => s.writeTickets ch 2 v
    | 0x18 | 0x1C => s.setReg off v
    | _ => s
  else s

/-- MEDIA (Tables 2.17 to 2.26). -/
def State.writeMedia (s : State) (off v : Nat) : State :=
  if off < 0x58000 then
    match off % 0x400 with
    | 0x00 => s.writeChCtrl ((off - 0x40000) / 0x400) v
    | 0x08 => s.writeRw off 0x3F3F3F3F v
    | 0x0C | 0x18 => s.setReg off v
    | 0x10 => ((s.writeRw off 0xFF v).writeNear off 16 10 25 1000 v).rejudge
    | 0x14 => s.writeW1c off 0xFFFFFFFC v
    | _ => s
  else if off = rMediaCtrl then s.writeMediaCtrl v
  else if off = rMediaTempPeriod then s.writeNear off 0 14 100 10000 v
  else s

/-- DRIFT (Tables 4.12 to 4.16). A CHANNEL of 96 to 127 in DRIFT_OFS_SEL, which Table 4.15 neither allows nor refuses, is stored as written
(R161; DESIGN CHOICE, log 64). -/
def State.writeDrift (s : State) (off v : Nat) : State :=
  if off = rDriftCtrl then s.writeDriftCtrl v
  else if off = rDriftRefreshAge then (s.setReg off (clamp 1000000 s.drift.profile.refreshAge v)).checkAges
  else if off = rDriftTune then
    let s := (s.setField off 16 6 (bits v 16 6)).limitOffsets
    let s := if bits v 8 6 = 0 then s else s.setField off 8 6 (bits v 8 6)
    if bits v 0 6 = 0 then s else s.setField off 0 6 (bits v 0 6)
  else if (rDriftLadder ≤ off ∧ off < rDriftLadder + 32) ∨ (rDriftUncorr ≤ off ∧ off ≤ rDriftLate) then s.setReg off v
  else if off = rDriftRefSel then s.setReg off (v &&& 0x33F)
  else if off = rDriftOfsSel then s.writeRw off (if bits v 0 5 ≤ 16 then 0x1FFFF else 0x1FFE0) v
  else s

/-- XLAT (Tables 5.9 to 5.12). XLAT_DIR_PEEK_SEL reads its entry in its own row. -/
def State.writeXlat (s : State) (off v : Nat) : State :=
  if off = rXlatCtrl then s.writeXlatCtrl v
  else if off = rXlatWeltBytes then s.writeNear off 0 12 64 2048 v
  else if off = rXlatWeltPeriod then s.writeNear off 0 12 30 3600 v
  else if off = rXlatJrnWindow then s.writeNear off 0 10 10 1000 v
  else if off = rXlatPinLimit then s.setReg off (Nat.max s.pinDemand (Nat.min 385024 (v % 2 ^ 19)))
  else if off = rXlatSegMisses ∨ off = rDirCrcErr ∨ off = rDirNarrow then s.setReg off v
  else if off = rDirLastErr then s.writeW1c off 0x80000000 v
  else if off = rDirPeekSel then s.peekEntry (v % 2 ^ 22) true
  else s

/-- The range registers outside CTRL: refused while the engine runs (Table 7.14). -/
def State.writeRngReg (s : State) (off mask v : Nat) : State :=
  if s.cache.rng.isSome then s.setBit rRngStatus 30 else s.setReg off (v &&& mask)

/-- CACHE (Tables 7.11 to 7.14). A write of CEIL_LIMIT or ENERGY recomputes the ceiling (R263). -/
def State.writeCache (s : State) (off v : Nat) : State :=
  if off = rCacheCtrl then s.writeCacheCtrl v
  else if off = rCacheCeilLimit then (s.writeNear off 0 12 256 3072 v).recomputeCeiling s.power.bankE
  else if off = rCacheEnergy then
    (if s.rwlOpen then ((s.writeNear off 16 16 8000 30000 v).writeNear off 0 16 4000 20000 v) else s).recomputeCeiling s.power.bankE
  else if off = rCacheWb then (s.writeNear off 16 16 10 60000 v).setField off 0 7 (Nat.min 90 (bits v 0 7))
  else if off = rRngAddr then s.writeRngReg off 0xFFFFF000 v
  else if off = rRngAddr + 4 then s.writeRngReg off 0x3FFF v
  else if off = rRngCount then s.writeRngReg off 0xFFFFFFFF v
  else if off = rRngCount + 4 then s.writeRngReg off 7 v
  else if off = rRngCtrl then s.writeRngCtrl v
  else if off = rRngStatus then s.writeW1c off 0x60000000 v
  else if rCacheTagPar ≤ off ∧ off ≤ rCachePoison then s.setReg off v
  else s

/-- The counters of a context entry (Table 9.1). -/
def State.writeCtxWord (s : State) (off v : Nat) : State :=
  let c := (off - 0x90000) / 32
  let x := s.ctx c
  match off % 32 with
  | 0x10 => s.setCtx c { x with late := v }
  | 0x14 => s.setCtx c { x with poison := v }
  | 0x18 => s.setCtx c { x with refused := v / 65536 }
  | _ => s

/-- PWR (Tables 11.10 to 11.13). -/
def State.writePwr (s : State) (off v : Nat) : State :=
  if off = 0xB0000 then
    let s := if bit v 1 then s.startMeasure else s
    if bit v 0 then s.offReq else s
  else if off = rPwrStatus then s.writeW1c off 0x34 v
  else if off = rPwrBudget then s.writeNear off 0 10 160 1000 v
  else if off = rPwrPfwLevel then s.setReg off (clamp 9600 11400 (v % 2 ^ 14) / 50 * 50)
  else if off = rPwrHoldCfg then
    (if s.rwlOpen then (s.writeNear off 16 16 50 400 v).writeNear off 0 16 12000 20000 v else s)
  else if off = rPwrChgCfg then
    let s := (s.setField off 20 12 (bits v 20 12)).writeNear off 13 7 10 100 v
    if s.rwlOpen then s.writeNear off 0 13 500 8000 v else s
  else if off = rPwrRailFail then s.writeW1c off 0x3F v
  else if off = rPwrMedFail then s.writeW1c off 0xFFFFFF v
  else if off = rPwrPfwCount ∨ off = rPwrCuts ∨ off = rPwrAonSwitch then s.setReg off v
  else s

/-- A write of THERM_LIMITS that keeps its order (Table 14.11). -/
def limitsOk (v : Nat) : Bool :=
  decide (70 ≤ bits v 0 8) && decide (bits v 0 8 < bits v 8 8) && decide (bits v 8 8 < bits v 16 8) && decide (bits v 16 8 ≤ 115)

/-- THERM (Tables 14.10 to 14.12). -/
def State.writeTherm (s : State) (off v : Nat) : State :=
  if off = rThermCtrl then s.setReg off (clamp 1 20 (bits v 8 5) * 256 + v % 2)
  else if off = rThermStatus then s.writeW1c off 0x1E0 v
  else if off = rThermLimits then (if s.rwlOpen && limitsOk v then s.setReg off (v % 2 ^ 24) else s)
  else if off = rSuspectSeen then s.writeW1c off 0xFFFFFF v
  else if off = rThermCounts then s.setReg off v
  else s

/-- PSTORE (Tables 13.10, 13.11). -/
def State.writePstore (s : State) (off v : Nat) : State :=
  if off = rPstoreStatus then s.writeW1c off 0x34 v
  else if off = rPstoreCorr ∨ off = rPstoreUncorr ∨ off = rEvtPortDrop then s.setReg off v
  else if off = rEvtWinSel then s.setReg off (v % 4)
  else s

/-- A programmable counter's registers (Table 15.8). A CHANNEL above 95 is ignored. -/
def ObsCnt.write (c : ObsCnt) (off v : Nat) : ObsCnt :=
  match off with
  | 0x00 => { c with cfg := v &&& 0xE000003F }
  | 0x04 => { c with flt := if bits v 7 7 ≤ 95 then v &&& 0xFFFFFF80 else setBits (v &&& 0xFFFFFF80) 7 7 (bits c.flt 7 7) }
  | 0x08 => { c with count := setBits c.count 0 32 v }
  | 0x0C => { c with count := setBits c.count 32 16 v }
  | 0x10 => { c with reload := setBits c.reload 0 32 v }
  | 0x14 => { c with reload := setBits c.reload 32 16 v }
  | _ => c

/-- OBS_TRC_CFG: enabling the port makes a TIME frame due (R448). -/
def State.writeTrcCfg (s : State) (v : Nat) : State :=
  let was := bit (s.reg rTrcCfg) 31
  let w := v &&& 0xFFFF8FFF
  let s := s.setReg rTrcCfg (if bits v 15 7 ≤ 95 then w else setBits w 15 7 (s.field rTrcCfg 15 7))
  if bit v 31 && !was then { s with obs := { s.obs with traceTimeDue := true } } else s

/-- OBS (Tables 15.7 to 15.9). A new period restarts the count of births (R443). -/
def State.writeObs (s : State) (off v : Nat) : State :=
  if off = rObsCtrl then s.writeObsCtrl v
  else if off = rObsStatus then s.writeW1c off 0xFFFF0008 v
  else if 0xE0100 ≤ off ∧ off < 0xE0300 then
    let k := (off - 0xE0100) / 32
    let c := (Tab.get s.obs.counters k ObsCnt.init).write (off % 32) v
    { s with obs := { s.obs with counters := Tab.put s.obs.counters k c } }
  else if off = rSmpCfg then s.writeSmpCfg v
  else if off = rSmpPeriod then
    let n := Nat.max 1 (v % 2 ^ 24)
    let s := if n = s.reg off then s else { s with obs := { s.obs with births := 0 } }
    s.setReg off n
  else if off = 0xE040C then s.writeSmpTail v
  else if off = rSmpWater then s.setReg off (clamp 1 4194303 (v % 2 ^ 23))
  else if off = rSmpWinSel then s.setReg off (v % 2 ^ 12)
  else if off = rTrcCfg then s.writeTrcCfg v
  else if off = rSmpDrop ∨ off = rTrcOpc ∨ off = rTrcOpc + 4 ∨ off = rTrcDrop then s.setReg off v
  else s

/-- SVC (Tables 16.8, 16.9). -/
def State.writeSvc (s : State) (off v : Nat) : State :=
  if off = rSvcCtrl then s.writeSvcCtrl v
  else if off = rSvcStatus then s.writeW1c off 0xC v
  else if off = rSvcErrors then s.setReg off v
  else s

/-- CMDQ (Tables 10.1, 10.2). -/
def State.writeCmdq (s : State) (off v : Nat) : State :=
  if off < 0x14000 then
    let q := (off - 0x10000) / 8
    match (off - 0x10000) % 8 with
    | 0 => if q < 1024 then s.writeSqTail q (bits v 0 16) else s
    | 4 => if q < 1024 then s.writeCqHead q (bits v 0 16) else s
    | _ => s
  else
    let q := (off - 0x14000) / 32
    if h : q < 1024 then s.writeQueueReg ⟨q, h⟩ ((off - 0x14000) % 32) v else s

/-- The DPA range of decoder `i` as its registers give it: it begins behind the ranges of the decoders before it and its own skip; the size
register counts host addresses, which the ways share. -/
def State.hdmRange (s : State) (i : Nat) : Nat × Nat :=
  let ways := 2 ^ bits (s.reg (rHdm i + 0x10)) 4 4
  let below := match Tab.find s.host.decoders (i - 1) with | some d => if i = 0 then 0 else d.base.toNat + d.size.toNat | none => 0
  (below + s.reg (rHdm i + 0x18) * 2 ^ 32 + s.reg (rHdm i + 0x14), (s.reg (rHdm i + 0x0C) * 2 ^ 32 + s.reg (rHdm i + 0x08)) / ways)

/-- A write to a register of an HDM decoder: Commit commits it, without Commit it is free again; while it is committed its other registers
stand (the CXL standard's layout, log 70). -/
def State.writeHdm (s : State) (i off v : Nat) : State :=
  let committed := (Tab.find s.host.decoders i).isSome
  if off = 0x10 then
    let s := s.setReg (rHdm i + 0x10) (v % 1024)
    if !bit v 9 then s.setHost { s.host with decoders := Tab.del s.host.decoders i }
    else if committed then s
    else
      let (base, size) := s.hdmRange i
      s.commitHdm i (BitVec.ofNat 64 base) (BitVec.ofNat 64 size) (2 ^ bits v 4 4) (256 * 2 ^ bits v 0 4)
  else if committed then s
  else s.setReg (rHdm i + off) (if off = 0x00 ∨ off = 0x08 then v / 2 ^ 28 * 2 ^ 28 else v)

/-- CXLC and CXLD while the link runs CXL (Table 8.5): the HDM decoders, and the primary mailbox's command and payload registers, which stand as
written; what a doorbell starts is the mailbox rows' (log 70). -/
def State.writeCxl (s : State) (off v : Nat) : State :=
  if !s.host.cxl then s
  else if off = 0x111104 then s.setReg off (v % 4)
  else if 0x111110 ≤ off ∧ off < 0x111190 then s.writeHdm ((off - 0x111110) / 0x20) ((off - 0x111110) % 0x20) v
  else if off = 0x121008 ∨ off = 0x12100C ∨ (0x121020 ≤ off ∧ off < 0x122020) then s.setReg off v
  else s

/-- BAR0 (Table 8.5): offsets no table assigns, and read-only registers, take no write (R8, R9, R279). -/
def State.writeBar0 (s : State) (off v : Nat) : State :=
  if off < 0x10000 then (if off = rDevFlagsChg then s.writeW1c off 0x3F v else s)
  else if off < 0x20000 then s.writeCmdq off v
  else if off < 0x30000 then s.writeIntc off v
  else if off < 0x40000 then s.writeArb off v
  else if off < 0x60000 then s.writeMedia off v
  else if off < 0x70000 then s.writeDrift off v
  else if off < 0x80000 then s.writeXlat off v
  else if off < 0x90000 then s.writeCache off v
  else if off < 0xB0000 then s.writeCtxWord off v
  else if off < 0xC0000 then s.writePwr off v
  else if off < 0xD0000 then s.writeTherm off v
  else if off < 0xE0000 then s.writePstore off v
  else if off < 0x100000 then s.writeObs off v
  else if off < 0x110000 then s.writeSvc off v
  else if off < 0x130000 then s.writeCxl off v
  else s

/-! ### Configuration space and MSI-X -/

/-- Where the model puts the registers of configuration space that PCI Express defines (logs 18, 69). -/
abbrev cfgBase : Nat := 0x1001000
abbrev cfgCommand : Nat := cfgBase + 0x04
abbrev cfgBar (i : Nat) : Nat := cfgBase + 0x10 + 4 * i
abbrev cfgDevCtl : Nat := cfgBase + 0x48
abbrev cfgDevCtl2 : Nat := cfgBase + 0x68
abbrev cfgRebar : Nat := cfgBase + 0x108
abbrev cfgL1ss : Nat := cfgBase + 0x120
abbrev cfgAer : Nat := cfgBase + 0x140
abbrev cfgLocator : Nat := cfgBase + 0x200

/-- Bits of a base that software may set: those at and above the size of its window. -/
def barMask (size : Nat) (lo : Bool) (v : Nat) : Nat :=
  if lo then (if size ≤ 32 then v / 2 ^ size * 2 ^ size % 2 ^ 32 else 0) else if size ≤ 32 then v else v / 2 ^ (size - 32) * 2 ^ (size - 32) % 2 ^ 32

/-- A half of a BAR, written. -/
def barWrite (bar : BitVec 64) (size : Nat) (lo : Bool) (v : Nat) : BitVec 64 :=
  BitVec.ofNat 64 (setBits bar.toNat (if lo then 0 else 32) 32 (barMask size lo v))

/-- The BARs (Table 8.4), by their register. -/
def State.writeBar (s : State) (i v : Nat) : State :=
  let h := s.host
  match i with
  | 0 => s.setHost { h with bar0 := barWrite h.bar0 24 true v }
  | 1 => s.setHost { h with bar0 := barWrite h.bar0 24 false v }
  | 2 => s.setHost { h with bar2 := barWrite h.bar2 h.barBits true v }
  | 3 => s.setHost { h with bar2 := barWrite h.bar2 h.barBits false v }
  | 4 => s.setHost { h with bar4 := barWrite h.bar4 16 true v }
  | 5 => s.setHost { h with bar4 := barWrite h.bar4 16 false v }
  | _ => s

/-- AER's registers (R291): status bits clear by a 1, masks and severities stand as written. -/
def State.writeAer (s : State) (off : Nat) (v : Word) : State :=
  let a := s.host.aer
  match off with
  | 0x04 => s.setHost { s.host with aer := { a with uncStatus := a.uncStatus &&& ~~~v } }
  | 0x08 => s.setHost { s.host with aer := { a with uncMask := v } }
  | 0x0C => s.setHost { s.host with aer := { a with uncSeverity := v } }
  | 0x10 => s.setHost { s.host with aer := { a with corStatus := a.corStatus &&& ~~~v } }
  | 0x14 => s.setHost { s.host with aer := { a with corMask := v } }
  | _ => s

/-- The host-port DVSEC's counters (Table 8.11), Memory Space and Bus Master Enable, the BARs, Max Payload Size of 128 to 512 bytes and Max
Read Request Size up to 4,096 bytes (R270), the Completion Timeout Value and its disable bit (R290), the size of BAR2/3, 256 MiB to 64 TiB
(R278), and AER. -/
def State.writeConfig (s : State) (off v : Nat) : State :=
  if off = rHpWdog ∨ off = rHpRefused ∨ off = rHpPoison ∨ off = rHpDowns then s.setReg off v
  else if off = cfgCommand then s.setHost { s.host with memSpace := bit v 1, busMaster := bit v 2 }
  else if cfgBar 0 ≤ off ∧ off ≤ cfgBar 5 then s.writeBar ((off - cfgBar 0) / 4) v
  else if off = cfgDevCtl then
    let h := s.host
    s.setHost { h with mps := if bits v 5 3 ≤ 2 then 128 * 2 ^ bits v 5 3 else h.mps, mrrs := if bits v 12 3 ≤ 5 then bits v 12 3 else h.mrrs }
  else if off = cfgDevCtl2 then s.setHost { s.host with ctoValue := bits v 0 4, ctoDisable := bit v 4 }
  else if off = cfgRebar then
    (if 8 ≤ bits v 8 6 ∧ bits v 8 6 ≤ 26 then s.setHost { s.host with barBits := bits v 8 6 + 20 } else s)
  else if cfgAer ≤ off ∧ off < cfgAer + 0x2C then s.writeAer (off - cfgAer) (BitVec.ofNat 32 v)
  else s

/-- The MSI-X table: address and data stand as written; unmasking a vector sends its pending message (R423). -/
def State.writeMsix (s : State) (off v : Nat) : State :=
  let i := (off - 0x2000000) / 16
  if 2048 ≤ i then s
  else if off % 16 = 12 then
    let h := s.host
    if bit v 0 then s.setHost { h with unmasked := h.unmasked.filter (fun x => x != i) }
    else
      let s := s.setHost { h with unmasked := if h.unmasked.contains i then h.unmasked else h.unmasked ++ [i]
                                  pba := h.pba.filter (fun x => x != i) }
      if h.pba.contains i then s.emit (.msix i) else s
  else if off % 4 = 0 then s.setReg off v
  else s

/-- A write of the word at an aligned offset. -/
def State.writeReg (s : State) (off v : Nat) : State :=
  if off % 4 ≠ 0 then s
  else if 0x2000000 ≤ off then (if s.barOpen then s.writeMsix off v else s)
  else if 0x1000000 ≤ off then (if s.host.up then s.writeConfig off v else s)
  else if s.barOpen then s.writeBar0 off v
  else s

/-- REGISTER_WRITE. -/
def execRegisterWrite (off : BitVec 26) (v : Word) (s : State) : Host.Outcome State Fault Refusal := s.done (s.writeReg off.toNat v.toNat)

end Sys2Proof.Machine
end

