-- ==== Sys2Proof/Machine/Therm.lean ====
section
/-! DEFINITION. Thermal management and the clocks of drift: junction samples, limits, DRAM refresh, the thermal-age tick and the
temperature poll (R109, R427-R436, R85). -/

namespace Sys2Proof.Machine

def State.setTherm (s : State) (t : Therm) : State := { s with therm := t }

/-- Junction limits in 1/16 °C: WARN, THROTTLE, CRIT (R430, R431). -/
def State.limits (s : State) : Int × Int × Int :=
  let v := if s.therm.accepted && s.dev.state != .held then s.reg rThermLimits else 0x0073695F
  (16 * (bits v 0 8 : Int), 16 * (bits v 8 8 : Int), 16 * (bits v 16 8 : Int))

/-- Whether the next sample reads the diode (R427, R428, R430). -/
def State.diodeNow (s : State) : Bool :=
  bit (s.reg rThermCtrl) 0 || s.therm.fallback || !s.therm.accepted || s.dev.state == .held || s.bd 0x100 1 == 1

/-- Sensor `i` of 24 in a ring. -/
def ring24 (l : List Int) (i : Nat) : Int := l.getD (i % 24) 0

/-- More than 10 °C from both raw ring neighbours (R428). -/
def suspect (l : List Int) (i : Nat) : Bool :=
  let x := ring24 l i
  decide (160 < (x - ring24 l (i + 23)).natAbs) && decide (160 < (x - ring24 l (i + 1)).natAbs)

/-- What a sensor gives to the maximum (R427, R428): its reading, nothing, or the higher neighbour plus 10 °C. -/
def sensorValue (l : List Int) (i : Nat) : Option Int :=
  let x := ring24 l i
  let a := ring24 l (i + 23)
  let b := ring24 l (i + 1)
  if !suspect l i then some x else if x < a ∧ x < b then some (max a b + 160) else none

/-- The junction temperature in array mode. -/
def junctionOf (l : List Int) : Int :=
  match (List.range 24).filterMap (sensorValue l) with
  | [] => 0
  | x :: r => r.foldl max x

/-- Suspect sensors: SUSPECT_SEEN and an event for each at its first time (R428). -/
def State.noteSuspects (s : State) (l : List Int) (xs : List Nat) : State :=
  let s := xs.foldl (fun s i =>
    if bit (s.reg rSuspectSeen) i then s
    else (s.setBit rSuspectSeen i).event portTherm 0x0B04 s.devicePath (le 1 i ++ leInt 2 (ring24 l i))) s
  if 4 ≤ xs.length ∧ s.therm.fallback = false then
    ((s.setTherm { s.therm with fallback := true, warnRun := 0, throttleRun := 0 }).setBit rThermStatus 8).event portTherm 0x0B05 s.devicePath (le 1 xs.length)
  else s

/-- One of the conditions WARN and THROTTLE at a sample: the new condition, its run, and whether it set or cleared (R431). -/
def judgeLimit (on : Bool) (run : Nat) (j lim : Int) : Bool × Nat × Bool :=
  if on then (if j < lim - 80 then (false, 0, true) else (true, 0, false))
  else if j < lim then (false, 0, false)
  else if 1 ≤ run then (true, 0, true)
  else (false, run + 1, false)

/-- WARN and THROTTLE at a junction reading (R431). The sample that falls back counts toward neither (Table 14.9). -/
def State.judgeJunction (s : State) (j : Int) (fell : Bool) : State :=
  let (w, t, _) := s.limits
  let (warn, wr, wc) := judgeLimit s.therm.warn s.therm.warnRun (if fell then min j (w - 1) else j) w
  let (thr, tr, tc) := judgeLimit s.therm.throttle s.therm.throttleRun (if fell then min j (t - 1) else j) t
  let s := s.setTherm { s.therm with warn := warn, warnRun := wr, throttle := thr, throttleRun := tr }
  let s := if wc then s.setBit rThermStatus 5 else s
  let s := if wc && warn then (s.bump rThermCounts 0 16 1).event portTherm 0x0B01 s.devicePath (leInt 2 j) else s
  let s := if tc then s.setBit rThermStatus 6 else s
  if tc && thr then (s.bump rThermCounts 16 16 1).event portTherm 0x0B02 s.devicePath (leInt 2 j) else s

/-- A sample at or above CRIT, acted on by state (R433); the first of a run is logged (R431, log 39). -/
def State.critical (s : State) (j : Int) (first : Bool) : State :=
  let s := s.setBit rThermStatus 7
  let s := if first then s.event portTherm 0x0B03 s.devicePath (leInt 2 j) else s
  let mark := s.setTherm { s.therm with critPowerDown := true }
  match s.dev.state with
  | .serving | .maintenance => mark.enterCinch .heat none
  | .powering | .held | .mounting | .fault => mark.offRequest
  | _ => s

/-- The temperature and band of a DRAM stack (R434, R435). -/
def State.dramTemp (s : State) (n : Nat) (t : Int) : State :=
  let b := nextBand (Tab.get s.therm.dramBand n 0) t
  let due := s.therm.refreshDue
  s.setTherm { s.therm with dramTemp := Tab.put s.therm.dramTemp n t, dramBand := Tab.put s.therm.dramBand n b
                            refreshDue := if b = 5 ∧ !due.contains n then due ++ [n] else due }

/-- THERMAL_SAMPLE: one junction sample (R427-R436). -/
def execThermalSample (sensors : List Int) (diode dram0 dram1 : Int) (s : State) : Host.Outcome State Fault Refusal :=
  if s.dev.state = .standby then s.done s
  else
    let dm := s.diodeNow
    let l := (sensors ++ List.replicate 24 0).take 24
    let xs := if dm then [] else (List.range 24).filter (suspect l)
    let j := if dm then diode else junctionOf l
    let was := s.therm.fallback
    let s1 := s.setTherm { s.therm with diodeMode := dm, junction := j, diode := if dm then diode else -2048 * 16
                                        sensors := if dm then [] else l, suspects := xs }
    let s1 := s1.noteSuspects l xs
    let s1 := s1.judgeJunction j (!was && s1.therm.fallback)
    let (w, t, c) := s1.limits
    let near := fun (x : Int) => decide ((j - x).natAbs ≤ 80)
    let s1 := s1.setTherm { s1.therm with fast := near w || near t || near c }
    let s1 := (s1.dramTemp 0 dram0).dramTemp 1 dram1
    s.done ((if c ≤ j then s1.critical j (decide (s.therm.junction < c)) else s1).judgeAll)

/-- DRAM_REFRESH: a refresh of a stack; after a fall from band 5 the 32 ms interval applies from it on (R435). -/
def execDramRefresh (stack : Fin 2) (s : State) : Host.Outcome State Fault Refusal :=
  s.done (if Tab.get s.therm.dramBand stack.val 0 = 5 then s
    else s.setTherm { s.therm with refreshDue := s.therm.refreshDue.filter (fun n => n != stack.val) })

/-- The addition of one tick to a die (R109): to its counter when it is restored, and to the sum that a restore adds. The factor that INFO
shows in 1/1,024 is rounded down, which R161 does not say (DESIGN CHOICE, log 64). -/
def State.ageDie (s : State) (k : Nat) : State :=
  let a := s.age k
  let (t, stale) := s.dieTemp k
  let add := ageTicks s.drift.profile.factors t 10
  let (n, d) := accel s.drift.profile.factors t
  s.setAge k { a with counter := if a.restored then Nat.min (2 ^ 56 - 1) (a.counter + add) else a.counter, holding := a.holding + add
                      stale := stale, factor := n / (4 * d), bandAt := a.band }

/-- THERMAL_AGE_TICK: 10 s of AON time (R109). -/
def execThermalAgeTick (s : State) : Host.Outcome State Fault Refusal :=
  let on := s.chans.filter (fun e => e.2.st == .ready || e.2.st == .retraining)
  let ks := (on.flatMap (fun e => (List.range 8).map (dieKey e.1))).filter (fun k => (s.ctlOf k).present)
  s.done (ks.foldl State.ageDie s).checkAges

/-- TEMP_POLL: every stored temperature is a period older, and GET_TEMP is owed to every online die of a READY channel (R85, R111). -/
def execTempPoll (s : State) : Host.Outcome State Fault Refusal :=
  let on := s.chans.filter (fun e => e.2.st == .ready || e.2.st == .retraining)
  let s1 := { s with ctl := s.ctl.map (fun (e : Nat × DieCtl) => (e.1, { e.2 with readPolls := e.2.readPolls.map (fun n => n + 1) })) }
  s.done (on.foldl (fun s e => (List.range 8).foldl (fun s d =>
    if (s.ctlOf (dieKey e.1 d)).online then s.owe e.1 (.getTemp d) else s) s) s1)

end Sys2Proof.Machine
end

