-- ==== Sys2Proof/Machine/Dispatch.lean ====
section
/-! DEFINITION. The dispatch of every command of spec/opcode_table.json to its meaning, in the order of the table. -/

namespace Sys2Proof.Machine

/-- The effect of a command on everything but the queue of waiting commands. -/
def exec (i : Instr) (s : State) : Host.Outcome State Fault Refusal :=
  match i with
  | .identify port pkt => Sys2Proof.Machine.execIdentify port pkt s
  | .getState port pkt => Sys2Proof.Machine.execGetState port pkt s
  | .getHealth port pkt => Sys2Proof.Machine.execGetHealth port pkt s
  | .setWalltime port pkt => Sys2Proof.Machine.execSetWalltime port pkt s
  | .enterMaintenance port pkt => Sys2Proof.Machine.execEnterMaintenance port pkt s
  | .leaveMaintenance port pkt => Sys2Proof.Machine.execLeaveMaintenance port pkt s
  | .prepareShelfDown port pkt => Sys2Proof.Machine.execPrepareShelfDown port pkt s
  | .abort port pkt => Sys2Proof.Machine.execAbort port pkt s
  | .ctxCreate port pkt => Sys2Proof.Machine.execCtxCreate port pkt s
  | .ctxModify port pkt => Sys2Proof.Machine.execCtxModify port pkt s
  | .ctxDelete port pkt => Sys2Proof.Machine.execCtxDelete port pkt s
  | .ctxQuery port pkt => Sys2Proof.Machine.execCtxQuery port pkt s
  | .keyLoad port pkt blob => Sys2Proof.Machine.execKeyLoad port pkt blob s
  | .keyDestroy port pkt => Sys2Proof.Machine.execKeyDestroy port pkt s
  | .cacheRangeClean port pkt => Sys2Proof.Machine.execCacheRangeClean port pkt s
  | .cacheRangeInvalidate port pkt => Sys2Proof.Machine.execCacheRangeInvalidate port pkt s
  | .cacheRangeDiscard port pkt => Sys2Proof.Machine.execCacheRangeDiscard port pkt s
  | .cacheRangeLock port pkt => Sys2Proof.Machine.execCacheRangeLock port pkt s
  | .cacheRangeUnlock port pkt => Sys2Proof.Machine.execCacheRangeUnlock port pkt s
  | .cacheRangePrefetch port pkt => Sys2Proof.Machine.execCacheRangePrefetch port pkt s
  | .cacheEnable port pkt => Sys2Proof.Machine.execCacheEnable port pkt s
  | .cacheDisable port pkt => Sys2Proof.Machine.execCacheDisable port pkt s
  | .cacheStatus port pkt => Sys2Proof.Machine.execCacheStatus port pkt s
  | .unmapRange port pkt => Sys2Proof.Machine.execUnmapRange port pkt s
  | .zeroRange port pkt => Sys2Proof.Machine.execZeroRange port pkt s
  | .mapQuery port pkt => Sys2Proof.Machine.execMapQuery port pkt s
  | .pinSegments port pkt => Sys2Proof.Machine.execPinSegments port pkt s
  | .unpinSegments port pkt => Sys2Proof.Machine.execUnpinSegments port pkt s
  | .getHoles port pkt => Sys2Proof.Machine.execGetHoles port pkt s
  | .clearReadOnly port pkt => Sys2Proof.Machine.execClearReadOnly port pkt s
  | .scrubNow port pkt => Sys2Proof.Machine.execScrubNow port pkt s
  | .burnishNow port pkt => Sys2Proof.Machine.execBurnishNow port pkt s
  | .refreshNow port pkt => Sys2Proof.Machine.execRefreshNow port pkt s
  | .retireUnit port pkt => Sys2Proof.Machine.execRetireUnit port pkt s
  | .restoreUnit port pkt => Sys2Proof.Machine.execRestoreUnit port pkt s
  | .mediaReport port pkt => Sys2Proof.Machine.execMediaReport port pkt s
  | .retentionReport port pkt => Sys2Proof.Machine.execRetentionReport port pkt s
  | .powerStatus port pkt => Sys2Proof.Machine.execPowerStatus port pkt s
  | .holdupMeasure port pkt => Sys2Proof.Machine.execHoldupMeasure port pkt s
  | .setLimits port pkt => Sys2Proof.Machine.execSetLimits port pkt s
  | .boardGet port pkt => Sys2Proof.Machine.execBoardGet port pkt s
  | .boardSet port pkt data => Sys2Proof.Machine.execBoardSet port pkt data s
  | .boardCommit port pkt => Sys2Proof.Machine.execBoardCommit port pkt s
  | .paramGet port pkt => Sys2Proof.Machine.execParamGet port pkt s
  | .paramSet port pkt => Sys2Proof.Machine.execParamSet port pkt s
  | .counterConfig port pkt => Sys2Proof.Machine.execCounterConfig port pkt s
  | .counterRead port pkt => Sys2Proof.Machine.execCounterRead port pkt s
  | .sampleConfig port pkt => Sys2Proof.Machine.execSampleConfig port pkt s
  | .eventRead port pkt => Sys2Proof.Machine.execEventRead port pkt s
  | .eventClear port pkt => Sys2Proof.Machine.execEventClear port pkt s
  | .imageStage port pkt chunk => Sys2Proof.Machine.execImageStage port pkt chunk s
  | .imageStatus port pkt => Sys2Proof.Machine.execImageStatus port pkt s
  | .imageActivate port pkt => Sys2Proof.Machine.execImageActivate port pkt s
  | .imageDiscard port pkt => Sys2Proof.Machine.execImageDiscard port pkt s
  | .harnessJoin port pkt => Sys2Proof.Machine.execHarnessJoin port pkt s
  | .harnessLeave port pkt => Sys2Proof.Machine.execHarnessLeave port pkt s
  | .harnessQuery port pkt => Sys2Proof.Machine.execHarnessQuery port pkt s
  | .sqTailDoorbell q v => Sys2Proof.Machine.execSqTailDoorbell q v s
  | .cqHeadDoorbell q v => Sys2Proof.Machine.execCqHeadDoorbell q v s
  | .queueEnable q v => Sys2Proof.Machine.execQueueEnable q v s
  | .queueDisable q v => Sys2Proof.Machine.execQueueDisable q v s
  | .sqFetch read => Sys2Proof.Machine.execSqFetch read s
  | .completionPost q => Sys2Proof.Machine.execCompletionPost q s
  | .coalesceTimeout q => Sys2Proof.Machine.execCoalesceTimeout q s
  | .retrainAll v => Sys2Proof.Machine.execRetrainAll v s
  | .retrain ch v => Sys2Proof.Machine.execRetrain ch v s
  | .reseed => Sys2Proof.Machine.execReseed s
  | .customChange ch custom => Sys2Proof.Machine.execCustomChange ch custom s
  | .reassess v reads => Sys2Proof.Machine.execReassess v reads s
  | .learnClear v => Sys2Proof.Machine.execLearnClear v s
  | .weltNow v => Sys2Proof.Machine.execWeltNow v s
  | .dirPeek index crcOk => Sys2Proof.Machine.execDirPeek index crcOk s
  | .cacheCtrlEnable v => Sys2Proof.Machine.execCacheCtrlEnable v s
  | .cacheCtrlDisable v => Sys2Proof.Machine.execCacheCtrlDisable v s
  | .rangeGoClean v => Sys2Proof.Machine.execRangeGoClean v s
  | .rangeGoInvalidate v => Sys2Proof.Machine.execRangeGoInvalidate v s
  | .rangeGoDiscard v => Sys2Proof.Machine.execRangeGoDiscard v s
  | .rangeGoLock v => Sys2Proof.Machine.execRangeGoLock v s
  | .rangeGoUnlock v => Sys2Proof.Machine.execRangeGoUnlock v s
  | .rangeGoPrefetch v => Sys2Proof.Machine.execRangeGoPrefetch v s
  | .measure => Sys2Proof.Machine.execMeasure s
  | .offReq => Sys2Proof.Machine.execOffReq s
  | .fifoFlush v => Sys2Proof.Machine.execFifoFlush v s
  | .slotSnap v => Sys2Proof.Machine.execSlotSnap v s
  | .slotClear v => Sys2Proof.Machine.execSlotClear v s
  | .cntClear v => Sys2Proof.Machine.execCntClear v s
  | .sampleRingClear v => Sys2Proof.Machine.execSampleRingClear v s
  | .sampleTailWrite v => Sys2Proof.Machine.execSampleTailWrite v s
  | .counterLoRead k => Sys2Proof.Machine.execCounterLoRead k s
  | .ageLoRead ch d => Sys2Proof.Machine.execAgeLoRead ch d s
  | .claim t => Sys2Proof.Machine.execClaim t s
  | .eoi t v => Sys2Proof.Machine.execEoi t v s
  | .softSet v => Sys2Proof.Machine.execSoftSet v s
  | .registerWrite off v => Sys2Proof.Machine.execRegisterWrite off v s
  | .linkTraining rate width flit cxl => Sys2Proof.Machine.execLinkTraining rate width flit cxl s
  | .hostPortReset cause => Sys2Proof.Machine.execHostPortReset cause s
  | .aspmL1Entry => Sys2Proof.Machine.execAspmL1Entry s
  | .pmStateChange d3hot => Sys2Proof.Machine.execPmStateChange d3hot s
  | .memoryWindowRead addr len tag ev => Sys2Proof.Machine.execMemoryWindowRead addr len tag ev s
  | .memoryWindowWrite addr data ep ev => Sys2Proof.Machine.execMemoryWindowWrite addr data ep ev s
  | .zeroLengthRead addr tag => Sys2Proof.Machine.execZeroLengthRead addr tag s
  | .bar0BadAccess write tag => Sys2Proof.Machine.execBar0BadAccess write tag s
  | .readWatchdog slot => Sys2Proof.Machine.execReadWatchdog slot s
  | .tackLate slot => Sys2Proof.Machine.execTackLate slot s
  | .cxlMemRd hpa tag ev => Sys2Proof.Machine.execCxlMemRd hpa tag ev s
  | .cxlMemWr hpa data poison ev => Sys2Proof.Machine.execCxlMemWr hpa data poison ev s
  | .cxlMemSpecRd hpa taken => Sys2Proof.Machine.execCxlMemSpecRd hpa taken s
  | .hdmDecoderCommit n dpaBase size ways gran => Sys2Proof.Machine.execHdmDecoderCommit n dpaBase size ways gran s
  | .cxlGpf => Sys2Proof.Machine.execCxlGpf s
  | .gpfLate ms => Sys2Proof.Machine.execGpfLate ms s
  | .cxlIdentifyMemoryDevice => Sys2Proof.Machine.execCxlIdentifyMemoryDevice s
  | .cxlGetHealthInfo => Sys2Proof.Machine.execCxlGetHealthInfo s
  | .cxlGetPoisonList dpa len => Sys2Proof.Machine.execCxlGetPoisonList dpa len s
  | .cxlSetTimestamp ns => Sys2Proof.Machine.execCxlSetTimestamp ns s
  | .cxlGetEventRecords log => Sys2Proof.Machine.execCxlGetEventRecords log s
  | .cxlClearEventRecords log count => Sys2Proof.Machine.execCxlClearEventRecords log count s
  | .svcRequest body pecOk => Sys2Proof.Machine.execSvcRequest body pecOk s
  | .svcData body pecOk => Sys2Proof.Machine.execSvcData body pecOk s
  | .setEndpointId eid => Sys2Proof.Machine.execSetEndpointId eid s
  | .getEndpointId => Sys2Proof.Machine.execGetEndpointId s
  | .getMctpVersionSupport => Sys2Proof.Machine.execGetMctpVersionSupport s
  | .getMessageTypeSupport => Sys2Proof.Machine.execGetMessageTypeSupport s
  | .getVendorDefinedMessageSupport => Sys2Proof.Machine.execGetVendorDefinedMessageSupport s
  | .entdaa addr pecOk => Sys2Proof.Machine.execEntdaa addr pecOk s
  | .setdasa addr pecOk => Sys2Proof.Machine.execSetdasa addr pecOk s
  | .rstdaa => Sys2Proof.Machine.execRstdaa s
  | .fifoTimeout => Sys2Proof.Machine.execFifoTimeout s
  | .imageVerify good => Sys2Proof.Machine.execImageVerify good s
  | .activationPauseLimit => Sys2Proof.Machine.execActivationPauseLimit s
  | .onRequest darkSeconds => Sys2Proof.Machine.execOnRequest darkSeconds s
  | .shelfEnLow => Sys2Proof.Machine.execShelfEnLow s
  | .adcConversion mv => Sys2Proof.Machine.execAdcConversion mv s
  | .railTimeout => Sys2Proof.Machine.execRailTimeout s
  | .powerDown => Sys2Proof.Machine.execPowerDown s
  | .channelStartTimeout ch => Sys2Proof.Machine.execChannelStartTimeout ch s
  | .measurementTimeout => Sys2Proof.Machine.execMeasurementTimeout s
  | .measurementPeriod => Sys2Proof.Machine.execMeasurementPeriod s
  | .measurementDrainDone => Sys2Proof.Machine.execMeasurementDrainDone s
  | .drainTimeout => Sys2Proof.Machine.execDrainTimeout s
  | .energyEstimate => Sys2Proof.Machine.execEnergyEstimate s
  | .pfw => Sys2Proof.Machine.execPfw s
  | .pfwRearm => Sys2Proof.Machine.execPfwRearm s
  | .aonSwitch mv => Sys2Proof.Machine.execAonSwitch mv s
  | .aonReturn => Sys2Proof.Machine.execAonReturn s
  | .aonReset cut evt => Sys2Proof.Machine.execAonReset cut evt s
  | .aonBoot => Sys2Proof.Machine.execAonBoot s
  | .pllLost => Sys2Proof.Machine.execPllLost s
  | .pllHoldoverExpiry => Sys2Proof.Machine.execPllHoldoverExpiry s
  | .cinchAcceptEnd => Sys2Proof.Machine.execCinchAcceptEnd s
  | .cinchWritebackComplete => Sys2Proof.Machine.execCinchWritebackComplete s
  | .cinchParityComplete => Sys2Proof.Machine.execCinchParityComplete s
  | .cinchJournalComplete => Sys2Proof.Machine.execCinchJournalComplete s
  | .cinchDeltaCommitted => Sys2Proof.Machine.execCinchDeltaCommitted s
  | .cinchBudgetExpiry => Sys2Proof.Machine.execCinchBudgetExpiry s
  | .critLockoutEnd => Sys2Proof.Machine.execCritLockoutEnd s
  | .thermalSample sensors diode dram0 dram1 => Sys2Proof.Machine.execThermalSample sensors diode dram0 dram1 s
  | .dramRefresh stack => Sys2Proof.Machine.execDramRefresh stack s
  | .thermalAgeTick => Sys2Proof.Machine.execThermalAgeTick s
  | .tempPoll => Sys2Proof.Machine.execTempPoll s
  | .arbDraw ch withdraws => Sys2Proof.Machine.execArbDraw ch withdraws s
  | .housekeepingWindow ch temp => Sys2Proof.Machine.execHousekeepingWindow ch temp s
  | .senseIssue ch d guardOver => Sys2Proof.Machine.execSenseIssue ch d guardOver s
  | .loadComplete ch crcOk => Sys2Proof.Machine.execLoadComplete ch crcOk s
  | .xferComplete ch crcOk hist => Sys2Proof.Machine.execXferComplete ch crcOk hist s
  | .decodeDone slot out => Sys2Proof.Machine.execDecodeDone slot out s
  | .stitchRebuild slot lost => Sys2Proof.Machine.execStitchRebuild slot lost s
  | .dieTimeout ch d withinHour => Sys2Proof.Machine.execDieTimeout ch d withinHour s
  | .alertAsserted ch reports internal => Sys2Proof.Machine.execAlertAsserted ch reports internal s
  | .alertStuck ch => Sys2Proof.Machine.execAlertStuck ch s
  | .alertStuckEnd ch => Sys2Proof.Machine.execAlertStuckEnd ch s
  | .retrainDone ch ok trim deskew ck temps => Sys2Proof.Machine.execRetrainDone ch ok trim deskew ck temps s
  | .amc2Reset ch d => Sys2Proof.Machine.execAmc2Reset ch d s
  | .amc2Identify ch d mod => Sys2Proof.Machine.execAmc2Identify ch d mod s
  | .amc2Status ch d mod => Sys2Proof.Machine.execAmc2Status ch d mod s
  | .amc2StatusScan ch mod => Sys2Proof.Machine.execAmc2StatusScan ch mod s
  | .amc2GetTemp ch d mod temp => Sys2Proof.Machine.execAmc2GetTemp ch d mod temp s
  | .amc2TrainRdPattern ch d mod => Sys2Proof.Machine.execAmc2TrainRdPattern ch d mod s
  | .amc2TrainWrStore ch d mod data => Sys2Proof.Machine.execAmc2TrainWrStore ch d mod data s
  | .amc2TrainRdStore ch d mod => Sys2Proof.Machine.execAmc2TrainRdStore ch d mod s
  | .amc2TrainConfig ch d mod word => Sys2Proof.Machine.execAmc2TrainConfig ch d mod word s
  | .amc2SetRef ch d mod words => Sys2Proof.Machine.execAmc2SetRef ch d mod words s
  | .amc2ReadPageSense ch d mod c1 c2 => Sys2Proof.Machine.execAmc2ReadPageSense ch d mod c1 c2 s
  | .amc2ReadPageXfer ch d mod c1 => Sys2Proof.Machine.execAmc2ReadPageXfer ch d mod c1 s
  | .amc2ReadSoftSense ch d mod c1 c2 c3 => Sys2Proof.Machine.execAmc2ReadSoftSense ch d mod c1 c2 c3 s
  | .amc2ReadSoftXfer ch d mod c1 => Sys2Proof.Machine.execAmc2ReadSoftXfer ch d mod c1 s
  | .amc2ReadHistSense ch d mod c1 c2 => Sys2Proof.Machine.execAmc2ReadHistSense ch d mod c1 c2 s
  | .amc2ReadHistXfer ch d mod c1 => Sys2Proof.Machine.execAmc2ReadHistXfer ch d mod c1 s
  | .amc2ProgramLoad ch d mod c1 c2 c3 data crc => Sys2Proof.Machine.execAmc2ProgramLoad ch d mod c1 c2 c3 data crc s
  | .amc2ProgramStart ch d mod c1 c2 c3 => Sys2Proof.Machine.execAmc2ProgramStart ch d mod c1 c2 c3 s
  | .amc2Erase ch d mod c1 => Sys2Proof.Machine.execAmc2Erase ch d mod c1 s
  | .amc2Suspend ch d mod => Sys2Proof.Machine.execAmc2Suspend ch d mod s
  | .amc2Resume ch d mod => Sys2Proof.Machine.execAmc2Resume ch d mod s
  | .amc2FrameAbort ch d => Sys2Proof.Machine.execAmc2FrameAbort ch d s
  | .dieSenseEnd ch d => Sys2Proof.Machine.execDieSenseEnd ch d s
  | .dieProgramEnd ch d fail => Sys2Proof.Machine.execDieProgramEnd ch d fail s
  | .dieEraseEnd ch d fail => Sys2Proof.Machine.execDieEraseEnd ch d fail s
  | .dieSuspendEnd ch d => Sys2Proof.Machine.execDieSuspendEnd ch d s
  | .dieResetEnd ch d => Sys2Proof.Machine.execDieResetEnd ch d s
  | .diePor ch d => Sys2Proof.Machine.execDiePor ch d s
  | .stitchForm copy => Sys2Proof.Machine.execStitchForm copy s
  | .memberProgram stitch member => Sys2Proof.Machine.execMemberProgram stitch member s
  | .padTimeout stitch member => Sys2Proof.Machine.execPadTimeout stitch member s
  | .parityRowProgram stitch => Sys2Proof.Machine.execParityRowProgram stitch s
  | .burnishMember stitch member => Sys2Proof.Machine.execBurnishMember stitch member s
  | .burnishResult stitch member badPlanes corrMax => Sys2Proof.Machine.execBurnishResult stitch member badPlanes corrMax s
  | .skiverVictimSelect => Sys2Proof.Machine.execSkiverVictimSelect s
  | .skiverCopyProgram => Sys2Proof.Machine.execSkiverCopyProgram s
  | .victimErase => Sys2Proof.Machine.execVictimErase s
  | .refreshJob => Sys2Proof.Machine.execRefreshJob s
  | .scrubPatrol dieBlock corrected step => Sys2Proof.Machine.execScrubPatrol dieBlock corrected step s
  | .systemCopyRefresh => Sys2Proof.Machine.execSystemCopyRefresh s
  | .wearSnapshot => Sys2Proof.Machine.execWearSnapshot s
  | .segReadDone seg badPrimary badMirror => Sys2Proof.Machine.execSegReadDone seg badPrimary badMirror s
  | .segWrite seg => Sys2Proof.Machine.execSegWrite seg s
  | .leafMapAppend => Sys2Proof.Machine.execLeafMapAppend s
  | .jrnWindowExpiry => Sys2Proof.Machine.execJrnWindowExpiry s
  | .journalRingErase stream block => Sys2Proof.Machine.execJournalRingErase stream block s
  | .weltStart => Sys2Proof.Machine.execWeltStart s
  | .weltPeriodExpiry => Sys2Proof.Machine.execWeltPeriodExpiry s
  | .weltDone => Sys2Proof.Machine.execWeltDone s
  | .dirLineRebuild line out => Sys2Proof.Machine.execDirLineRebuild line out s
  | .dirPatrol line found => Sys2Proof.Machine.execDirPatrol line found s
  | .bootAttempt parts => Sys2Proof.Machine.execBootAttempt parts s
  | .bootReady => Sys2Proof.Machine.execBootReady s
  | .bootAttemptTimeout => Sys2Proof.Machine.execBootAttemptTimeout s
  | .mountWeltChoice reads => Sys2Proof.Machine.execMountWeltChoice reads s
  | .brandPass1 reads => Sys2Proof.Machine.execBrandPass1 reads s
  | .journalReplay => Sys2Proof.Machine.execJournalReplay s
  | .directoryWrite => Sys2Proof.Machine.execDirectoryWrite s
  | .brandPass2Die die => Sys2Proof.Machine.execBrandPass2Die die s
  | .writebackStart => Sys2Proof.Machine.execWritebackStart s
  | .wbAgeExpiry => Sys2Proof.Machine.execWbAgeExpiry s
  | .allocationRetry => Sys2Proof.Machine.execAllocationRetry s
  | .tagRebuild set way copies => Sys2Proof.Machine.execTagRebuild set way copies s
  | .rangeEngineLeaf => Sys2Proof.Machine.execRangeEngineLeaf s
  | .cacheDrainDone => Sys2Proof.Machine.execCacheDrainDone s
  | .harnessPush => Sys2Proof.Machine.execHarnessPush s
  | .harnessPushReadback r => Sys2Proof.Machine.execHarnessPushReadback r s
  | .harnessLeaderRead => Sys2Proof.Machine.execHarnessLeaderRead s
  | .cleanShutdown => Sys2Proof.Machine.execCleanShutdown s
  | .eventGrant => Sys2Proof.Machine.execEventGrant s
  | .opSecondsTick => Sys2Proof.Machine.execOpSecondsTick s
  | .opSecondsSave => Sys2Proof.Machine.execOpSecondsSave s
  | .evtOverflowSave => Sys2Proof.Machine.execEvtOverflowSave s
  | .counterOverflow k inc => Sys2Proof.Machine.execCounterOverflow k inc s
  | .sampleEntryWrite times => Sys2Proof.Machine.execSampleEntryWrite times s
  | .sampleWriteTimeout => Sys2Proof.Machine.execSampleWriteTimeout s
  | .traceFrameSend => Sys2Proof.Machine.execTraceFrameSend s
  | .traceTime cycles => Sys2Proof.Machine.execTraceTime cycles s
  | .completionTimeout who => Sys2Proof.Machine.execCompletionTimeout who s
  | .evtWinRead off => Sys2Proof.Machine.execEvtWinRead off s
  | .ecrcError => Sys2Proof.Machine.execEcrcError s
  | .malformedTlp => Sys2Proof.Machine.execMalformedTlp s
  | .unsupportedFeatureRequest tag => Sys2Proof.Machine.execUnsupportedFeatureRequest tag s
  | .mailboxUnsupportedOpcode opcode => Sys2Proof.Machine.execMailboxUnsupportedOpcode opcode s
  | .otherMessageType ty => Sys2Proof.Machine.execOtherMessageType ty s

end Sys2Proof.Machine
end

