-- ==== Sys2Proof/Safety.lean ====
section
/-! DEFINITION. What claims about the block are said in: what a step's end can bring along of itself (`State.Trails`), and the
invariants of the state. -/

namespace Sys2Proof.Machine

/-- The registers that a change of state elsewhere can change at the end of a step: DEV_FLAGS_CHG (Table 1.12), and OBS_STATUS
and OBS_CTRL by an overflow (R440). -/
abbrev trailRegs : List Nat := [rDevFlagsChg, rObsStatus, rObsCtrl]

/-- What of a route no event elsewhere changes: all but its edge. -/
def Route.lasting (r : Route) : Nat × Nat × Bool × Nat := (r.prio, r.target, r.active, r.activeAt)

/-- What of a target no event elsewhere changes: all but whether a notification is outstanding. -/
def Target.lasting (x : Target) : Nat × List Nat × Bool × Nat × Bool := (x.runPrio, x.stack, x.enable, x.vector, x.eoiErr)

/-- `t` is `s` but for what follows from a change of state in the same step: commands and range operations that have come to
their ends, completions, messages and interrupts, counts, the change bits of DEV_FLAGS. All that this leaves alone is named. -/
structure State.Trails (s t : State) : Prop where
  pending : t.pending = s.pending
  nonce : t.nonce = s.nonce
  out : s.out <+: t.out
  reg : ∀ off, off ∉ trailRegs → t.reg off = s.reg off
  dev : t.dev = s.dev
  tacks : t.tacks = s.tacks
  unborn : t.unborn = s.unborn
  serial : t.serial = s.serial
  chans : t.chans = s.chans
  dies : t.dies = s.dies
  ctl : t.ctl = s.ctl
  media : t.media = s.media
  anyBlocks : t.anyBlocks = s.anyBlocks
  progSeq : t.progSeq = s.progSeq
  life : t.life = s.life
  arbs : t.arbs = s.arbs
  drift : t.drift = s.drift
  store : t.store = s.store
  routes : ∀ id, (Tab.find t.intc.host id).map Route.lasting = (Tab.find s.intc.host id).map Route.lasting
  targets : ∀ k, (Tab.get t.intc.targets k Target.init).lasting = (Tab.get s.intc.targets k Target.init).lasting
  coreTargets : t.intc.coreTargets = s.intc.coreTargets
  therm : t.therm = s.therm
  obs : { t.obs with counters := s.obs.counters } = s.obs
  xlat : t.xlat = s.xlat
  blocks : t.blocks = s.blocks
  dirtyList : t.cache.dirtyList = s.cache.dirtyList
  commits : t.cache.commits = s.cache.commits
  requests : t.cache.requests = s.cache.requests
  ceiling : t.cache.ceiling = s.cache.ceiling
  frozen : t.cache.frozen = s.cache.frozen
  lineData : t.cache.lines.map (fun e => (e.1, e.2.leaf, e.2.valid, e.2.dirty, e.2.poison, e.2.data))
    = s.cache.lines.map (fun e => (e.1, e.2.leaf, e.2.valid, e.2.dirty, e.2.poison, e.2.data))
  ctxs : t.ctxs = s.ctxs
  harness : t.harness = s.harness
  host : { t.host with pba := s.host.pba } = s.host
  fetching : t.cmdq.stopped = s.cmdq.stopped ∧ t.cmdq.nextId = s.cmdq.nextId ∧ t.cmdq.turn = s.cmdq.turn ∧ t.cmdq.turnLeft = s.cmdq.turnLeft
  power : { t.power with shutdown := s.power.shutdown } = s.power
  boot : { t.boot with step := s.boot.step } = s.boot
  img : { t.img with st := s.img.st } = s.img
  svc : t.svc = s.svc

/-- Command `c` at `s` answers a next state, and that state is `x` but for what follows from the change in the same step: `x` is
the command's own effect, and says with `State.Trails` what the command leaves alone. -/
def Effect (c : Instr) (s x : State) : Prop := ∃ t, exec c s = .next t ∧ x.Trails t

/-- Command `c` at `s` answers a next state of which `p` holds. -/
def Answers (c : Instr) (s : State) (p : State → Prop) : Prop := ∃ t, exec c s = .next t ∧ p t

/-! ### Invariants -/

/-- The event log holds no more than its places, and no port more than its queue (R407, R408, R411). -/
def State.LogOk (s : State) : Prop := s.store.evCount ≤ 2048 ∧ ∀ p, (Tab.get s.store.ports p []).length ≤ 4

/-- A die as R62, R69 and R70 leave it: SUSP_COUNT at most 16, and below 16 while a program is being suspended; the operation of
each state that has one; every loaded threshold set of 15 thresholds strictly ascending below 1,024. -/
structure Die.Ok (d : Die) : Prop where
  count : d.suspCount ≤ 16
  room : d.st = .suspending → ∀ o, d.op = some o → o.erase = false → d.suspCount < 16
  program : d.st = .prog → ∃ o, d.op = some o ∧ o.erase = false
  erase : d.st = .erase → ∃ o, d.op = some o ∧ o.erase = true
  held : d.st = .suspending ∨ d.st = .susp → d.op.isSome = true
  refs : ∀ e ∈ d.refs, e.2.length = 15 ∧ e.2.Pairwise (fun a b => a < b) ∧ ∀ x ∈ e.2, x < 1024

/-- Every die is so. -/
def State.DiesOk (s : State) : Prop := ∀ k, (s.die k).Ok

end Sys2Proof.Machine
end

