-- ==== Sys2Proof/WellFormed.lean ====
section
/-! DEFINITION. Which commands are well formed: the operands that a row cannot have otherwise. A command that is not well formed
stands for no event; the machine takes it all the same, and its meaning says what it then does. -/

namespace Sys2Proof

/-- A packet of a given opcode (R329). -/
def opcodeIs (code : Nat) (pkt : Packet) : Bool := pkt.toNat % 256 == code

/-- A read of host memory answers the bytes asked for, or fails. -/
def HostRead.sized (r : HostRead) (n : Nat) : Bool :=
  match r with
  | .bytes b => b.length == n
  | .failed => true

/-- A sector is listed once at most, with erroneous bytes among its 72 (R244). -/
def AccessEv.wf (e : AccessEv) : Bool :=
  decide ((e.sectors.map (fun x => x.1)).Nodup) && e.sectors.all (fun x => decide (0 < x.2) && decide (x.2 ≤ 72))

/-- Whether a command is well formed: its packet is of its row, data has the length that its frame, page, blob or request carries, an
offset is aligned, a number is inside its range. -/
def Instr.wf (i : Instr) : Bool :=
  match i with
  | .identify _ pkt => opcodeIs 0x01 pkt
  | .getState _ pkt => opcodeIs 0x02 pkt
  | .getHealth _ pkt => opcodeIs 0x03 pkt
  | .setWalltime _ pkt => opcodeIs 0x04 pkt
  | .enterMaintenance _ pkt => opcodeIs 0x05 pkt
  | .leaveMaintenance _ pkt => opcodeIs 0x06 pkt
  | .prepareShelfDown _ pkt => opcodeIs 0x07 pkt
  | .abort _ pkt => opcodeIs 0x08 pkt
  | .ctxCreate _ pkt => opcodeIs 0x10 pkt
  | .ctxModify _ pkt => opcodeIs 0x11 pkt
  | .ctxDelete _ pkt => opcodeIs 0x12 pkt
  | .ctxQuery _ pkt => opcodeIs 0x13 pkt
  | .keyLoad _ pkt blob => opcodeIs 0x14 pkt && blob.sized 80
  | .keyDestroy _ pkt => opcodeIs 0x15 pkt
  | .cacheRangeClean _ pkt => opcodeIs 0x20 pkt && (pkt.toNat / 2 ^ 320 % 256 == 0 || decide (5 < pkt.toNat / 2 ^ 320 % 256))
  | .cacheRangeInvalidate _ pkt => opcodeIs 0x20 pkt && pkt.toNat / 2 ^ 320 % 256 == 1
  | .cacheRangeDiscard _ pkt => opcodeIs 0x20 pkt && pkt.toNat / 2 ^ 320 % 256 == 2
  | .cacheRangeLock _ pkt => opcodeIs 0x20 pkt && pkt.toNat / 2 ^ 320 % 256 == 3
  | .cacheRangeUnlock _ pkt => opcodeIs 0x20 pkt && pkt.toNat / 2 ^ 320 % 256 == 4
  | .cacheRangePrefetch _ pkt => opcodeIs 0x20 pkt && pkt.toNat / 2 ^ 320 % 256 == 5
  | .cacheEnable _ pkt => opcodeIs 0x21 pkt
  | .cacheDisable _ pkt => opcodeIs 0x22 pkt
  | .cacheStatus _ pkt => opcodeIs 0x23 pkt
  | .unmapRange _ pkt => opcodeIs 0x30 pkt
  | .zeroRange _ pkt => opcodeIs 0x31 pkt
  | .mapQuery _ pkt => opcodeIs 0x32 pkt
  | .pinSegments _ pkt => opcodeIs 0x33 pkt
  | .unpinSegments _ pkt => opcodeIs 0x34 pkt
  | .getHoles _ pkt => opcodeIs 0x35 pkt
  | .clearReadOnly _ pkt => opcodeIs 0x36 pkt
  | .scrubNow _ pkt => opcodeIs 0x40 pkt
  | .burnishNow _ pkt => opcodeIs 0x41 pkt
  | .refreshNow _ pkt => opcodeIs 0x42 pkt
  | .retireUnit _ pkt => opcodeIs 0x43 pkt
  | .restoreUnit _ pkt => opcodeIs 0x44 pkt
  | .mediaReport _ pkt => opcodeIs 0x45 pkt
  | .retentionReport _ pkt => opcodeIs 0x46 pkt
  | .powerStatus _ pkt => opcodeIs 0x50 pkt
  | .holdupMeasure _ pkt => opcodeIs 0x51 pkt
  | .setLimits _ pkt => opcodeIs 0x52 pkt
  | .boardGet _ pkt => opcodeIs 0x60 pkt
  | .boardSet _ pkt data => opcodeIs 0x61 pkt && data.sized (pkt.toNat / 2 ^ 224 % 2 ^ 32)
  | .boardCommit _ pkt => opcodeIs 0x62 pkt
  | .paramGet _ pkt => opcodeIs 0x63 pkt
  | .paramSet _ pkt => opcodeIs 0x64 pkt
  | .counterConfig _ pkt => opcodeIs 0x70 pkt
  | .counterRead _ pkt => opcodeIs 0x71 pkt
  | .sampleConfig _ pkt => opcodeIs 0x72 pkt
  | .eventRead _ pkt => opcodeIs 0x73 pkt
  | .eventClear _ pkt => opcodeIs 0x74 pkt
  | .imageStage _ pkt _ => opcodeIs 0x80 pkt
  | .imageStatus _ pkt => opcodeIs 0x81 pkt
  | .imageActivate _ pkt => opcodeIs 0x82 pkt
  | .imageDiscard _ pkt => opcodeIs 0x83 pkt
  | .harnessJoin _ pkt => opcodeIs 0x90 pkt
  | .harnessLeave _ pkt => opcodeIs 0x91 pkt
  | .harnessQuery _ pkt => opcodeIs 0x92 pkt
  | .sqTailDoorbell _ _ | .cqHeadDoorbell _ _ | .queueEnable _ _ | .queueDisable _ _ | .sqFetch _ | .completionPost _
  | .coalesceTimeout _ | .retrainAll _ | .retrain _ _ | .reseed | .customChange _ _ => true
  | .reassess _ _ | .learnClear _ | .weltNow _ | .dirPeek _ _ | .cacheCtrlEnable _ | .cacheCtrlDisable _ | .rangeGoClean _
  | .rangeGoInvalidate _ | .rangeGoDiscard _ | .rangeGoLock _ | .rangeGoUnlock _ | .rangeGoPrefetch _ | .measure
  | .offReq | .fifoFlush _ | .slotSnap _ | .slotClear _ | .cntClear _ | .sampleRingClear _ | .sampleTailWrite _
  | .counterLoRead _ | .ageLoRead _ _ | .claim _ | .eoi _ _ | .softSet _ => true
  | .registerWrite off _ => off.toNat % 4 == 0
  | .linkTraining rate width _ _ => decide (1 ≤ rate) && decide (rate ≤ 6) && decide (width ∈ [1, 2, 4, 8])
  | .hostPortReset _ | .aspmL1Entry | .pmStateChange _ => true
  | .memoryWindowRead _ len _ ev => decide (1 ≤ len) && decide (len ≤ 4096) && ev.wf
  | .memoryWindowWrite _ data _ ev => decide (1 ≤ data.length) && decide (data.length ≤ 4096) && ev.wf
  | .zeroLengthRead _ _ | .bar0BadAccess _ _ | .readWatchdog _ | .tackLate _ => true
  | .cxlMemRd _ _ ev => ev.wf
  | .cxlMemWr _ data _ ev => decide (1 ≤ data.length) && decide (data.length ≤ 64) && ev.wf
  | .cxlMemSpecRd _ _ | .hdmDecoderCommit _ _ _ _ _ | .cxlGpf | .gpfLate _ | .cxlIdentifyMemoryDevice
  | .cxlGetHealthInfo | .cxlGetPoisonList _ _ | .cxlSetTimestamp _ | .cxlGetEventRecords _ => true
  | .cxlClearEventRecords _ count => decide (1 ≤ count)
  | .svcRequest _ _ | .svcData _ _ | .setEndpointId _ | .getEndpointId | .getMctpVersionSupport | .getMessageTypeSupport
  | .getVendorDefinedMessageSupport | .entdaa _ _ | .setdasa _ _ | .rstdaa | .fifoTimeout | .imageVerify _
  | .activationPauseLimit | .onRequest _ | .shelfEnLow | .adcConversion _ | .railTimeout | .powerDown
  | .channelStartTimeout _ | .measurementTimeout | .measurementPeriod | .measurementDrainDone | .drainTimeout
  | .energyEstimate | .pfw | .pfwRearm | .aonSwitch _ | .aonReturn => true
  | .aonReset cut _ => (match cut with | some c => decide (c.done ≤ c.items.length) && decide (c.items.length ≤ 8) | none => true)
  | .aonBoot | .pllLost | .pllHoldoverExpiry | .cinchAcceptEnd | .cinchWritebackComplete | .cinchParityComplete
  | .cinchJournalComplete | .cinchDeltaCommitted | .cinchBudgetExpiry | .critLockoutEnd => true
  | .thermalSample sensors _ _ _ => sensors.length == 24
  | .dramRefresh _ | .thermalAgeTick | .tempPoll | .arbDraw _ _ | .housekeepingWindow _ _ | .senseIssue _ _ _
  | .loadComplete _ _ => true
  | .xferComplete _ _ hist => hist.isEmpty || hist.length == 64
  | .decodeDone _ out => (match out with | .good _ learn => learn.length == 15 | _ => true)
  | .retrainDone _ _ _ _ _ temps => temps.length == 8
  | .stitchRebuild _ _ | .dieTimeout _ _ _ | .alertAsserted _ _ _ | .alertStuck _ | .alertStuckEnd _
  | .amc2Reset _ _ | .amc2Identify _ _ _ | .amc2Status _ _ _ | .amc2StatusScan _ _
  | .amc2GetTemp _ _ _ _ | .amc2TrainRdPattern _ _ _ => true
  | .amc2TrainWrStore _ _ _ data => data.length == 64
  | .amc2TrainRdStore _ _ _ | .amc2TrainConfig _ _ _ _ => true
  | .amc2SetRef _ _ _ words => words.length == 15
  | .amc2ReadPageSense _ _ _ _ _ | .amc2ReadPageXfer _ _ _ _ | .amc2ReadSoftSense _ _ _ _ _ _
  | .amc2ReadSoftXfer _ _ _ _ | .amc2ReadHistSense _ _ _ _ _ | .amc2ReadHistXfer _ _ _ _ => true
  | .amc2ProgramLoad _ _ _ _ _ _ data _ => data.length == 4608
  | .amc2ProgramStart _ _ _ _ _ _ | .amc2Erase _ _ _ _ | .amc2Suspend _ _ _ | .amc2Resume _ _ _ | .amc2FrameAbort _ _
  | .dieSenseEnd _ _ | .dieProgramEnd _ _ _ | .dieEraseEnd _ _ _ | .dieSuspendEnd _ _ | .dieResetEnd _ _ | .diePor _ _
  | .stitchForm _ | .memberProgram _ _ | .padTimeout _ _ | .parityRowProgram _ | .burnishMember _ _
  | .burnishResult _ _ _ _ | .skiverVictimSelect | .skiverCopyProgram | .victimErase | .refreshJob => true
  | .scrubPatrol dieBlock _ _ => decide (dieBlock.toNat < 96 * 8 * 1024)
  | .systemCopyRefresh | .wearSnapshot | .segReadDone _ _ _ | .segWrite _ | .leafMapAppend | .jrnWindowExpiry
  | .journalRingErase _ _ | .weltStart | .weltPeriodExpiry | .weltDone | .dirLineRebuild _ _ | .dirPatrol _ _
  | .bootAttempt _ | .bootReady | .bootAttemptTimeout | .mountWeltChoice _ | .brandPass1 _
  | .journalReplay | .directoryWrite | .brandPass2Die _ | .writebackStart | .wbAgeExpiry | .allocationRetry | .rangeEngineLeaf | .cacheDrainDone
  | .harnessPush => true
  | .tagRebuild _ _ copies => copies.length == 4
  | .harnessPushReadback r => r.sized 8
  | .harnessLeaderRead | .cleanShutdown | .eventGrant | .opSecondsTick | .opSecondsSave | .evtOverflowSave => true
  | .counterOverflow _ inc => decide (1 ≤ inc)
  | .sampleEntryWrite _ | .sampleWriteTimeout | .traceFrameSend | .traceTime _ | .completionTimeout _ => true
  | .evtWinRead off => off.toNat % 4 == 0
  | .ecrcError | .malformedTlp | .unsupportedFeatureRequest _ | .mailboxUnsupportedOpcode _ | .otherMessageType _ => true

end Sys2Proof
end

