-- ==== Sys2Proof/Certificates/Slice0/Obligations.lean ====
section
/-! DEFINITION. Statements about the MP-9664 as a block, for the provers. `Effect c s x` says that command `c` answers a next state
that is `x` but for what follows in the same step; `Answers c s p` that it answers a next state of which `p` holds.
The names of messages and answers (`Out.message "..."`, `Out.cmd "..."`) are the model's spelling of what the spec names (log 9). -/

open Sys2Proof Sys2Proof.Machine

/-- A step takes the command at the front of the queue, and runs it on the state with the queue's rest. -/
def Obligations.StepRunsTheFrontCommand : Prop :=
  ∀ (c : Instr) (q : List Instr) (s : State), s.pending = c :: q → step s = exec c { s with pending := q }

/-! ### Dies (02_media_channels.md) -/

/-- IDENTIFY, GET_TEMP, RD_PATTERN and RD_STORE of a die that has left RESET, with TEMP_HIGH from 95 °C (R58, R59, R61, Tables 2.9,
2.14); CONFIG, WR_STORE and an ascending SET_REF are taken, a SET_REF that does not ascend sets REF_ERR (R57, R62); STATUS and a scan
send, then with CLEAR clear, byte 1 (R59, R60, R86). -/
def Obligations.DieDataAndSettings : Prop :=
 (∀ (ch : Chan) (d : DieNo) (temp : BitVec 16) (s : State) (x : Die), s.die (dieKey ch d) = x → x.awake = true →
    Effect (.amc2Identify ch d 0) s ((s.setDie (dieKey ch d) x).emit (.amc2 ch d (identifyBytes (dieKey ch d)))) ∧
    Effect (.amc2GetTemp ch d 0 temp) s
      ((s.setDie (dieKey ch d) (x.withTemp (decide (1520 ≤ temp.toInt)))).emit (.amc2 ch d (le 2 temp.toNat))) ∧
    Effect (.amc2TrainRdPattern ch d 0) s ((s.setDie (dieKey ch d) x).emit (.amc2 ch d rdPattern)) ∧
    Effect (.amc2TrainRdStore ch d 2) s ((s.setDie (dieKey ch d) x).emit (.amc2 ch d x.store))) ∧
 (∀ (ch : Chan) (d : DieNo) (s : State) (x : Die), s.die (dieKey ch d) = x → x.awake = true →
    (∀ data : List Byte, data.length = 64 →
      Effect (.amc2TrainWrStore ch d 1 data) s (s.setDie (dieKey ch d) { x with trainBuf := data })) ∧
    (∀ (odt drive : BitVec 2) (fast : Bool) (index : BitVec 3), drive ≠ 3 →
      Effect (.amc2TrainConfig ch d 3 (odt ++ drive ++ BitVec.ofBool fast ++ 0#4 ++ index)) s
        (s.setDie (dieKey ch d) { x with odt := odt, drive := drive, fast := fast, index := index })) ∧
    (∀ (m : BitVec 4) (ws : List (BitVec 12)), m ≠ 0 → x.st ≠ .sense → ws.length = 15 → (∀ w ∈ ws, w.toNat < 1024) →
      ((ws.Pairwise (fun a b => a.toNat < b.toNat)) → Answers (.amc2SetRef ch d (m ++ 0#2) ws) s (fun t =>
        ∀ p : Fin 4, (t.die (dieKey ch d)).refOf p = if m.getLsbD p then ws.map BitVec.toNat else x.refOf p)) ∧
      (¬ (ws.Pairwise (fun a b => a.toNat < b.toNat)) → Effect (.amc2SetRef ch d (m ++ 0#2) ws) s
        (s.setDie (dieKey ch d) { x with status1 := x.status1 ||| 8 })))) ∧
 (∀ (ch : Chan) (d : DieNo) (sel : BitVec 2) (s s1 : State) (x : Die), s.die (dieKey ch d) = x → x.st ≠ .off →
    s.setCtl (dieKey ch d) { s.ctlOf (dieKey ch d) with seen := BitVec.ofNat 4 x.st.code } = s1 →
    Effect (.amc2Status ch d 0) s ((s1.setDie (dieKey ch d) x).emit (.amc2 ch d x.status)) ∧
    Effect (.amc2Status ch d 1) s ((s1.setDie (dieKey ch d) { x with status1 := x.live }).emit (.amc2 ch d x.status)) ∧
    Answers (.amc2StatusScan ch (0#2 ++ sel ++ 2#2)) s (fun t =>
      (∀ k, t.die k = s.die k) ∧ Out.amc2 ch 8 (le 1 (s.scan ch sel.toNat)) ∈ t.out) ∧
    Answers (.amc2StatusScan ch (0#2 ++ sel ++ 3#2)) s (fun t =>
      t.die (dieKey ch d) = { x with status1 := x.live } ∧ Out.amc2 ch 8 (le 1 (s.scan ch sel.toNat)) ∈ t.out))

/-- PROGRAM LOAD, START and ERASE of an IDLE die (R65, R68): a good LOAD of the page that LOAD_MAP belongs to fills its slot, one
with a bad CRC sets LOAD_CRC and leaves the slot unloaded; START of fully loaded planes programs with SUSP_COUNT 0; one with a
slot missing is rejected and changes nothing else; ERASE erases. A frame cut short sets CMD_ERR in any state but RESET's absence of
power (R44). -/
def Obligations.LoadStartEraseOfAnIdleDie : Prop :=
  ∀ (ch : Chan) (d : DieNo) (p : BitVec 2) (i : BitVec 3) (m : BitVec 4) (b g w : BitVec 12) (data : List Byte) (crc : Word) (s : State)
    (x : Die), s.die (dieKey ch d) = x → x.st = .idle → b.toNat ≤ 1039 → g.toNat ≤ 1023 → w.toNat ≤ 5 → m ≠ 0 →
    (x.loadAt = some (b.toNat, g.toNat) → crc32c data = crc.toNat →
      Effect (.amc2ProgramLoad ch d (p ++ 0#4) b g (i.setWidth 12) data crc) s (s.setDie (dieKey ch d)
        { x with loadMap := x.loadMap ||| BitVec.ofNat 32 (2 ^ (8 * p.toNat + i.toNat))
                 bufs := Tab.put x.bufs (8 * p.toNat + i.toNat) (.raw data) })) ∧
    (x.loadAt = some (b.toNat, g.toNat) → crc32c data ≠ crc.toNat →
      Answers (.amc2ProgramLoad ch d (p ++ 0#4) b g (i.setWidth 12) data crc) s (fun t =>
        (t.die (dieKey ch d)).loadMap.getLsbD (8 * p.toNat + i.toNat) = false ∧ (t.die (dieKey ch d)).status1 = x.status1 ||| 0x10)) ∧
    (x.loadAt = some (b.toNat, g.toNat) → slotMask m &&& ~~~x.loadMap = 0 →
      Effect (.amc2ProgramStart ch d (m ++ 1#2) b g w) s (s.setDie (dieKey ch d) { x with st := .prog, suspCount := 0
                                                                                          op := some { erase := false, planes := m, block := b.toNat
                                                                                                       page := g.toNat, tmode := w.toNat } })) ∧
    (slotMask m &&& ~~~x.loadMap ≠ 0 →
      Effect (.amc2ProgramStart ch d (m ++ 1#2) b g w) s (s.setDie (dieKey ch d) { x with status1 := x.status1 ||| 1 })) ∧
    Effect (.amc2Erase ch d (m ++ 0#2) b) s (s.setDie (dieKey ch d)
      { x with st := .erase, op := some { erase := true, planes := m, block := b.toNat, page := 0, tmode := 0 } }) ∧
    Effect (.amc2FrameAbort ch d) s (s.setDie (dieKey ch d) { x with status1 := x.status1 ||| 1 })

/-- SENSE frames by the state of the die (Table 2.14, R68): IDLE and SUSP start, SUSPENDING queues, PROG and ERASE reject. SUSPEND and
RESUME (R70), with SUSP_EXH at the 17th of a program. The end of a sense (R63, R69), under an operation that is held or resumed too. -/
def Obligations.SensesAndSuspends : Prop :=
 (∀ (ch : Chan) (d : DieNo) (m : BitVec 4) (b p w : BitVec 12) (s : State) (x : Die) (c : Instr) (q : Sense),
    s.die (dieKey ch d) = x → m ≠ 0 → b.toNat ≤ 1039 → p.toNat ≤ 1023 → 1 ≤ w.toNat → w.toNat ≤ 63 →
    (c, q) ∈ [(Instr.amc2ReadPageSense ch d (m ++ 0#2) b p, { kind := .page, planes := m, block := b.toNat, page := p.toNat, delta := 0 }),
      (Instr.amc2ReadSoftSense ch d (m ++ 0#2) b p w, { kind := .soft, planes := m, block := b.toNat, page := p.toNat, delta := w.toNat }),
      (Instr.amc2ReadHistSense ch d (m ++ 0#2) b p, { kind := .hist, planes := m, block := b.toNat, page := p.toNat, delta := 0 })] →
    ((x.st = .idle ∨ x.st = .susp) →
      Effect c s (s.setDie (dieKey ch d) { x with st := .sense, sense := some q, qSense := none, done := none })) ∧
    (x.st = .suspending → x.qSense = none → Effect c s (s.setDie (dieKey ch d) { x with qSense := some q })) ∧
    ((x.st = .prog ∨ x.st = .erase ∨ x.st = .sense ∨ (x.st = .suspending ∧ x.qSense ≠ none)) →
      Effect c s (s.setDie (dieKey ch d) { x with status1 := x.status1 ||| 1 }))) ∧
 (∀ (ch : Chan) (d : DieNo) (s : State) (x : Die) (o : ArrayOp), s.die (dieKey ch d) = x → x.op = some o →
    ((x.st = .prog ∧ x.suspCount < 16) ∨ x.st = .erase →
      Effect (.amc2Suspend ch d 0) s (s.setDie (dieKey ch d) { x with st := .suspending })) ∧
    (x.st = .prog → x.suspCount = 16 → Effect (.amc2Suspend ch d 0) s (s.setDie (dieKey ch d) { x with status1 := x.status1 ||| 4 })) ∧
    (x.st = .susp → Effect (.amc2Resume ch d 0) s
      (s.setDie (dieKey ch d) { x with st := if o.erase then .erase else .prog, qResume := false })) ∧
    (x.st = .suspending ∨ x.st = .sense → Effect (.amc2Resume ch d 0) s (s.setDie (dieKey ch d) { x with qResume := true })) ∧
    (x.st = .suspending → x.qSense = none → x.qResume = false → o.erase = false →
      Effect (.dieSuspendEnd ch d) s (s.setDie (dieKey ch d) { x with st := .susp, suspCount := x.suspCount + 1 }))) ∧
 (∀ (ch : Chan) (d : DieNo) (s : State) (x : Die) (q : Sense), s.die (dieKey ch d) = x → x.st = .sense → x.sense = some q →
    Answers (.dieSenseEnd ch d) s (fun t =>
      (∃ r, (t.die (dieKey ch d)).done = some r ∧ r.sense = q ∧ r.cells = s.sensedCells (dieKey ch d) q) ∧
      (t.die (dieKey ch d)).sense = none ∧ t.media = s.media ∧
      (x.op = none → (t.die (dieKey ch d)).st = .idle) ∧
      (∀ o, x.op = some o → x.qResume = false → (t.die (dieKey ch d)).st = .susp ∧ (t.die (dieKey ch d)).op = some o) ∧
      (∀ o, x.op = some o → x.qResume = true → (t.die (dieKey ch d)).st = if o.erase then .erase else .prog)))

/-- XFER sends what the last sense of its kind read, with a CRC-32C over the burst (R63). The end of a program (R65, R69, R71): passed,
the erased codewords hold what was loaded; failed, FAIL is set and its pages read as any value; a fault that waits for the last program
(R31) takes effect then. The end of an erase that passes (R45): its codewords are erased, no other. -/
def Obligations.TransfersAndOperationEnds : Prop :=
 (∀ (ch : Chan) (d : DieNo) (m : BitVec 4) (i : BitVec 12) (s : State) (x : Die) (r : Sensed),
    s.die (dieKey ch d) = x → (x.st = .idle ∨ x.st = .susp ∨ x.st = .prog ∨ x.st = .erase) → x.done = some r → m ≠ 0 →
    m &&& ~~~r.sense.planes = 0 → i.toNat ≤ 255 →
    (r.sense.kind ≠ .hist → Effect (.amc2ReadPageXfer ch d (m ++ 1#2) i) s ((s.setDie (dieKey ch d) x).emit
      (.amc2 ch d (burst ((xferSlots (m ++ 1#2) i).flatMap r.hard))))) ∧
    (r.sense.kind = .soft → Effect (.amc2ReadSoftXfer ch d (m ++ 1#2) i) s ((s.setDie (dieKey ch d) x).emit
      (.amc2 ch d (burst ((xferSlots (m ++ 1#2) i).flatMap (fun j => r.hard j ++ r.confidence j)))))) ∧
    (r.sense.kind = .hist → Effect (.amc2ReadHistXfer ch d (m ++ 1#2) 0) s ((s.setDie (dieKey ch d) x).emit
      (.amc2 ch d (r.histogram (m ++ 1#2))))) ∧
    (r.sense.kind = .page → Effect (.amc2ReadSoftXfer ch d (m ++ 1#2) i) s
      (s.setDie (dieKey ch d) { x with status1 := x.status1 ||| 1 }))) ∧
 (∀ (ch : Chan) (d : DieNo) (fail : Bool) (s : State) (x : Die) (o : ArrayOp), s.die (dieKey ch d) = x → x.op = some o → o.erase = false →
    x.st = .prog → o.block ≤ 1039 → o.page ≤ 1023 →
    (∀ f, s.power.faultWait = some f →
      Effect (.dieProgramEnd ch d fail) s (s.dieOpEnds (dieKey ch d) false fail).afterProgram ∧
      (s.dieOpEnds (dieKey ch d) false fail).afterProgram = (if (s.dieOpEnds (dieKey ch d) false fail).arrayBusy then
        s.dieOpEnds (dieKey ch d) false fail else (s.dieOpEnds (dieKey ch d) false fail).enterFault f)) ∧
    (s.power.faultWait = none → Answers (.dieProgramEnd ch d fail) s (fun t =>
      (t.die (dieKey ch d)).op = none ∧ (t.die (dieKey ch d)).st = .idle ∧ (t.die (dieKey ch d)).loadMap = 0 ∧
      (t.die (dieKey ch d)).status1 = (if fail then x.status1 ||| 2 else x.status1) ∧
      (∀ a, a ∉ o.addrs (dieKey ch d) → Tab.find t.media a = Tab.find s.media a) ∧
      (fail = true → ∀ a ∈ o.addrs (dieKey ch d), Tab.find t.media a = some .anyValue) ∧
      (fail = false → ∀ (p : Fin 4) (i : Fin 8), o.planes.getLsbD p = true →
        Tab.find s.media (mla ch d p o.block o.page i) = none →
        Tab.find t.media (mla ch d p o.block o.page i) = some (Tab.get x.bufs (8 * p + i) .anyValue))))) ∧
 (∀ (ch : Chan) (d : DieNo) (s : State) (x : Die) (o : ArrayOp), s.die (dieKey ch d) = x → x.op = some o → o.erase = true → x.st = .erase →
    Answers (.dieEraseEnd ch d false) s (fun t =>
      (t.die (dieKey ch d)).op = none ∧ (t.die (dieKey ch d)).st = .idle ∧
      ∀ a, t.cell a = if planeBlock a ∈ o.blocks (dieKey ch d) then none else s.cell a))

/-- RESET, its end, and POR (R66, R72, Table 2.13): a powered die goes to RESET with every buffer, LOAD_MAP, STATUS byte 1, SUSP_COUNT,
references and CONFIG as R57 and R62 give them after RESET; the pages of a program that it stops read as any value; no other
codeword changes. Its end makes the die IDLE; a channel that starts then takes the die's answer, and a die that is initialised again
gets its settings back (R78, R79). POR comes only to a populated die whose rails are up, and one whose channel starts is RESET at once.
That nothing changes where the row's event cannot be is the model's choice (log 4). -/
def Obligations.ResetOfADie : Prop :=
  ∀ (ch : Chan) (d : DieNo) (s : State) (x : Die), s.die (dieKey ch d) = x →
    (x.st ≠ .off → Answers (.amc2Reset ch d) s (fun t =>
      t.die (dieKey ch d) = { Die.init.withTemp x.tempHigh with st := .rst } ∧ (∀ k, k ≠ dieKey ch d → t.die k = s.die k) ∧
      (∀ o, x.op = some o → o.erase = false → ∀ a, Tab.find t.media a =
        if a ∈ o.addrs (dieKey ch d) then some .anyValue else Tab.find s.media a) ∧
      (∀ o, x.op = some o → o.erase = true → ∀ b, b ∈ t.anyBlocks ↔ b ∈ s.anyBlocks ∨ b ∈ o.blocks (dieKey ch d)) ∧
      (x.op = none → t.media = s.media ∧ t.anyBlocks = s.anyBlocks))) ∧
    (x.st = .rst → ∀ s1, s.setDie (dieKey ch d) { x with st := .idle } = s1 →
      ((s.chan ch).st = .init → Effect (.dieResetEnd ch d) s ((s1.dieAnswers (dieKey ch d)).channelAnswers ch)) ∧
      ((s.chan ch).st ≠ .init → (∀ refs, (s.ctlOf (dieKey ch d)).reinit = some refs →
          Effect (.dieResetEnd ch d) s (s1.reinitDone (dieKey ch d) refs)) ∧
        ((s.ctlOf (dieKey ch d)).reinit = none → Effect (.dieResetEnd ch d) s s1))) ∧
    (x.st ≠ .rst → Effect (.dieResetEnd ch d) s s) ∧
    (x.st = .off → s.diePop (dieKey ch d) = true → s.power.rails.contains (6 + 2 * (ch.val / 8)) = true →
      s.power.rails.contains (7 + 2 * (ch.val / 8)) = true →
      ((s.chan ch).st ≠ .reset → (s.chan ch).st ≠ .init →
        Effect (.diePor ch d) s (s.setDie (dieKey ch d) { x with st := .por })) ∧
      ((s.chan ch).st = .init →
        Effect (.diePor ch d) s ((s.setDie (dieKey ch d) { x with st := .por }).dieReset (dieKey ch d))) ∧
      ((s.chan ch).st = .reset → Effect (.diePor ch d) s
        (((s.setDie (dieKey ch d) { x with st := .por }).dieReset (dieKey ch d)).setChan ch { s.chan ch with st := .init }))) ∧
    ((x.st ≠ .off ∨ s.diePop (dieKey ch d) = false) → Effect (.diePor ch d) s s)

/-- The frames of the AMC2 bus (R54, R56, Tables 2.7, 2.8): the opcode in bits [11:6] of C0 and MOD in bits [5:0], with the words that
follow, stand for the command of their row; a STATUS with SCAN is a scan, a read is a SENSE or an XFER by MOD, a PROGRAM a LOAD or a START;
a reserved opcode, and a frame with too few words, is discarded with CMD_ERR; opcode 0 is an idle bus. -/
def Obligations.FramesSpellCommands : Prop :=
  ∀ (ch : Chan) (d : DieNo) (data : List Byte) (crc : Word) (temp : BitVec 16) (op mod : BitVec 6) (m : BitVec 4) (c1 c2 c3 : BitVec 12)
    (ws : List (BitVec 12)) (f : List (BitVec 12) → Option Instr), (∀ w, f w = frameCommand ch d w data crc temp) →
    f [(0x01 : BitVec 6) ++ mod] = some (.amc2Identify ch d mod) ∧
    (mod.getLsbD 1 = false → f [(0x02 : BitVec 6) ++ mod] = some (.amc2Status ch d mod)) ∧
    (mod.getLsbD 1 = true → f [(0x02 : BitVec 6) ++ mod] = some (.amc2StatusScan ch mod)) ∧
    f [(0x03 : BitVec 6) ++ mod] = some (.amc2GetTemp ch d mod temp) ∧
    f [(0x04 : BitVec 6) ++ m ++ 0b00#2] = some (.amc2TrainRdPattern ch d (m ++ 0b00#2)) ∧
    f [(0x04 : BitVec 6) ++ m ++ 0b01#2] = some (.amc2TrainWrStore ch d (m ++ 0b01#2) data) ∧
    f [(0x04 : BitVec 6) ++ m ++ 0b10#2] = some (.amc2TrainRdStore ch d (m ++ 0b10#2)) ∧
    f [(0x04 : BitVec 6) ++ m ++ 0b11#2, c1] = some (.amc2TrainConfig ch d (m ++ 0b11#2) c1) ∧
    (ws.length = 15 → f (((0x08 : BitVec 6) ++ mod) :: ws) = some (.amc2SetRef ch d mod ws)) ∧
    (ws.length < 15 → f (((0x08 : BitVec 6) ++ mod) :: ws) = some (.amc2FrameAbort ch d)) ∧
    f [(0x10 : BitVec 6) ++ m ++ 0b00#2, c1, c2] = some (.amc2ReadPageSense ch d (m ++ 0b00#2) c1 c2) ∧
    f [(0x10 : BitVec 6) ++ m ++ 0b01#2, c1] = some (.amc2ReadPageXfer ch d (m ++ 0b01#2) c1) ∧
    f [(0x11 : BitVec 6) ++ m ++ 0b00#2, c1, c2, c3] = some (.amc2ReadSoftSense ch d (m ++ 0b00#2) c1 c2 c3) ∧
    f [(0x11 : BitVec 6) ++ m ++ 0b01#2, c1] = some (.amc2ReadSoftXfer ch d (m ++ 0b01#2) c1) ∧
    f [(0x12 : BitVec 6) ++ m ++ 0b00#2, c1, c2] = some (.amc2ReadHistSense ch d (m ++ 0b00#2) c1 c2) ∧
    f [(0x12 : BitVec 6) ++ m ++ 0b01#2, c1] = some (.amc2ReadHistXfer ch d (m ++ 0b01#2) c1) ∧
    f [(0x20 : BitVec 6) ++ m ++ 0b00#2, c1, c2, c3] = some (.amc2ProgramLoad ch d (m ++ 0b00#2) c1 c2 c3 data crc) ∧
    f [(0x20 : BitVec 6) ++ m ++ 0b01#2, c1, c2, c3] = some (.amc2ProgramStart ch d (m ++ 0b01#2) c1 c2 c3) ∧
    f [(0x21 : BitVec 6) ++ mod, c1] = some (.amc2Erase ch d mod c1) ∧
    f [(0x28 : BitVec 6) ++ mod] = some (.amc2Suspend ch d mod) ∧
    f [(0x29 : BitVec 6) ++ mod] = some (.amc2Resume ch d mod) ∧
    f [0xFFF] = some (.amc2Reset ch d) ∧
    f [(0x00 : BitVec 6) ++ mod] = none ∧
    (op ∉ ([0x00, 0x01, 0x02, 0x03, 0x04, 0x08, 0x10, 0x11, 0x12, 0x20, 0x21, 0x28, 0x29, 0x3F] : List (BitVec 6)) →
      f ((op ++ mod) :: ws) = some (.amc2FrameAbort ch d)) ∧
    (op ∈ ([0x10, 0x11, 0x12, 0x20, 0x21] : List (BitVec 6)) → f [op ++ mod] = some (.amc2FrameAbort ch d))

/-! ### Arbitration and sequencer (02, 03, 04) -/

/-- A draw edge at which, once the LOADs that may be encoded are, one requester with tickets is present (R89, R92, R93, R97): it wins, its oldest ready tack owns the data phase
that follows, the channel's LFSR has stepped once, from the seed where a RESEED stood, and no other channel's arbiter changes.
A draw that no guarded requester decides gives the slot to a requester that was present and had tickets; every other one present
loses, and its loss count rises by one up to 64 (R93, R97).
RESEED marks every channel to reload its LFSR at its next draw edge and changes nothing else of its arbiter; CUSTOM set keeps the
tickets of every requester as they were in force, CUSTOM cleared returns them to the preset of the profile in force (R107, Table 3.5). -/
def Obligations.DrawsAndTickets : Prop :=
 (∀ (ch : Chan) (c k : Nat) (s s1 : State), s.holdLoads ch = s1 → (s.chan ch).st = .ready → (s.arbOf ch).slot ≠ .data →
    s1.presentOn ch = [c] → s1.oldestReady ch c = some k → 0 < s1.effective ch c (decide (0 = c)) (s.arbOf ch).drfOvr →
    Answers (.arbDraw ch false) s (fun t =>
      (t.arbOf ch).grant = some k ∧ (t.arbOf ch).slot = .data ∧ (t.arbOf ch).lastWinner = c ∧ (t.arbOf ch).losses = [] ∧
      (t.arbOf ch).lfsr = lfsrStep (if (s.arbOf ch).reseed then seedOf (s.reg rArbSeed) ch else (s.arbOf ch).lfsr) ∧
      (∀ j : Nat, j ≠ ch.val → t.arbOf j = s.arbOf j) ∧ t.chans = s.chans ∧ t.dies = s.dies ∧ t.media = s.media)) ∧
 (∀ (a : Arb) (v : Word) (ts : List (Nat × Nat)), (∀ e ∈ ts, Tab.get a.losses e.1 0 < 64) → (ts.map (fun e => e.1)).Nodup →
    0 < total (ts.map (fun e => e.2)) →
    ∃ c t, drawWinner a v ts = (some c, false) ∧ (c, t) ∈ ts ∧ 0 < t ∧
      ∀ e ∈ ts, Tab.find (afterDraw a ts (some c)).losses e.1 = if e.1 = c then none else some (Nat.min 64 (Tab.get a.losses e.1 0 + 1))) ∧
 (∀ (ch : Chan) (s : State), s.barOpen = true →
    Answers .reseed s (fun t => (∀ c : Chan, t.arbOf c = { s.arbOf c with reseed := true }) ∧ t.tacks = s.tacks ∧
      ∀ off, off ∉ trailRegs → t.reg off = s.reg off) ∧
    Answers (.customChange ch true) s (fun t => bit (t.reg (rArbChCtrl ch)) 0 = true ∧ ∀ c, c < 10 → s.tickets ch c < 256 →
      t.tickets ch c = s.tickets ch c) ∧
    Answers (.customChange ch false) s (fun t => ∀ c, c < 10 → c ≠ 4 → t.tickets ch c = preset (s.field rArbProfile 0 2) c))

/-- SENSE_ISSUE on an IDLE die of a READY channel with its age restored starts the read of first rank (R74): the die senses that
read's page with its kind. On an offline die the reads queued go on to step 7 (R145).
A read data phase that ends well takes its codeword to the decoders, its slots elapsed (R66, R105, R139); a decode of a written
codeword that fails below step 3 is wasted work, and the read takes the next step of the ladder (R134); one of an erased codeword is
lost for reason 2, whatever the decoder gives (R53, R142); one that still waits for a decoder does not end.
That nothing changes where the row's event cannot be is the model's choice (log 4). -/
def Obligations.SensesIssuedAndDecoded : Prop :=
 (∀ (ch : Chan) (d : DieNo) (g : Bool) (s : State) (k : Nat) (t0 : Tack) (r : MediaRead),
    ((s.ctlOf (dieKey ch d)).online = true → (s.chan ch).st = .ready → (s.age (dieKey ch d)).restored = true →
      (s.die (dieKey ch d)).st = .idle → s.nextRead (dieKey ch d) (fun _ => true) = some (k, t0, r) →
      s.readsOn (dieKey ch d) (fun p => p == .sensing || p == .ready) = [] →
      Answers (.senseIssue ch d g) s (fun t => (t.die (dieKey ch d)).st = .sense ∧ ∃ q, (t.die (dieKey ch d)).sense = some q ∧
        q.kind = r.kind t0.retry ∧ q.block = blockOf r.addr ∧ q.page = pageOf r.addr ∧ t.media = s.media)) ∧
    ((s.ctlOf (dieKey ch d)).online = false → Effect (.senseIssue ch d g) s (s.divert (dieKey ch d)).advance)) ∧
 (∀ (ch : Chan) (h : List Nat) (slot : BitVec 16) (s s2 : State) (k : Nat) (tk : Tack) (r : MediaRead) (out : DecodeOut), tk.rd = some r →
    tk.draining = false →
    ((s.arbOf ch).grant = some k → Tab.find s.tacks k = some tk → (s.chan ch).st = .ready → r.hist = false → r.repeats = 0 → tk.retry < 5 →
      Effect (.xferComplete ch true h) s
        ((((((s.phaseEnds ch).elapse ch 2328).updTack k (fun t => { t with rd := some { r with phase := .decoding } })).toDecoder k).kickChannel ch).advance)) ∧
    (Tab.find s.tacks slot.toNat = some tk → r.phase = .decoding → s.drift.decodeQ.contains slot.toNat = false → r.repeats ≠ 3 → tk.retry < 3 →
      tk.op ≠ .burnishRead → Cell.erased (s.cell r.addr.toNat) false = false →
      (((s.classify (chanOf r.addr) 2328 .wasted).updTack slot.toNat
          (fun t => { t with retry := tk.retry + 1, rd := some { r with phase := .queued, hist := false, repeats := 0 } })).count 0x07
          (tk.tag (some (chanOf r.addr)))) = s2 →
      Effect (.decodeDone slot .bad) s (((s2.admitDecodes s2.drift.decodeQ.length).kickChannel (chanOf r.addr)).advance)) ∧
    (Tab.find s.tacks slot.toNat = some tk → r.phase = .decoding → s.drift.decodeQ.contains slot.toNat = false → r.repeats ≠ 3 → tk.retry < 3 →
      s.cell r.addr.toNat = none → (s.classify (chanOf r.addr) 2328 .wasted).readLost slot.toNat tk r.addr 2 = s2 →
      Effect (.decodeDone slot out) s (((s2.admitDecodes s2.drift.decodeQ.length).kickChannel (chanOf r.addr)).advance)) ∧
    (Tab.find s.tacks slot.toNat = some tk → s.drift.decodeQ.contains slot.toNat = true → Effect (.decodeDone slot out) s s))

/-- The alerts of a channel (R83, R84): ALERT_N low owes an ALERT scan and marks the dies that report; one that stays low though no
die drives it is stuck, with its event bit and event, and its end lets the channel listen again.
A retraining that ends well makes the channel READY in FAST mode with the eye centres and the deskew it found, RETRAINED set and
its CK counted in the back (R81, R82, R105); one that fails for the first time is repeated, with RETRAIN_FAIL set.
RETRAIN and RETRAIN_ALL (Tables 2.18, 2.21): a READY channel that no tack's data phase holds retrains at once; one that does hold
slots retrains when the phase ends. -/
def Obligations.ChannelConditions : Prop :=
 (∀ (ch : Chan) (reports internal : Byte) (s : State),
    ((s.chan ch).alertStuck = false → (s.chan ch).hk.all (fun e => e.1 != .alertScan) = true →
      Answers (.alertAsserted ch reports internal) s (fun t => (t.chan ch).alertLow = true ∧
        (HkItem.alertScan, 0) ∈ (t.chan ch).hk ∧ ∀ i : Fin 8, (s.die (dieKey ch i)).st ≠ .off →
          ((t.die (dieKey ch i)).tempHigh = ((s.die (dieKey ch i)).tempHigh || (reports.getLsbD i && !internal.getLsbD i)) ∧
           (t.die (dieKey ch i)).internal = ((s.die (dieKey ch i)).internal || internal.getLsbD i)))) ∧
    ((s.chan ch).alertStuck = false → s.anyAlert ch = false →
      Effect (.alertStuck ch) s (((s.setChan ch { s.chan ch with alertLow := true, alertStuck := true }).setBit (rChEvents ch) 7).event portChan 0x0203
        (s.channelPath ch) [])) ∧
    ((s.chan ch).alertStuck = true →
      Effect (.alertStuckEnd ch) s (s.setChan ch { s.chan ch with alertStuck := false, alertLow := false }))) ∧
 (∀ (ch : Chan) (trim deskew : Word) (ck : Nat) (temps : List (BitVec 16)) (s : State), (s.chan ch).st = .retraining →
    Answers (.retrainDone ch true trim deskew ck temps) s (fun t => (t.chan ch).st = .ready ∧ (t.chan ch).fast = true ∧
      t.reg (rChTrim ch) = (trim.toNat &&& 0x3F3F3F3F) ∧ t.reg (rChDeskew ch) = deskew.toNat ∧ bit (t.reg (rChEvents ch)) 6 = true ∧
      (Tab.get t.obs.slots ch SlotCnt.init).back = (Tab.get s.obs.slots ch SlotCnt.init).back + ck) ∧
    ((s.chan ch).retrainTry = 0 →
      Answers (.retrainDone ch false trim deskew ck temps) s (fun t => (t.chan ch).st = .retraining ∧ (t.chan ch).retrainTry = 1 ∧
        bit (t.reg (rChEvents ch)) 5 = true ∧ t.dies = s.dies ∧ t.ctl = s.ctl))) ∧
 (∀ (ch : Chan) (v : Word) (s : State), s.barOpen = true → (s.chan ch).st = .ready →
    (v.getLsbD 2 = true → (s.arbOf ch).grant = none →
      Answers (.retrain ch v) s (fun t => (t.chan ch).st = .retraining ∧ (t.chan ch).retrainTry = 0 ∧ ∀ j : Nat, j ≠ ch.val → t.chan j = s.chan j)) ∧
    (v.getLsbD 2 = true → (s.arbOf ch).grant ≠ none →
      Answers (.retrain ch v) s (fun t => (t.chan ch).st = .ready ∧ (t.chan ch).retrainWant = true)) ∧
    (v.getLsbD 8 = true → Answers (.retrainAll v) s (fun t => ∀ c : Chan, (s.chan c).st = .ready → (s.arbOf c).grant = none →
      (t.chan c).st = .retraining)))

/-- A LOAD data phase with a good CRC (R65, R76, R105; on a die no longer IDLE: DESIGN CHOICE, log 73). STITCH_REBUILD (R138, R212):
with at most two codewords of the row missing the read ends well at step 7 with what P and Q give, else its leaf is lost for reason 1.
A die past twice the maximum of its operation is reset, and a second time within an hour taken offline (R78).
That nothing changes where the row's event cannot be is the model's choice (log 4). -/
def Obligations.LoadsRebuildsAndDieTimeouts : Prop :=
 (∀ (ch : Chan) (s : State) (k i b : Nat) (tk : Tack) (p : Program) (planes : List Nat) (rest : List Nat) (gs : List (Nat × List Nat))
    (st : Nat × Nat),
    (s.arbOf ch).grant = some k → Tab.find s.tacks k = some tk → tk.pg = some p → p.toLoad = i :: rest → p.groups = (b, planes) :: gs →
    (s.chan ch).st = .ready → p.stamp = some st →
    Effect (.loadComplete ch true) s
      (((((s.setDie p.die ((s.die p.die).takeLoad (BitVec.ofNat 6 (i / 8 * 16)) (BitVec.ofNat 12 b) (BitVec.ofNat 12 p.page)
        (BitVec.ofNat 12 (i % 8)) (s.loadCell p i b st) true)).phaseEnds ch).account ch 2328
          (if (s.die p.die).st == .idle && !p.rejected && !tk.draining then .retired else .wasted)).updTack k
        (fun t => { t with pg := some { p with loaded := p.loaded ||| BitVec.ofNat 32 (2 ^ i) } })).kick p.die)) ∧
 (∀ (slot : BitVec 16) (s : State) (tk : Tack) (r : MediaRead) (i m : Nat) (x : Stitch),
    Tab.find s.tacks slot.toNat = some tk → tk.rd = some r → r.phase = .stitch → tk.draining = false → r.members = [] →
    s.memberOf (s.dbOf r.addr) = some (i, m) → Tab.find s.blocks.stitches i = some x →
    (s.tacks.any (fun e => e.2.op == .parityRead && e.2.parent == some slot.toNat) = true → Effect (.stitchRebuild slot ()) s s) ∧
    (s.tacks.any (fun e => e.2.op == .parityRead && e.2.parent == some slot.toNat) = false →
      (x.missing m (pageOf r.addr) r.lost ≤ 2 → s.trailerOk tk r (s.rebuiltCell x m r.addr r.lost) = true →
        Effect (.stitchRebuild slot ()) s (s.stepPassed slot.toNat tk r (s.rebuiltCell x m r.addr r.lost) 0 []).advance) ∧
      (2 < x.missing m (pageOf r.addr) r.lost → Effect (.stitchRebuild slot ()) s (s.readLost slot.toNat tk r.addr 1).advance))) ∧
 (∀ (ch : Chan) (d : DieNo) (s : State), (s.die (dieKey ch d)).st = .prog → (s.ctlOf (dieKey ch d)).running = none → s.tacks = [] →
    s.boot.step = .none → s.cache.requests = [] → s.cmdq.cmds = [] → s.cache.enabled = true → s.cache.lines = [] →
    (s.ctlOf (dieKey ch d)).timedOutAt = none →
    Answers (.dieTimeout ch d ()) s (fun t => (t.die (dieKey ch d)).st = .rst ∧ (t.die (dieKey ch d)).op = none ∧
      (t.ctlOf (dieKey ch d)).reinit.isSome = true ∧ (t.ctlOf (dieKey ch d)).timedOutAt = some s.store.opSeconds ∧
      (t.ctlOf (dieKey ch d)).online = (s.ctlOf (dieKey ch d)).online ∧ bit (t.reg (rChEvents ch)) (8 + d.val) = true))

/-! ### Events, store, interrupts, observation, thermal (13, 14, 15) -/

/-- EVENT_GRANT (R407-R411): the granted event leaves its port and becomes record EVT_COUNT with REPEATS 1; one that matches the last
record raises its REPEATS; in a full log it only raises EVT_OVERFLOW.
The clocks of the store (R403, R411): a second counts in every state but STANDBY, and for the always-on clock in STANDBY too (R128,
R133); a save writes OP_SECONDS, or EVT_OVERFLOW when it has changed, as a record that reads back so.
An aligned read of EVT_WIN returns the word of the log it shows; one in a group that reads uncorrectable returns 0xFFFF_FFFF, sets
WIN_UNCORR and counts (R416). -/
def Obligations.EventsAndSeconds : Prop :=
 (∀ (s : State) (p : Nat) (e : Event) (q : List Event), s.store.nextEvent = some (p, e, q) →
    (s.store.matchesLast e = false → s.store.evCount < 2048 → Answers .eventGrant s (fun t =>
      t.store.evCount = s.store.evCount + 1 ∧ Tab.get t.store.ports p [] = q ∧
      t.store.evAt s.store.evCount = { opSeconds := s.store.opSeconds, cycles := s.store.powerCycles, path := e.path, code := e.code
                                       params := (e.params ++ zeros 12).take 12, repeats := 1, tack := e.tack, valid := 0x4554, bad := 0 } ∧
      ∀ i, i ≠ s.store.evCount → t.store.evAt i = s.store.evAt i)) ∧
    (s.store.matchesLast e = true → Answers .eventGrant s (fun t =>
      t.store.evCount = s.store.evCount ∧ (t.store.evAt (s.store.evCount - 1)).repeats =
        Nat.min 0xFFFF ((s.store.evAt (s.store.evCount - 1)).repeats + 1))) ∧
    (s.store.matchesLast e = false → s.store.evCount = 2048 → Answers .eventGrant s (fun t =>
      t.store.evlog = s.store.evlog ∧ t.store.evCount = 2048 ∧ t.store.evOverflow = Nat.min 0xFFFFFFFF (s.store.evOverflow + 1)))) ∧
 (∀ (s : State),
    (s.dev.state ≠ .standby → Answers .opSecondsTick s (fun t => t.store = { s.store with opSeconds := s.store.opSeconds + 1 } ∧
      t.power.aonSeconds = s.power.aonSeconds + 1 ∧ t.chans = s.chans)) ∧
    (s.dev.state = .standby → Effect .opSecondsTick s
      { s with power := { s.power with aonSeconds := s.power.aonSeconds + 1, dark := s.power.dark + 1 } }) ∧
    (s.dev.state ≠ .standby → Answers .opSecondsSave s (fun t => t.store.record recOpSeconds = some (le 8 s.store.opSeconds) ∧
      ∀ id, id ≠ recOpSeconds → t.store.record id = s.store.record id)) ∧
    (s.store.evOverflowDirty = true → Answers .evtOverflowSave s (fun t =>
      t.store.record recEvtOverflow = some (le 8 s.store.evOverflow) ∧ t.store.evOverflowDirty = false))) ∧
 (∀ (off : BitVec 24) (s : State) (v : Nat) (bad : Bool), s.barOpen = true → 0xD4000 ≤ off.toNat → off.toNat ≤ 0xD7FFF → off.toNat % 4 = 0 →
    s.evtWord off.toNat = (v, bad) →
    (bad = false → Effect (.evtWinRead off) s (s.emit (.regRead off.toNat v))) ∧
    (bad = true → v = 0xFFFFFFFF ∧ Answers (.evtWinRead off) s (fun t => bit (t.reg rPstoreStatus) 2 = true ∧ t.store = s.store ∧
      t.reg rPstoreUncorr = Nat.min 0xFFFFFFFF (s.reg rPstoreUncorr + 1))))

/-- CLAIM raises the target's running priority and clears the route's edge; EOI gives the saved priority back; SOFT_SET acts on the
sources 320 to 508 (R420-R424). A counter read captures its high half, and an overflow goes on from RELOAD and sets OVF (R440, R441).
A record written to the store reads back, and no other changes (R401, R402). -/
def Obligations.InterruptsCountersAndStore : Prop :=
 (∀ (k : Fin 64) (v : Word) (id : Nat) (r : Route) (x : Target) (s : State), s.barOpen = true → Tab.get s.intc.targets k Target.init = x →
    (s.bestRoute k x.runPrio = some (id, r) → Tab.find s.intc.host id = some r →
      Answers (.claim k) s (fun t =>
        (Tab.get t.intc.targets k Target.init).runPrio = r.prio ∧ (Tab.get t.intc.targets k Target.init).stack = x.runPrio :: x.stack ∧
        (∃ r', Tab.find t.intc.host id = some r' ∧ r'.active = true ∧ r'.activeAt = k ∧ r'.prio = r.prio) ∧
        Out.regRead (0x22000 + 32 * k.val) id ∈ t.out)) ∧
    (s.bestRoute k x.runPrio = none → x.notified = false → Effect (.claim k) s (s.emit (.regRead (0x22000 + 32 * k.val) 0))) ∧
    (bits v.toNat 0 9 = id → id ≠ 511 → Tab.find s.intc.host id = some r → r.active = true → r.activeAt = k → (∃ p l, x.stack = p :: l) →
      Answers (.eoi k v) s (fun t => (Tab.get t.intc.targets k Target.init).runPrio = x.stack.headD 0 ∧
        (Tab.get t.intc.targets k Target.init).stack = x.stack.tail ∧ ∃ r', Tab.find t.intc.host id = some r' ∧ r'.active = false)) ∧
    (bits v.toNat 0 9 = id → Effect (.softSet v) s (if 320 ≤ id ∧ id ≤ 508 then s.raise id else s)) ∧
    (Tab.find s.intc.host id = some r → r.prio ≠ 0 → Tab.find (s.raise id).intc.host id = some { r with edge := true })) ∧
 (∀ (k : Fin 16) (inc : Nat) (s : State) (c : ObsCnt), Tab.get s.obs.counters k.val ObsCnt.init = c → c.count < 2 ^ 48 → inc < 2 ^ 48 →
    (s.barOpen = true → Effect (.counterLoRead k) s
      (({ s with obs := { s.obs with counters := Tab.put s.obs.counters k.val { c with capture := c.count / 2 ^ 32 } } }).emit
        (.regRead (0xE0108 + 32 * k.val) (c.count % 2 ^ 32)))) ∧
    (bit c.cfg 31 = true → bit (s.reg rObsCtrl) 0 = false → Effect (.counterOverflow k inc) s (s.addCount k.val inc)) ∧
    (c.count + inc < 2 ^ 48 → (Tab.get (s.addCount k.val inc).obs.counters k.val ObsCnt.init).count = c.count + inc) ∧
    (2 ^ 48 ≤ c.count + inc → (Tab.get (s.addCount k.val inc).obs.counters k.val ObsCnt.init).count =
      (c.reload + (c.count + inc - 2 ^ 48)) % 2 ^ 48 ∧ bit ((s.addCount k.val inc).reg rObsStatus) (16 + k.val) = true) ∧
    (∀ j, j ≠ k.val → Tab.get (s.addCount k.val inc).obs.counters j ObsCnt.init = Tab.get s.obs.counters j ObsCnt.init)) ∧
 (∀ (st : Store) (id : Nat) (p : List Byte),
    (st.writeRecord id p).record id = some p ∧ (st.writeRecord id p).tied id = false ∧
    ∀ j, j ≠ id → (st.writeRecord id p).record j = st.record j)

/-- The sample ring (R446, R438): an entry enters at HEAD; a full ring without WRAP drops it and counts; TAIL moves only up to HEAD; an
entry without a DRAM cycle in 10 µs is dropped and counted; CLEAR empties the ring.
The trace port (R447, R448): one frame leaves with its sequence number; after a loss a LOSS frame with the count leaves first; the
first TIME frame leads all the others. -/
def Obligations.SamplesAndTrace : Prop :=
 (∀ (s : State) (w : SampleTimes) (r : Retired) (rest : List Retired) (v : Word),
    (s.obs.waiting = r :: rest → s.smpFill ≠ 4194303 → Effect (.sampleEntryWrite w) s { s with obs := { s.obs with
        waiting := rest, ring := Tab.put s.obs.ring s.obs.head (r.entry w), head := (s.obs.head + 1) % 4194304 } }) ∧
    (s.obs.waiting = r :: rest → s.smpFill = 4194303 → bit (s.reg rSmpCfg) 29 = false →
      Effect (.sampleEntryWrite w) s (({ s with obs := { s.obs with waiting := rest } }).bump rSmpDrop 0 32 1)) ∧
    (s.obs.waiting = r :: rest → Effect .sampleWriteTimeout s (({ s with obs := { s.obs with waiting := rest } }).bump rSmpDrop 0 32 1)) ∧
    (s.barOpen = true → (bits v.toNat 0 22 + 4194304 - s.obs.tail) % 4194304 ≤ s.smpFill →
      Effect (.sampleTailWrite v) s { s with obs := { s.obs with tail := bits v.toNat 0 22 } }) ∧
    (s.barOpen = true → s.smpFill < (bits v.toNat 0 22 + 4194304 - s.obs.tail) % 4194304 → Effect (.sampleTailWrite v) s s) ∧
    (s.barOpen = true → v.getLsbD 30 = true → Answers (.sampleRingClear v) s (fun t => t.obs.head = 0 ∧ t.obs.tail = 0 ∧ t.obs.waiting = []))) ∧
 (∀ (s : State) (ty : Byte) (p : List Byte) (rest : List (Byte × List Byte)) (c : BitVec 64), bit (s.reg rTrcCfg) 31 = true →
    (s.obs.traceTimeDue = false → s.obs.trace = (ty, p) :: rest → s.obs.traceLost = 0 → Effect .traceFrameSend s
      (({ s with obs := { s.obs with trace := rest, traceSeq := s.obs.traceSeq + 1 } }).emit
        (.trace ([0xC3, 0x5A, ty, s.obs.traceSeq] ++ (p ++ zeros 32).take 32)))) ∧
    (s.obs.traceTimeDue = false → s.obs.trace ≠ [] → 0 < s.obs.traceLost → Effect .traceFrameSend s
      (({ s with obs := { s.obs with traceLost := 0, traceSeq := s.obs.traceSeq + 1 } }).emit
        (.trace ([0xC3, 0x5A, 0x04, s.obs.traceSeq] ++ (le 4 s.obs.traceLost ++ zeros 32).take 32)))) ∧
    (s.obs.traceTimeDue = true → Answers (.traceTime c) s (fun t => t.obs.traceTimeDue = false ∧ t.obs.trace.length = s.obs.trace.length + 1 ∧
      t.obs.trace.tail = s.obs.trace ∧ (t.obs.trace.headD (0, [])).1 = 0x03 ∧ (t.obs.trace.headD (0, [])).2.take 8 = le 8 c.toNat)))

/-- A window whose first item is GET_TEMP reads that die's temperature (R85, R492). A refresh outside band 5, a poll, and the tick of a
die's thermal age (R109, R435). A junction sample below CRIT: WARN sets at the second sample at or above its limit, and clears more
than 5 °C below it (R430, R431).
That nothing changes where the row's event cannot be is the model's choice (log 4). -/
def Obligations.HousekeepingAndClocks : Prop :=
 (∀ (ch : Chan) (d : DieNo) (temp : BitVec 16) (s : State), (s.chan ch).st = .ready →
    s.hkItems ch = [(HkItem.getTemp d, 0)] →
    Effect (.housekeepingWindow ch temp) s
      (((s.setChan ch { s.chan ch with hk := [] }).takeTemp ch d temp.toInt).kickChannel ch).advance ∧
    (((s.setChan ch { s.chan ch with hk := [] }).takeTemp ch d temp.toInt).ctlOf (dieKey ch d)).temp = temp.toInt ∧
    (((s.setChan ch { s.chan ch with hk := [] }).takeTemp ch d temp.toInt).age (dieKey ch d)).band = nextBand (s.age (dieKey ch d)).band temp.toInt) ∧
 (∀ (n : Fin 2) (s : State),
    (Tab.get s.therm.dramBand n.val 0 ≠ 5 → Effect (.dramRefresh n) s
      { s with therm := { s.therm with refreshDue := s.therm.refreshDue.filter (fun i => i != n.val) } }) ∧
    (∀ (ch : Chan) (c : Channel) (d : DieNo), s.chans = [(ch.val, c)] → c.st = .ready → (s.ctlOf (dieKey ch d)).online = true →
      Answers .tempPoll s (fun t => (t.chan ch).hk.any (fun e => e.1 == HkItem.getTemp d) = true)) ∧
    (∀ k, (s.ageDie k).age k = { s.age k with
      counter := if (s.age k).restored then Nat.min (2 ^ 56 - 1) ((s.age k).counter + ageTicks s.drift.profile.factors (s.dieTemp k).1 10) else (s.age k).counter
      holding := (s.age k).holding + ageTicks s.drift.profile.factors (s.dieTemp k).1 10, stale := (s.dieTemp k).2
      factor := (accel s.drift.profile.factors (s.dieTemp k).1).1 / (4 * (accel s.drift.profile.factors (s.dieTemp k).1).2), bandAt := (s.age k).band }) ∧
    (s.mounted = false → s.chans = [] → Effect .thermalAgeTick s s) ∧
    (∀ (ch : Chan) (c : Channel), s.chans = [(ch.val, c)] → c.st = .ready → (∀ d : Fin 8, (s.ctlOf (dieKey ch d)).present = true) →
      Effect .thermalAgeTick s (((List.range 8).map (dieKey ch)).foldl State.ageDie s).checkAges)) ∧
 (∀ (sensors : List Int) (diode d0 d1 : Int) (s : State) (w th c : Int), s.dev.state ≠ .standby → s.limits = (w, th, c) →
    s.diodeNow = true → diode < c →
    Answers (.thermalSample sensors diode d0 d1) s (fun t =>
      t.therm.junction = diode ∧ Tab.get t.therm.dramTemp 0 0 = d0 ∧ Tab.get t.therm.dramTemp 1 0 = d1 ∧
      (s.therm.warn = false → s.therm.warnRun = 0 → w ≤ diode → t.therm.warn = false ∧ t.therm.warnRun = 1) ∧
      (s.therm.warn = false → 1 ≤ s.therm.warnRun → w ≤ diode → t.therm.warn = true) ∧
      (s.therm.warn = false → diode < w → t.therm.warn = false ∧ t.therm.warnRun = 0) ∧
      (s.therm.warn = true → (t.therm.warn = true ↔ w - 80 ≤ diode)) ∧ t.media = s.media ∧ t.dies = s.dies))

/-! ### Memory window, CXL.mem and the line cache (07, 08) -/

/-- Requests of the memory window and of CXL.mem are taken in order in SERVING, MAINTENANCE and CINCH, once the window decodes them
(Table 8.6, R281). A CXL.mem access goes where the committed decoders put its host address (R292); one that none holds reads with Poison
and writes nothing (log 70). -/
def Obligations.WindowTakesRequestsInOrder : Prop :=
  ∀ (a : HostAddr) (hpa : BitVec 64) (len : Nat) (tag : BitVec 14) (data : List Byte) (ev : AccessEv) (s : State),
    s.host.up = true → s.host.d3hot = false → (s.dev.state = .serving ∨ s.dev.state = .maintenance ∨ s.dev.state = .cinch) →
    (s.host.memSpace = true → a.toNat + len ≤ 2 ^ s.host.barBits →
      Effect (.memoryWindowRead a len tag ev) s
        (s.enqueue { write := false, addr := a, len := len, tag := tag, data := [], poison := false, cxl := false, ev := ev })) ∧
    (s.host.memSpace = true → a.toNat ≤ 2 ^ s.host.barBits →
      Effect (.zeroLengthRead a tag) s
        (s.enqueue { write := false, addr := a, len := 0, tag := tag, data := [], poison := false, cxl := false, ev := AccessEv.none })) ∧
    (s.host.memSpace = true → a.toNat + data.length ≤ 2 ^ s.host.barBits →
      Effect (.memoryWindowWrite a data false ev) s
        (s.enqueue { write := true, addr := a, len := data.length, tag := 0, data := data, poison := false, cxl := false, ev := ev })) ∧
    (s.host.cxl = true → s.dpaOf hpa.toNat = some a.toNat →
      Effect (.cxlMemRd hpa tag ev) s
        (s.enqueue { write := false, addr := a, len := 64, tag := tag, data := [], poison := false, cxl := true, ev := ev }) ∧
      Effect (.cxlMemWr hpa data false ev) s
        (s.enqueue { write := true, addr := a, len := data.length, tag := 0, data := data, poison := false, cxl := true, ev := ev })) ∧
    (s.host.cxl = true → s.dpaOf hpa.toNat = none → s.tacks = [] →
      Effect (.cxlMemRd hpa tag ev) s ((s.emit (.cxlData tag.toNat true "No-Op" (zeros 64))).bump rHpPoison 0 32 1) ∧
      Effect (.cxlMemWr hpa data false ev) s (s.emit (.message "CXL.mem Cmp, MetaField No-Op" (hpa.toNat % 2 ^ 46))))

/-- Refused (Table 8.6, R282): a read completes with Unsupported Request, or Completer Abort in FAULT; a write is dropped, counted and
reported in AER (log 69). A read piece from valid sectors, or of an UNMAPPED, ZERO or POISONED leaf (R243, R302), of a tack `k` that
waits for nothing earlier, in the context its entry had (R171). -/
def Obligations.RefusalsAndCacheReads : Prop :=
 (∀ (a : HostAddr) (len : Nat) (tag : BitVec 14) (data : List Byte) (ev : AccessEv) (s : State),
    s.host.up = true → s.host.d3hot = false → s.host.memSpace = true → a.toNat + len ≤ 2 ^ s.host.barBits →
    a.toNat + data.length ≤ 2 ^ s.host.barBits → s.tacks = [] →
    (s.dev.state = .held ∨ s.dev.state = .mounting ∨ s.dev.state = .powering →
      Effect (.memoryWindowRead a len tag ev) s ((s.emit (.cpl tag.toNat .unsupported [])).aer .unsupported
        (HostReq.header s { write := false, addr := a, len := len, tag := tag, data := [], poison := false, cxl := false, ev := ev })) ∧
      Answers (.memoryWindowWrite a data false ev) s (fun t => t.cache.dirtyList = s.cache.dirtyList ∧ t.xlat = s.xlat ∧ t.media = s.media ∧
        (bits (t.reg rHpRefused) 0 16 = Nat.min 0xFFFF (bits (s.reg rHpRefused) 0 16 + 1)) ∧ t.host.aer.uncStatus.getLsbD 20 = true ∧
        Out.message "Posted credit" a.toNat ∈ t.out)) ∧
    (s.dev.state = .fault →
      Effect (.memoryWindowRead a len tag ev) s ((s.emit (.cpl tag.toNat .abort [])).aer .abort
        (HostReq.header s { write := false, addr := a, len := len, tag := tag, data := [], poison := false, cxl := false, ev := ev })) ∧
      Answers (.memoryWindowWrite a data false ev) s (fun t => t.xlat = s.xlat ∧ t.host.aer.uncStatus.getLsbD 15 = true))) ∧
 (∀ (s : State) (k : Nat) (t : Tack) (r : HostReq) (x : BitVec 12) (w : Nat) (l : Line) (le : LeafEntry),
    Tab.find s.tacks k = some t → t.req = some r →
    ((∃ n, t.wait = .dirLine n) ∧ (s.entry (granuleOf t.leaf.toNat)).bound = true ∧ s.lineHeld (lineOf (granuleOf t.leaf.toNat)) = false ∧
        (s.entry (granuleOf t.leaf.toNat)).ctx = x) ∨ ((∀ n, t.wait ≠ .dirLine n) ∧ t.origin = .ctx x) →
    s.mustWait t = false → s.cache.commits = [] → 0 < r.len → (s.ctx x.toNat).key = .none → r.ev = AccessEv.none → s.cache.enabled = false →
    (s.lineAt t.leaf.toNat = some (w, l) → l.poisoned = false → l.bad = 0 → touched (r.addr.toNat % 4096) r.len &&& ~~~l.valid = 0 →
      ∃ s' : State, s.tryRead k = s'.deliver k (l.bytes (r.addr.toNat % 4096) r.len) false ∧ s'.cache.lines = s.cache.lines ∧ s'.media = s.media) ∧
    (s.lineAt t.leaf.toNat = none → s.leafEntry t.leaf.toNat = some le → le.st = .unmapped →
      ∃ s' : State, s.tryRead k = s'.deliver k (List.replicate r.len (unmappedByte .unmapped (s.ctx x.toNat).zeroOnUnmap)) false) ∧
    (s.lineAt t.leaf.toNat = none → s.leafEntry t.leaf.toNat = some le → le.st = .poisoned → ∃ s' : State, s.tryRead k = s'.deliver k [] true))

/-- The Global Persistent Flush (R262, R296); an HDM decoder commits inside 64 TiB with supported ways and granularity; a MemSpecRd is a
PREFETCH (R292). Requests of a wrong length or alignment (R280), or that the link refuses (R270, R291, Table 8.8), with their bits and
messages of AER. -/
def Obligations.FlushDecodersAndBadRequests : Prop :=
 (∀ (ms : Word) (i : Fin 4) (base size : BitVec 64) (ways gran : Nat) (hpa : BitVec 64) (a : Nat) (s : State), s.host.cxl = true →
    (s.dev.state = .held → Effect .cxlGpf s (s.emit (.message "GPF response" 0))) ∧
    (s.dev.state = .serving → s.cache.dirtyList = [] →
      Effect .cxlGpf s (((s.setCache { s.cache with gpf := true }).closePage).endGpf)) ∧
    (s.cache.gpf = true → s.cache.gpfLate = false →
      Effect (.gpfLate ms) s ((s.setCache { s.cache with gpfLate := true }).event portHost 0x0805 s.devicePath (le 4 ms.toNat))) ∧
    (base.toNat + size.toNat ≤ 2 ^ 46 → ways ∈ [1, 2, 4, 8] → gran ∈ [256, 512, 1024, 2048, 4096, 8192, 16384] → ∀ x : Hdm,
      x = { hpa := BitVec.ofNat 64 (s.reg (rHdm i + 4) * 2 ^ 32 + s.reg (rHdm i)), base := base, size := size, ways := ways, gran := gran } →
      Effect (.hdmDecoderCommit i base size ways gran) s
        ((s.setHost { s.host with decoders := Tab.put s.host.decoders i.val x }).emit (.message "HDM committed" i.val))) ∧
    (2 ^ 46 < base.toNat + size.toNat → Effect (.hdmDecoderCommit i base size ways gran) s (s.emit (.message "HDM commit error" i.val))) ∧
    (s.cache.enabled = true → s.dev.state = .serving → s.dpaOf hpa.toNat = some a → ∀ s' k,
      s.birth { Tack.engine .prefetch engRange (leafOf a) false with wait := .leaf } none = (s', some k) →
      Effect (.cxlMemSpecRd hpa true) s (s'.tryPrefetch k)) ∧
    Effect (.cxlMemSpecRd hpa false) s s) ∧
 (∀ (tag : BitVec 14) (e : AerError) (h : List Byte) (s : State), s.host.up = true →
    (s.barOpen = true →
      Effect (.bar0BadAccess false tag) s ((s.emit (.cpl tag.toNat .unsupported [])).aerFree .unsupported) ∧
      Answers (.bar0BadAccess true tag) s (fun t => bits (t.reg rHpRefused) 0 16 = Nat.min 0xFFFF (bits (s.reg rHpRefused) 0 16 + 1) ∧
        ∀ off, off ≠ rHpRefused → off ∉ trailRegs → t.reg off = s.reg off)) ∧
    Effect .ecrcError s (s.aerFree .ecrc) ∧ Effect .malformedTlp s (s.aerFree .malformed) ∧
    Effect (.unsupportedFeatureRequest tag) s ((s.emit (.cpl tag.toNat .unsupported [])).aerFree .unsupported) ∧
    (e ≠ .corrected → (s.aer e h).host.aer.uncStatus = s.host.aer.uncStatus ||| BitVec.ofNat 32 (2 ^ e.bit)) ∧
    (e ≠ .corrected → s.host.aer.uncMask.getLsbD e.bit = false → s.host.aer.first = none → (s.aer e h).host.aer.headerLog = h) ∧
    (e ≠ .corrected → s.host.aer.uncMask.getLsbD e.bit = false → s.host.aer.uncSeverity.getLsbD e.bit = true →
      (s.aer e h).out = s.out ++ [.message "ERR_FATAL" e.bit]) ∧
    (e ≠ .corrected → s.host.aer.uncMask.getLsbD e.bit = true → (s.aer e h).out = s.out))

/-- Write-back and tag rebuilds (R246, R247, R251): the engine starts the line that the order names; an expired age marks the head; a
parity error in a tag is a Corrected Internal Error, and of an empty way nothing more; the first metadata copy that decodes gives the tag
back, a copy as stored gives it as it was; a clean line without one is gone, and nothing is poisoned.
That nothing changes where the row's event cannot be is the model's choice (log 4). -/
def Obligations.WritebackAndTagRebuild : Prop :=
  ∀ (set : BitVec 18) (way : Fin 16) (copies : List CopyRead) (k : Nat) (l : Line) (s s1 : State), (s.bump rCacheTagPar 0 32 1).aer .corrected [] = s1 →
    (s.mapUp = true → s.nextWriteback = some k → Effect .writebackStart s (s.startWriteback k).advance) ∧
    (s.cache.dirtyList ≠ [] → Effect .wbAgeExpiry s (s.setCache { s.cache with ageDue := true })) ∧
    Effect .allocationRetry s s.advance ∧
    (s.dev.state ≠ .standby → Tab.find s.cache.lines (set.toNat * 16 + way.val) = none → Effect (.tagRebuild set way copies) s s1) ∧
    (∀ m, s.dev.state ≠ .standby → Tab.find s.cache.lines (set.toNat * 16 + way.val) = some l → l.firstCopy copies = some m →
      setOf m.leaf.toNat = set.toNat → Effect (.tagRebuild set way copies) s ((s1.setLine (set.toNat * 16 + way.val)
        { l with leaf := m.leaf.toNat, ctx := m.ctx, locked := m.locked, wt := m.wt }).meetBad m.leaf.toNat (BitVec.allOnes 64) 0xFFFF).1.advance) ∧
    (s.dev.state ≠ .standby → Tab.find s.cache.lines (set.toNat * 16 + way.val) = some l → l.firstCopy copies = none →
      s.cache.dirtyList.contains (set.toNat * 16 + way.val) = false →
      Effect (.tagRebuild set way copies) s (((s1.dropLine (set.toNat * 16 + way.val)).bump rCacheLost 0 32 1).event
        portCache 0x0702 s.devicePath (le 4 set.toNat ++ le 1 way.val ++ [0])).advance) ∧
    (l.leaf < 2 ^ 34 → l.firstCopy (.stored :: copies) = some { leaf := BitVec.ofNat 34 l.leaf, ctx := l.ctx, locked := l.locked, wt := l.wt }) ∧
    l.firstCopy [.lost, .lost, .lost, .lost] = none

/-- The range engine (R256, R257, Table 7.6): a start while an operation runs is refused with GO_BUSY and changes nothing of it; a
legal start in SERVING takes up the operation over the leaves its registers name; a bad one sets GO_ERR; each leaf in turn.
One leaf of the range engine, with the tack it is taken for; INVALIDATE and DISCARD of a clean line drop it and LOCK locks it, 12 ways
of a set at most; the cache's enable and disable, and the end of a drain (R255-R259). -/
def Obligations.RangeEngine : Prop :=
 (∀ (v : Word) (s : State) (op : Nat) (c : Instr) (first n ctx : Nat), s.barOpen = true →
    (c, op) ∈ [(Instr.rangeGoClean v, 0), (Instr.rangeGoInvalidate v, 1), (Instr.rangeGoDiscard v, 2), (Instr.rangeGoLock v, 3),
      (Instr.rangeGoUnlock v, 4), (Instr.rangeGoPrefetch v, 5)] →
    first = (s.reg (rRngAddr + 4) % 2 ^ 14 * 2 ^ 32 + s.reg rRngAddr) / 4096 → n = s.reg (rRngCount + 4) % 8 * 2 ^ 32 + s.reg rRngCount →
    ctx = bits v.toNat 16 12 → s.cmdq.cmds = [] →
    (s.cache.rng.isSome = true → Answers c s (fun t => bit (t.reg rRngStatus) 30 = true ∧ t.reg rRngCtrl = s.reg rRngCtrl ∧ t.cache.lines.map (fun e =>
      (e.1, e.2.leaf, e.2.valid, e.2.dirty)) = s.cache.lines.map (fun e => (e.1, e.2.leaf, e.2.valid, e.2.dirty)))) ∧
    (s.cache.rng = none → s.cache.disableWaits = false → s.cache.draining = false → s.cache.rngQueue = [] → s.dev.state = .maintenance →
      s.mapUp = true → s.cache.enabled = true → n ≠ 0 → first + n ≤ 2 ^ 34 → s.bindsRun ctx first n = true →
      Answers c s (fun t => t.cache.rng = some (RangeOp.start op ctx first n (bit v.toNat 8) none) ∧ t.cache.rngOp = op)) ∧
    (s.cache.rng = none → s.cache.disableWaits = false → s.cache.draining = false → n = 0 →
      Answers c s (fun t => bit (t.reg rRngStatus) 29 = true ∧ t.cache.dirtyList = s.cache.dirtyList))) ∧
 (∀ (s s' : State) (r r' : RangeOp) (k : Nat) (l : Line) (e : RangeEnd),
    (s.cache.rng = some r → s.mapUp = true → s.dev.state ≠ .cinch → r.next ≤ r.last → s.tacks.any (fun e => s.rangeUntaken e.2) = false →
      Effect .rangeEngineLeaf s (s.birthRange r).advance) ∧
    (s.rangeLeaf r r.next k = (s', r', e) → r'.next = r.next + 1 ∧ r'.leaves = r.leaves + 1) ∧
    (s.lineAt r.next = some (k, l) → l.locked = false → l.poisoned = false → l.wbBusy = false → l.isDirty = false →
      (r.op = 1 ∨ r.op = 2 → (s.rangeLeaf r r.next k).1 = s.dropLine k) ∧
      (r.op = 3 → s.locksOf r.next < 12 → (s.rangeLeaf r r.next k).1 = s.setLine k { l with locked := true })) ∧
    (s.barOpen = true → s.dev.state = .serving → s.cache.draining = false →
      Effect (.cacheCtrlEnable 0x20) s ((s.setReg rCacheCtrl 0).setCache { s.cache with enabled := true })) ∧
    (s.barOpen = true → s.dev.state = .serving → s.cache.draining = false → s.cache.disableWaits = false → s.cache.enabled = true →
      s.cache.rng = none → Effect (.cacheCtrlDisable 0x10) s ((s.setReg rCacheCtrl 0).startDrain).advance) ∧
    (s.cache.draining = true → s.advance = s → s.cache.lines = [] →
      Effect .cacheDrainDone s ((s.setCache { s.cache with draining := false }).nextRange (s.cache.rngQueue.length + 1))))

/-! ### Command packets (10) -/

/-- A packet of opcode `code` at `port` starts: it is taken as command `c` in state `s1`, waits for no earlier command of its pair, and
passes every check of R336. -/
def Starts (code : Nat) (port : Port) (pkt : Packet) (s s1 : State) (c : Cmd) : Prop :=
  pkt.u 0 1 = code ∧ s.arrive port pkt = some (s1, c) ∧ s1.fenced c = false ∧ s1.checkPacket port pkt = none

/-- The commands that carry a packet, with their opcodes; CACHE_RANGE by the OP of the packet. -/
def packetRows (port : Port) (pkt : Packet) (r : HostRead) : List (Nat × Instr) :=
  [(0x01, .identify port pkt), (0x02, .getState port pkt), (0x03, .getHealth port pkt), (0x04, .setWalltime port pkt),
   (0x05, .enterMaintenance port pkt), (0x06, .leaveMaintenance port pkt), (0x07, .prepareShelfDown port pkt), (0x08, .abort port pkt),
   (0x10, .ctxCreate port pkt), (0x11, .ctxModify port pkt), (0x12, .ctxDelete port pkt), (0x13, .ctxQuery port pkt),
   (0x14, .keyLoad port pkt r), (0x15, .keyDestroy port pkt), (0x21, .cacheEnable port pkt), (0x22, .cacheDisable port pkt),
   (0x23, .cacheStatus port pkt), (0x30, .unmapRange port pkt), (0x31, .zeroRange port pkt), (0x32, .mapQuery port pkt),
   (0x33, .pinSegments port pkt), (0x34, .unpinSegments port pkt), (0x35, .getHoles port pkt), (0x36, .clearReadOnly port pkt),
   (0x40, .scrubNow port pkt), (0x41, .burnishNow port pkt), (0x42, .refreshNow port pkt), (0x43, .retireUnit port pkt),
   (0x44, .restoreUnit port pkt), (0x45, .mediaReport port pkt), (0x46, .retentionReport port pkt), (0x50, .powerStatus port pkt),
   (0x51, .holdupMeasure port pkt), (0x52, .setLimits port pkt), (0x60, .boardGet port pkt), (0x61, .boardSet port pkt r),
   (0x62, .boardCommit port pkt), (0x63, .paramGet port pkt), (0x64, .paramSet port pkt), (0x70, .counterConfig port pkt),
   (0x71, .counterRead port pkt), (0x72, .sampleConfig port pkt), (0x73, .eventRead port pkt), (0x74, .eventClear port pkt),
   (0x80, .imageStage port pkt r), (0x81, .imageStatus port pkt), (0x82, .imageActivate port pkt), (0x83, .imageDiscard port pkt),
   (0x90, .harnessJoin port pkt), (0x91, .harnessLeave port pkt), (0x92, .harnessQuery port pkt)]

/-- The commands that answer with what the device shows: each ends with SUCCESS and a result of the length of Table 10.8, whose first
fields are as the tables give them; nothing else changes (Tables 10.8-10.11). -/
def Obligations.ReportsAnswer : Prop :=
  ∀ (port : Port) (pkt : Packet) (s s1 : State) (c : Cmd),
    (Starts 0x01 port pkt s s1 c → ∃ bs, Effect (.identify port pkt) s (s1.finish c 0 0 (some bs)) ∧ bs.length = 120 ∧
      bs.take 8 = le 4 devId ++ le 4 0x16080060 ∧ (bs.drop 24).take 2 = le 2 s1.dev.unitId.toNat ∧ (bs.drop 56).take 32 = le 32 opcodeMap) ∧
    (Starts 0x02 port pkt s s1 c → ∃ bs, Effect (.getState port pkt) s (s1.finish c 0 0 (some bs)) ∧ bs.length = 56 ∧
      bs.take 20 = le 4 s1.devState ++ le 4 s1.devFlags ++ le 12 s1.boundMask) ∧
    (Starts 0x23 port pkt s s1 c → ∃ bs, Effect (.cacheStatus port pkt) s (s1.finish c 0 0 (some bs)) ∧ bs.length = 56 ∧
      bs.take 16 = le 4 s1.cacheStatus ++ le 4 s1.cache.ceiling ++ le 4 (s1.field rCacheCeilLimit 0 12) ++ le 4 s1.dirtyLines) ∧
    (Starts 0x13 port pkt s s1 c → ∃ bs, Effect (.ctxQuery port pkt) s (s1.finish c 0 0 (some bs)) ∧ bs.length = 40 ∧
      bs.take 32 = s1.ctxEntry (pkt.u 4 2 % 4096)) ∧
    (∀ v, Starts 0x63 port pkt s s1 c → s1.paramValue (pkt.u 0x18 2) = some v →
      Effect (.paramGet port pkt) s (s1.finish c 0 0 (some (le 2 (pkt.u 0x18 2) ++ zeros 6 ++ le 8 v)))) ∧
    (Starts 0x73 port pkt s s1 c → ∃ bs, Effect (.eventRead port pkt) s (s1.finish c 0 0 (some bs)) ∧
      bs.take 2 = le 2 s1.store.evCount ∧ (bs.drop 4).take 4 = le 4 s1.store.evOverflow) ∧
    (Starts 0x81 port pkt s s1 c → ∃ bs, Effect (.imageStatus port pkt) s (s1.finish c 0 0 (some bs)) ∧ bs.length = 56 ∧
      bs.take 8 = le 4 s1.imgState ++ le 4 s1.img.received) ∧
    (Starts 0x92 port pkt s s1 c → ∃ bs, Effect (.harnessQuery port pkt) s (s1.finish c 0 0 (some bs)) ∧ bs.length = 56 ∧
      bs.take 3 = le 2 s1.dev.unitId.toNat ++ le 1 s1.harness.role.toNat) ∧
    (Starts 0x50 port pkt s s1 c → Effect (.powerStatus port pkt) s (s1.finish c 0 0 (some (s1.powerResult s1.power.measFlags.toNat)))) ∧
    (Starts 0x45 port pkt s s1 c → Effect (.mediaReport port pkt) s (s1.finish c 0 0
      (some (s1.mediaReport (c.unit).2.1 (c.unit).2.2 (pkt.u 8 4))))) ∧
    (Starts 0x46 port pkt s s1 c → Effect (.retentionReport port pkt) s (s1.finish c 0 0
      (some (s1.retention (c.unit).2.1 (c.unit).2.2 (pkt.u 8 4) (tempOf (pkt.u 0x18 2))))))

/-- The end of a command (R330-R335, R453): its RESPONSE or completion entry leaves, and SEQUENCE rises. GET_HEALTH below level 4 forms
its record, COUNTER_READ with CLEAR zeroes what it read, GET_HOLES and MAP_QUERY give what fits (Tables 10.8, 10.11, 15.5). -/
def Obligations.CompletionsAndRangeReports : Prop :=
 (∀ (s : State) (c : Cmd) (code detail : Nat), c.posts = true →
    (c.port = .svc → ∃ entry, (s.finish c code detail none).out = s.out ++ [.service ([0x02, 0, 0, 0] ++ entry)] ∧ entry.length = 16 ∧
      entry.take 2 = le 2 (c.pkt.u 2 2) ∧ (entry.drop 2).take 2 = le 2 (code + detail % 128 * 256) ∧ entry.drop 8 = le 8 s.sequence) ∧
    (∀ q, c.port = .sq q → (s.queue q.val).ready = [] → (s.queue q.val).room = true → ∃ entry,
      Out.completion q.val ((s.queue q.val).cqBase + 16 * (s.queue q.val).cqTail) entry ∈ (s.finish c code detail none).out ∧ entry.length = 16 ∧
      entry.take 2 = le 2 (c.pkt.u 2 2) ∧ (entry.drop 2).take 2 = le 2 (code + detail % 128 * 256) ∧ entry.drop 8 = le 8 s.sequence ∧
      ((s.finish c code detail none).queue q.val).cqTail = ((s.queue q.val).cqTail + 1) % ((s.queue q.val).cqLast + 1)) ∧
    (∀ q, c.port = .sq q → (s.queue q.val).ready = [] → (s.queue q.val).room = false →
      ((s.finish c code detail none).queue q.val).ready.length = 1 ∧ (s.finish c code detail none).out = s.out) ∧
    (∀ x ∈ (s.finish c code detail none).cmdq.cmds, x.id ≠ c.id) ∧ (s.finish c code detail none).cmdq.seqs = s.cmdq.seqs + 1) ∧
 (∀ (port : Port) (pkt : Packet) (s s1 : State) (c : Cmd),
    (Starts 0x03 port pkt s s1 c → (unitOf (pkt.u 8 4)).1 ≠ 4 → ∃ s2 b,
      s1.formRecord (unitOf (pkt.u 8 4)).1 (unitOf (pkt.u 8 4)).2.1 (pkt.u 8 4) (s1.unitRec (unitOf (pkt.u 8 4)).1 (unitOf (pkt.u 8 4)).2.1) = (s2, b) ∧
      Effect (.getHealth port pkt) s (s2.finish c 0 0 (some b))) ∧
    (Starts 0x71 port pkt s s1 c → ∃ bs, bs.length = 176 ∧
      Effect (.counterRead port pkt) s ((if bit (pkt.u 0x19 1) 0 then
        { s1 with obs := { s1.obs with counters := s1.obs.counters.map (fun (e : Nat × ObsCnt) => (e.1, { e.2 with count := 0 })) } } else s1).finish c 0 0 (some bs))) ∧
    (Starts 0x35 port pkt s s1 c → bit (pkt.u 0x1C 1) 1 = false → bit (pkt.u 0x1C 1) 0 = false → ∃ bs,
      Effect (.getHoles port pkt) s (s1.finish c 0 0 (some bs)) ∧ bs.take 4 = le 4 s1.drift.holes.length ∧
      bs.drop 24 = ((s1.drift.holes.drop (pkt.u 0x18 4)).take (c.fits 32 32)).flatMap Hole.bytes) ∧
    (Starts 0x32 port pkt s s1 c → s1.bindsRun c.ctxOf (pkt.u 0x18 8 / 4096) (pkt.u 0x20 8) = true → c.pkt = pkt → ∃ bs,
      Effect (.mapQuery port pkt) s (s1.finish c 0 0 (some bs)) ∧
      bs.take 4 = le 4 (Nat.min (pkt.u 0x20 8) (c.fits 16 8))) ∧
    (Starts 0x32 port pkt s s1 c → s1.bindsRun c.ctxOf (pkt.u 0x18 8 / 4096) (pkt.u 0x20 8) = false → c.pkt = pkt →
      Effect (.mapQuery port pkt) s (s1.finish c 0x05 0 none)))

/-- Wall time, MAINTENANCE and stopping (R133, R338, R345, R346): SET_WALLTIME keeps the time with the AON seconds at its arrival;
ENTER_MAINTENANCE changes SERVING to MAINTENANCE; LEAVE_MAINTENANCE waits for no command but refuses while one needs MAINTENANCE;
ABORT of a command that does not exist ends with DETAIL 1; PREPARE_SHELF_DOWN stops fetching and refuses a second stopper. -/
def Obligations.DeviceCommands : Prop :=
  ∀ (port : Port) (pkt : Packet) (s s1 : State) (c : Cmd),
    (Starts 0x04 port pkt s s1 c → Effect (.setWalltime port pkt) s
      (({ s1 with power := { s1.power with wall := some (pkt.u 0x18 8, s1.power.aonSeconds), wallFresh := true } }).finish c 0 0 none)) ∧
    (Starts 0x05 port pkt s s1 c → s1.dev.state = .serving → Effect (.enterMaintenance port pkt) s ((s1.goto .maintenance).finish c 0 0 none)) ∧
    (Starts 0x05 port pkt s s1 c → s1.dev.state = .maintenance → Effect (.enterMaintenance port pkt) s (s1.finish c 0 0 none)) ∧
    (Starts 0x06 port pkt s s1 c → s1.dev.state = .maintenance → s1.cmdq.cmds.any Cmd.needsMaintenance = false →
      Effect (.leaveMaintenance port pkt) s (((s1.goto .serving).rejoin).finish c 0 0 none)) ∧
    (Starts 0x06 port pkt s s1 c → s1.dev.state = .maintenance → s1.cmdq.cmds.any Cmd.needsMaintenance = true →
      Effect (.leaveMaintenance port pkt) s (s1.finish c 0x06 0 none)) ∧
    (Starts 0x08 port pkt s s1 c →
      s1.cmdq.cmds.find? (fun x => x.id != c.id && x.port == targetPort (pkt.u 0x18 2) && x.pkt.u 2 2 == pkt.u 0x1A 2) = none →
      Effect (.abort port pkt) s (s1.finish c 0 1 none)) ∧
    (∀ x, Starts 0x08 port pkt s s1 c →
      s1.cmdq.cmds.find? (fun x => x.id != c.id && x.port == targetPort (pkt.u 0x18 2) && x.pkt.u 2 2 == pkt.u 0x1A 2) = some x →
      x.step = .fetched → x.opcode ≠ 0x08 →
      Effect (.abort port pkt) s (((s1.finish x 0x07 0 none).dropRangeOf x.id).finish c 0 0 none)) ∧
    (Starts 0x07 port pkt s s1 c → s1.power.shutdown ≠ .held → s1.cmdq.stopped = none → s1.power.shutdown = .none → s1.cmdq.cmds = [c] →
      Effect (.prepareShelfDown port pkt) s ((s1.setCmdq { s1.cmdq with stopped := some c.id }).await c .shutdown)) ∧
    (Starts 0x07 port pkt s s1 c → s1.power.shutdown ≠ .held → s1.cmdq.stopped.isSome = true →
      Effect (.prepareShelfDown port pkt) s (s1.finish c 0x06 0 none))

/-- A packet that fails a check of R336 ends with the first one's status and DETAIL and does nothing else, in the order of R336 and
R337; one behind a FENCE waits (R345). A legal CACHE_RANGE waits for its operation; CACHE_ENABLE and CACHE_DISABLE (R256-R259). -/
def Obligations.PacketChecksAndCacheCommands : Prop :=
 (∀ (port : Port) (pkt : Packet) (r : HostRead) (s s1 : State) (c : Cmd) (code st d : Nat) (i : Instr), (code, i) ∈ packetRows port pkt r →
    pkt.u 0 1 = code → s.arrive port pkt = some (s1, c) →
    (s1.fenced c = false → s1.checkPacket port pkt = some (st, d) → Effect i s (s1.finish c st d none)) ∧
    (s1.fenced c = true → Effect i s s1)) ∧
 (∀ (port : Port) (pkt : Packet) (s : State),
    (opRowOf (pkt.u 0 1) = none → s.checkPacket port pkt = some (0x01, 0)) ∧
    (∀ r, opRowOf (pkt.u 0 1) = some r →
      (∀ q, port = .sq q → q.val ≠ 0 → r.admin = true → s.checkPacket port pkt = some (0x01, 1)) ∧
      (port = .svc → r.svc = .no → s.checkPacket port pkt = some (0x01, 2)) ∧
      (∀ o, (∀ q, port = .sq q → q.val = 0) → (port = .svc → r.svc ≠ .no) → (s.queue 0).lock = false → s.badField r port pkt = some o →
        s.checkPacket port pkt = some (0x02, o)) ∧
      (s.checkPacket port pkt = some (0x03, 0) → s.badField r port pkt = none) ∧
      (s.checkPacket port pkt = some (0x04, 0) → s.badField r port pkt = none ∧ s.legalNow r port = true))) ∧
 (∀ (port : Port) (pkt : Packet) (s s1 : State) (c : Cmd),
    (∀ (i : Instr) (op : Nat), (i, op) ∈ [(Instr.cacheRangeClean port pkt, 0), (Instr.cacheRangeInvalidate port pkt, 1),
        (Instr.cacheRangeDiscard port pkt, 2), (Instr.cacheRangeLock port pkt, 3), (Instr.cacheRangeUnlock port pkt, 4),
        (Instr.cacheRangePrefetch port pkt, 5)] →
      Starts 0x20 port pkt s s1 c → pkt.u 0x28 1 = op → c.pkt = pkt → s1.rangeStateOk op = true →
      s1.bindsRun c.ctxOf (pkt.u 0x18 8 / 4096) (pkt.u 0x20 8) = true → (op = 2 → (s1.ctx c.ctxOf).rdOnly = false) → s1.cache.rngQueue.length < 16 →
      Effect i s ((s1.await c .range).submitRange
        (RangeOp.start op c.ctxOf (pkt.u 0x18 8 / 4096) (pkt.u 0x20 8) (bit (pkt.u 0x29 1) 0) (some c.id)))) ∧
    (Starts 0x21 port pkt s s1 c → s1.cache.draining = false →
      Effect (.cacheEnable port pkt) s ((s1.setCache { s1.cache with enabled := true }).finish c 0 0 none)) ∧
    (Starts 0x21 port pkt s s1 c → s1.cache.draining = true → Effect (.cacheEnable port pkt) s (s1.finish c 0x06 0 none)) ∧
    (Starts 0x22 port pkt s s1 c → s1.cache.enabled = false → s1.cache.draining = false → s1.cache.disableWaits = false →
      Effect (.cacheDisable port pkt) s (s1.finish c 0 0 none)) ∧
    (Starts 0x22 port pkt s s1 c → s1.cache.enabled = true → s1.cache.draining = false → s1.cache.disableWaits = false → s1.cache.rng = none →
      Effect (.cacheDisable port pkt) s ((s1.await c .drain).startDrain).advance))

/-- The map commands (R180, R232, R343, R344): UNMAP_RANGE and ZERO_RANGE go over their leaves, a run that is not bound is refused;
PIN_SEGMENTS waits for its segments and keeps within PIN_LIMIT; UNPIN_SEGMENTS ends at once; both wait for
directory lines that are being repaired (R175); CLEAR_READ_ONLY needs the space back. -/
def Obligations.MapCommands : Prop :=
  ∀ (port : Port) (pkt : Packet) (s s1 : State) (c : Cmd), c.pkt = pkt →
    (Starts 0x30 port pkt s s1 c → s1.bindsRun c.ctxOf (pkt.u 0x18 8 / 4096) (pkt.u 0x20 8) = true → (s1.ctx c.ctxOf).rdOnly = false →
      Effect (.unmapRange port pkt) s
        (s1.await c (.leaves false (pkt.u 0x18 8 / 4096) (pkt.u 0x18 8 / 4096 + pkt.u 0x20 8 - 1))).advance) ∧
    (Starts 0x31 port pkt s s1 c → s1.bindsRun c.ctxOf (pkt.u 0x18 8 / 4096) (pkt.u 0x20 8) = true → (s1.ctx c.ctxOf).rdOnly = false →
      s1.dev.readOnly = false → Effect (.zeroRange port pkt) s
        (s1.await c (.leaves true (pkt.u 0x18 8 / 4096) (pkt.u 0x18 8 / 4096 + pkt.u 0x20 8 - 1))).advance) ∧
    (Starts 0x31 port pkt s s1 c → s1.bindsRun c.ctxOf (pkt.u 0x18 8 / 4096) (pkt.u 0x20 8) = true → s1.dev.readOnly = true →
      Effect (.zeroRange port pkt) s (s1.finish c 0x08 0 none)) ∧
    (∀ f n new, Starts 0x33 port pkt s s1 c → pkt.u 0x20 4 = f → pkt.u 0x24 4 = n → s1.runBound c.ctxOf f n = true →
      (granuleRun f n).filter (fun g => !(s1.entry g).pinned) = new →
      (s1.pinDemand + new.length ≤ s1.pinLimit → s1.heldRun f n = false →
        Effect (.pinSegments port pkt) s (((s1.pinRun c.ctxOf f n).await c (.segments new)).updaterReads)) ∧
      (s1.pinDemand + new.length ≤ s1.pinLimit → s1.heldRun f n = true → Effect (.pinSegments port pkt) s (s1.await c (.held f n))) ∧
      (s1.pinLimit < s1.pinDemand + new.length → Effect (.pinSegments port pkt) s (s1.finish c 0x09 0 none))) ∧
    (∀ f n, Starts 0x34 port pkt s s1 c → pkt.u 0x20 4 = f → pkt.u 0x24 4 = n → s1.runBound c.ctxOf f n = true →
      (s1.heldRun f n = false → Effect (.unpinSegments port pkt) s ((s1.unpinRun c.ctxOf f n).finish c 0 0 none)) ∧
      (s1.heldRun f n = true → Effect (.unpinSegments port pkt) s (s1.await c (.held f n)))) ∧
    (∀ f n, n ≠ 0 → (s.pinRun c.ctxOf f n).xlat.pins = (s.xlat.pins ++ granuleRun f n).dedup ∧
      (s.unpinRun c.ctxOf f n).xlat.pins = s.xlat.pins.filter (fun g => decide (g < f) || decide (f + n ≤ g))) ∧
    (Starts 0x36 port pkt s s1 c → s1.dev.readOnly = true → s1.need + 7865 ≤ s1.spaceGood →
      Effect (.clearReadOnly port pkt) s (({ s1.save recSpaceState (le 8 0) with dev := { s1.dev with readOnly := false } }).finish c 0 0 none)) ∧
    (Starts 0x36 port pkt s s1 c → s1.dev.readOnly = true → s1.spaceGood < s1.need + 7865 →
      Effect (.clearReadOnly port pkt) s (s1.finish c 0x09 0 none))

/-- The context and key commands (R300-R312), with no other context command running: CTX_CREATE of a context without granules stores
its entry with GENERATION raised; CTX_DELETE unbinds all its granules; CTX_MODIFY of nothing bound keeps ENC; KEY_LOAD stores the
wrapped key and makes it LOADED; KEY_DESTROY destroys it and sweeps. -/
def Obligations.ContextAndKeyCommands : Prop :=
  ∀ (port : Port) (pkt : Packet) (b : List Byte) (s s1 : State) (c : Cmd) (k : Nat) (old : Ctx), c.pkt = pkt → c.ctxOf = k →
    s1.ctx k = old → s1.ctxBusy k = false →
    (Starts 0x10 port pkt s s1 c → pkt.u 0x24 4 = 0 → attrOk (pkt.u 0x18 4) = true → s1.runUnbound (pkt.u 0x20 4) 0 = true →
      s1.pinDemand ≤ s1.pinLimit → ∃ x,
      Effect (.ctxCreate port pkt) s ((s1.storeCtx k x).finish c 0 0 none) ∧ x.valid = true ∧
      x.generation = old.generation + 1 ∧ x.key = (if bit (pkt.u 0x18 4) 24 then .empty else .none) ∧
      x.cls = BitVec.ofNat 2 (bits (pkt.u 0x18 4) 29 2) ∧ x.rdOnly = bit (pkt.u 0x18 4) 26) ∧
    (Starts 0x10 port pkt s s1 c → pkt.u 0x24 4 ≠ 0 → attrOk (pkt.u 0x18 4) = true → s1.runUnbound (pkt.u 0x20 4) (pkt.u 0x24 4) = true →
      s1.pinDemand + pkt.u 0x24 4 ≤ s1.pinLimit → ∃ x : Ctx, x.valid = true ∧
      Effect (.ctxCreate port pkt) s ((s1.storeCtx k x).bindFor c (pkt.u 0x20 4) (pkt.u 0x24 4))) ∧
    (Starts 0x10 port pkt s s1 c → attrOk (pkt.u 0x18 4) = false → Effect (.ctxCreate port pkt) s (s1.finish c 0x02 0x18 none)) ∧
    (Starts 0x11 port pkt s s1 c → pkt.u 0x28 1 = 0 → ∀ x, old.modified (pkt.u 0x18 4) (pkt.u 0x1C 4) = x →
      x.enc = old.enc → attrOk x.attr = true → (x.cls = 2#2) = (old.cls = 2#2) → x.wt = old.wt →
      Effect (.ctxModify port pkt) s ((s1.storeCtx k x).await c .commits)) ∧
    (Starts 0x11 port pkt s s1 c → ∀ x, old.modified (pkt.u 0x18 4) (pkt.u 0x1C 4) = x → x.enc ≠ old.enc →
      Effect (.ctxModify port pkt) s (s1.finish c 0x02 0x18 none)) ∧
    (Starts 0x12 port pkt s s1 c → old.key ≠ .loaded →
      Effect (.ctxDelete port pkt) s (s1.await c (.unbind (s1.granulesOf k))).advance) ∧
    (Starts 0x14 port pkt s s1 c → b.length = 80 → recField b 1 1 = 1 → s1.keyFault k b = none →
      Effect (.keyLoad port pkt (.bytes b)) s (((s1.save (recKey0 + k) (fit 72 (Config.storedKey s1.kek (b.drop 8)))).storeCtx k
        { old with key := .loaded }).finish c 0 0 none)) ∧
    (Starts 0x14 port pkt s s1 c → Effect (.keyLoad port pkt .failed) s (s1.finish c 0x0E 0 none)) ∧
    (Starts 0x15 port pkt s s1 c → old.key = .loaded →
      Effect (.keyDestroy port pkt) s ((s1.destroyKey k).await c (.sweep (s1.destroyKey k).serial)).advance ∧
      ((s1.destroyKey k).ctx k).key = .destroyed ∧ ((s1.destroyKey k).ctx k).sweep = true ∧
      (s1.destroyKey k).store.record (recKey0 + k) = none) ∧
    (Starts 0x15 port pkt s s1 c → old.key ≠ .loaded → Effect (.keyDestroy port pkt) s (s1.finish c 0x0D 0 none))

/-- The media commands (R216, R224-R229): the die-blocks of the unit that they act on, and the command that waits for them; RETIRE_UNIT
first closes what is open on the unit. -/
def Obligations.MediaCommands : Prop :=
  ∀ (port : Port) (pkt : Packet) (s s1 : State) (c : Cmd) (level first n : Nat), c.unit = (level, first, n) →
    (Starts 0x40 port pkt s s1 c → ∀ dbs, (s1.holdingOn first n).filter s1.stillBurnished = dbs →
      Effect (.scrubNow port pkt) s ((s1.await c (.scrub dbs)).updCmd c.id (fun x => { x with done := dbs.length }))) ∧
    (Starts 0x41 port pkt s s1 c → s1.burnishOrder = [] → s1.blocks.burnishing = [] →
      Effect (.burnishNow port pkt) s ((s1.await c (.burnish [])).updCmd c.id (fun x => { x with done := 0 }))) ∧
    (Starts 0x42 port pkt s s1 c → ∀ dbs, s1.holdingOn first n = dbs →
      Effect (.refreshNow port pkt) s ((dbs.foldl State.queueRefresh (s1.await c (.refresh dbs))).updCmd c.id (fun x => { x with done := dbs.length }))) ∧
    (Starts 0x43 port pkt s s1 c → (unitDies first n).any (fun d => (s1.ctlOf d).online) = false →
      Effect (.retireUnit port pkt) s (s1.finish c 0 0 (some (zeros 24)))) ∧
    (Starts 0x43 port pkt s s1 c → (unitDies first n).any (fun d => (s1.ctlOf d).online) = true →
      ∀ s0, (unitDies first n).foldl (fun s d => (s.closeOpen d).closeFill (dbKey d (Tab.get s.xlat.mapFill d (2048, 0)).1)) s1 = s0 →
      ∀ dbs, s0.dataBlocks first n = dbs → ∀ s2, dbs.foldl State.force s0 = s2 → s2.blocks.leaving = [] →
        Effect (.retireUnit port pkt) s (((((s2.setBlocks { s2.blocks with
          leaving := [{ level := level, first := first, count := n, fault := false, holes := 0, sweep := none }] }).await c (.retire level first n)).updCmd c.id
            (fun x => { x with done := dbs.length })).endUnits))) ∧
    (Starts 0x44 port pkt s s1 c → s1.power.octetOff.getLsbD (first / 64) = false →
      Effect (.restoreUnit port pkt) s ((s1.restoreUnit level first n).finish c 0 0 (some (le 8
        (1024 * ((unitDies first n).filter (fun d => ((s1.restoreUnit level first n).ctlOf d).online)).length) ++ zeros 16))))

/-- The observation and event commands (R413, R449, Table 15.5).
SLOT_SNAP, SLOT_CLEAR and CNT_CLEAR (Tables 15.6, 15.8): a snapshot takes all channels' slot counters at once; a slot clear zeroes
them and ends SNAP_VALID; a counter clear zeroes the 16 counters and their OVF bits.
A parameter that is stored reads back, and no other one changes (R320, Table 13.3). -/
def Obligations.ObservationCommandsAndControl : Prop :=
 (∀ (port : Port) (pkt : Packet) (s s1 : State) (c : Cmd),
    (∀ x y : ObsCnt, Starts 0x70 port pkt s s1 c → Tab.get s1.obs.counters (pkt.u 0x18 1) ObsCnt.init = x →
      (bit (pkt.u 0x19 1) 0 = true → y = { x with cfg := 2 ^ 31 + pkt.u 0x1C 4 % 64, flt := 0xF0000000, count := 0, reload := 0 }) →
      (bit (pkt.u 0x19 1) 0 = false → y = { x with cfg := pkt.u 0x1C 4, flt := pkt.u 0x20 4
                                                   reload := if bit (pkt.u 0x19 1) 1 then pkt.u 0x28 8 else x.reload
                                                   count := if bit (pkt.u 0x19 1) 2 then 0 else x.count }) →
      Effect (.counterConfig port pkt) s
        (({ s1 with obs := { s1.obs with counters := Tab.put s1.obs.counters (pkt.u 0x18 1) y } }).finish c 0 0 none)) ∧
    (Starts 0x72 port pkt s s1 c → pkt.u 0x1A 2 < 4096 → pkt.u 0x18 1 < 8 → pkt.u 0x20 1 ≤ 95 → ∃ s2 : State, Effect (.sampleConfig port pkt) s (s2.finish c 0 0 none) ∧ s2.reg rSmpPeriod = pkt.u 0x1C 4 ∧
      s2.obs.births = 0 ∧ bits (s2.reg rSmpCfg) 16 12 = pkt.u 0x1A 2) ∧
    (Starts 0x74 port pkt s s1 c → pkt.u 0x18 2 = s1.store.evCount → Effect (.eventClear port pkt) s (s1.clearLog.finish c 0 0 none) ∧
      s1.clearLog.store.evCount = 0 ∧ s1.clearLog.store.evOverflow = 0 ∧ s1.clearLog.store.record recEvtOverflow = some (le 8 0)) ∧
    (Starts 0x74 port pkt s s1 c → pkt.u 0x18 2 ≠ s1.store.evCount → Effect (.eventClear port pkt) s (s1.finish c 0x06 0 none))) ∧
 (∀ (s : State), s.barOpen = true →
    Effect (.slotSnap 4) s (({ s with obs := { s.obs with shadows := s.obs.slots, snapValid := true } }).setField rObsCtrl 0 1 0) ∧
    Effect (.slotClear 8) s (({ s with obs := { s.obs with slots := [], shadows := [], snapValid := false } }).setField rObsCtrl 0 1 0) ∧
    Effect (.cntClear 2) s ((({ s with obs := { s.obs with counters := s.obs.counters.map (fun (e : Nat × ObsCnt) => (e.1, { e.2 with count := 0 })) } }).setField
      rObsStatus 16 16 0).setField rObsCtrl 0 1 0)) ∧
 (∀ (s : State) (id v r : Nat), id < 65536 → v < 2 ^ 64 → s.paramRecord id = some r →
    (s.setParam id v).stored id = some v ∧ ∀ j, j ≠ id → s.stored j ≠ none → (s.setParam id v).stored j = s.stored j)

/-! ### Board description, firmware images (12, 16) -/

/-- The power and parameter commands (R367, R376, Tables 10.8, 13.3): SET_LIMITS stores what its mask names; a parameter that is set is
stored and reads back; a measurement under overvoltage is not made.
The board commands (R379, R383-R385): BOARD_GET sends bytes of either record; BOARD_SET changes the bytes it names of PENDING and
nothing of COMMITTED; BOARD_COMMIT of a record that fails a check is refused with the event, else the record becomes COMMITTED, and a
device that is HELD goes on to POWERING with it. -/
def Obligations.LimitParameterAndBoardCommands : Prop :=
 (∀ (port : Port) (pkt : Packet) (s s1 : State) (c : Cmd),
    (Starts 0x52 port pkt s s1 c → pkt.u 0x18 1 = 1 →
      Effect (.setLimits port pkt) s (((s1.setReg rCacheCeilLimit (pkt.u 0x1A 2)).recomputeCeiling s1.power.bankE).finish c 0 0 none)) ∧
    (Starts 0x52 port pkt s s1 c → pkt.u 0x18 1 = 4 → ∃ s2 : State,
      Effect (.setLimits port pkt) s ((s2.recomputeCeiling s1.power.bankE).finish c 0 0 none) ∧ s2.reg rPwrPfwLevel = pkt.u 0x1E 2 / 50 * 50 ∧
      s2.store.record recLimits = some (le 2 (s1.reg rPwrBudget) ++ le 2 (pkt.u 0x1E 2 / 50 * 50) ++ zeros 4)) ∧
    (Starts 0x64 port pkt s s1 c → Effect (.paramSet port pkt) s ((s1.setParam (pkt.u 0x18 2) (pkt.u 0x20 8)).finish c 0 0 none)) ∧
    (Starts 0x51 port pkt s s1 c → s1.power.overvolt = true → Effect (.holdupMeasure port pkt) s
      (s1.finish c 0 0 (some (s1.powerResult (s1.power.measFlags ||| 18#7).toNat)))) ∧
    (Starts 0x51 port pkt s s1 c → s1.power.overvolt = false → Effect (.holdupMeasure port pkt) s (s1.await c .measure).startMeasure)) ∧
 (∀ (port : Port) (q : Fin 1024) (pkt : Packet) (b : List Byte) (s s1 : State) (c : Cmd),
    (Starts 0x60 port pkt s s1 c → Effect (.boardGet port pkt) s
      (s1.finish c 0 0 (some (((s1.boardRecord (pkt.u 0x20 1)).drop (pkt.u 0x18 4)).take (pkt.u 0x1C 4))))) ∧
    (Starts 0x61 (.sq q) pkt s s1 c →
      Effect (.boardSet (.sq q) pkt (.bytes b)) s ((s1.writePending (pkt.u 0x18 4) (fit (pkt.u 0x1C 4) b)).finish c 0 0 none) ∧
      Effect (.boardSet (.sq q) pkt .failed) s (s1.finish c 0x0E 0 none)) ∧
    (∀ off, (s.writePending off b).boardRecord 1 = (s.boardRecord 1).take off ++ b ++ (s.boardRecord 1).drop (off + b.length) ∧
      (s.writePending off b).boardRecord 0 = s.boardRecord 0) ∧
    (∀ reason off, Starts 0x62 port pkt s s1 c → s1.pendingFault = some (reason, off) → Effect (.boardCommit port pkt) s
      ((s1.event portBoot 0x0A01 s1.devicePath (le 1 reason ++ [0] ++ le 2 off ++ le 1 1)).finish c 0x02 0x7F none)) ∧
    (Starts 0x62 port pkt s s1 c → s1.pendingFault = none → s1.dev.state ≠ .held →
      Effect (.boardCommit port pkt) s (s1.commitBoard.1.finish c 0 0 none)) ∧
    (Starts 0x62 port pkt s s1 c → s1.pendingFault = none → s1.dev.state = .held → Effect (.boardCommit port pkt) s
      ((((s1.commitBoard.1.loadBd s1.commitBoard.2).goto .powering).mediaRails).finish c 0 0 none)) ∧
    s1.commitBoard.1.store.record recBoard = some s1.commitBoard.2)

/-- The end of a staged image (R458, R463-R466): copies that all read back well make it STAGED in its slot, with the slot named in the boot records; with
no good copy it is rejected with sub-reason 8, and with fewer than two left, one that failed again dropped, with 9. IMAGE_ACTIVATE of a
staged image stops fetching and waits, and without one it is IMAGE_REJECTED with sub-reason 10; IMAGE_DISCARD empties staging and
erases the slot's blocks where a position is online.
That nothing changes where the row's event cannot be is the model's choice (log 4). -/
def Obligations.ImageEnds : Prop :=
  ∀ (port : Port) (pkt : Packet) (good : BitVec 4) (p r : Nat) (x y : ImgCopy) (s s1 s2 : State) (c : Cmd),
    (s.img.st = .verifying → s.img.copies.all (fun e => e.2.erased && decide (s.img.formed ≤ e.2.pages)) = true →
      (2 ≤ s.img.copies.length → s.img.copies.all (fun e => good.getLsbD e.1) = true → Effect (.imageVerify good) s s.stageDone ∧
        s.stageDone.img.st = .staged ∧ s.stageDone.img.reason = 0 ∧
        Tab.find s.stageDone.img.slots s.img.slot = some { header := s.img.header, len := s.img.received
                                                           copies := positionMask (s.img.copies.map (fun e => e.1))
                                                           blocks := s.img.copies.map (fun (e : Nat × ImgCopy) => (e.1, e.2.block)) }) ∧
      (s.img.copies.any (fun e => good.getLsbD e.1) = false → Effect (.imageVerify good) s (s.rejectStage 8)) ∧
      (s.img.copies = [(p, x), (r, y)] → p < r → good.getLsbD p = true → good.getLsbD r = false → y.again = true →
        Effect (.imageVerify good) s (s.rejectStage 9))) ∧
    (s.img.st ≠ .verifying → Effect (.imageVerify good) s s) ∧
    (Starts 0x82 port pkt s s1 c → s1.img.st = .staged → s1.rollbackFloor ≤ headerRollback s1.img.header → s1.cmdq.stopped = none →
      Effect (.imageActivate port pkt) s ((s1.setCmdq { s1.cmdq with stopped := some c.id }).await c .activate)) ∧
    (Starts 0x82 port pkt s s1 c → s1.img.st ≠ .staged →
      Effect (.imageActivate port pkt) s ((s1.setImg { s1.img with reason := 10 }).finish c 0x0C 10 none)) ∧
    (Starts 0x83 port pkt s s1 c → s1.img.st = .staged → ((s1.setImg s1.img.empty).emptySlot s1.img.slot).rewriteBoots = s2 →
      Effect (.imageDiscard port pkt) s (((positionsOf s2.onlinePositions).foldl (fun s p =>
        ([slotBlock s1.img.slot, slotBlock s1.img.slot + 1].filter (s.sound p)).foldl (fun s b =>
          s.spawnSystemErase engImage (dbKey (bootDie p) b)) s) s2).finish c 0 0 none)) ∧
    (Starts 0x83 port pkt s s1 c → s1.img.st = .empty → Effect (.imageDiscard port pkt) s (s1.finish c 0 0 none)) ∧
    (Starts 0x83 port pkt s s1 c → (s1.img.st = .verifying ∨ s1.img.st = .activating) →
      Effect (.imageDiscard port pkt) s (s1.finish c 0x06 0 none)) ∧
    (s.cache.pause = true → s.endPause.cache.pause = false ∧ Effect .activationPauseLimit s
      (s.endPause.setImg (if s.img.st = .activating then s.img.empty else s.img)).advance)

/-! ### Harness and clean shutdown (09, 12) -/

/-- The harness commands and its engine (R316-R319): HARNESS_JOIN stores and takes the join; HARNESS_LEAVE gives it up; a push
writes the record and its notice to the parent's mailbox and waits for SEQUENCE to read back; only the SEQUENCE written counts. A leader
reads its mailbox, from the medium where the cache does not hold it, and forms its record once the reads have ended.
That nothing changes where the row's event cannot be is the model's choice (log 4). -/
def Obligations.HarnessRows : Prop :=
  ∀ (port : Port) (pkt : Packet) (s s1 : State) (c : Cmd),
    (Starts 0x90 port pkt s s1 c → bit (pkt.u 0x1A 1) 1 = false → bit (pkt.u 0x1A 1) 0 = true → s1.host.busMaster = true →
      Answers (.harnessJoin port pkt) s (fun t => t.dev.unitId = BitVec.ofNat 14 (pkt.u 0x18 2) ∧ t.harness.role = BitVec.ofNat 2 (pkt.u 0x1A 1) ∧
        t.harness.parent = BitVec.ofNat 64 (pkt.u 0x20 8) ∧ t.store.record recUnitId = some (le 8 (pkt.u 0x18 2)) ∧ t.harness.pushing ≠ none ∧
        ∃ r, Out.hostWrite (pkt.u 0x20 8 + 256 * (BitVec.ofNat 14 (pkt.u 0x18 2)).toNat) r ∈ t.out)) ∧
    (Starts 0x90 port pkt s s1 c → bit (pkt.u 0x1A 1) 1 = true → s1.mailboxOk (pkt.u 0x28 8) = false →
      Effect (.harnessJoin port pkt) s (s1.finish c 0x05 0 none)) ∧
    (Starts 0x91 port pkt s s1 c → bit (pkt.u 0x1A 1) 0 = false → Answers (.harnessLeave port pkt) s (fun t =>
      t.harness = { Harness.reset with pushes := s1.harness.pushes, lastPush := s1.harness.lastPush } ∧ t.store.record recHarnessJoin = none)) ∧
    (s.dev.state = .serving → s.harness.member = true → s.harness.pushing = none → s.harness.silent = false → s.engines = true →
      Effect .harnessPush s s.startPush) ∧
    (∀ n b, s.harness.pushing = some n → (b : List Byte).length = 8 →
      (ofLe b = n → Effect (.harnessPushReadback (.bytes b)) s ((s.setHarness { s.harness with
          pushing := none, pushFails := 0, leaderLost := false
          pushes := s.harness.pushes + 1, lastPush := s.store.opSeconds }).endPushCommands)) ∧
      (ofLe b ≠ n → s.harness.pushFails + 1 < s.harnessLost → Effect (.harnessPushReadback (.bytes b)) s
        ((s.setHarness { s.harness with pushFails := s.harness.pushFails + 1, pushing := none }).endPushCommands))) ∧
    (s.harness.pushing = none → Effect (.completionTimeout .readBack) s s) ∧
    (s.harness.reading = true → Effect .harnessLeaderRead s (if s.mailboxBusy then s else s.leaderEnds)) ∧
    (s.dev.state = .serving → s.harness.leader = true → s.harness.mailboxLost = false → s.engines = true → s.harness.reading = false →
      Effect .harnessLeaderRead s (s.leaderBegins none)) ∧
    (s.mailboxReads none = [] → s.leaderBegins none = s.leaderEnds) ∧
    (s.cmdq.cmds = [] → s.leaderEnds = (s.setHarness { s.harness with reading := false }).leaderRead.formHarness.1)

/-- Staging of an image (R460-R462): a chunk at offset 0 restarts it, and one that goes on where staging stands joins its bytes and waits
for the whole pages that they fill; one that does not is INVALID_FIELD. The bytes taken stand, in order, in the pages formed and the page that
is not whole.
The clean shutdown path (R392, R393): it seals and writes what is owed before its next step, writes a brand group on every
online die before the final welt, and once the welt is committed the
shutdown is held and fetching goes on.
That nothing changes where the row's event cannot be is the model's choice (log 4). -/
def Obligations.StagingAndCleanShutdown : Prop :=
 (∀ (q : Fin 1024) (pkt : Packet) (b : List Byte) (o n : Nat) (i i0 : Images) (s s1 : State) (c : Cmd),
    (Starts 0x80 (.sq q) pkt s s1 c → s1.cmdq.cmds.any (fun x => x.id != c.id && x.opcode == 0x80 && x.step != CmdStep.fetched) = false →
      s1.svc.consumer = none → pkt.u 0x20 4 = o → pkt.u 0x24 4 = n → bit (pkt.u 0x28 1) 0 = false → n % 8 = 0 → 8 ≤ n → n ≤ 1048576 →
      (o = s1.img.received → o ≠ 0 → s1.img.st = .receiving → 4096 ≤ s1.img.header.length → o + n < headerLen s1.img.header →
        Effect (.imageStage (.sq q) pkt (.bytes b)) s ((((s1.await c .fifo).setImg (s1.img.take (fit n b))).imageOn).endChunk c)) ∧
      (o = 0 → n < 4096 → s1.img.st ≠ .verifying → s1.img.st ≠ .activating → { s1.img.empty with st := .header, slot := s1.stagingSlot } = i0 →
        Effect (.imageStage (.sq q) pkt (.bytes b)) s
          ((((s1.setImg i0).await c .fifo).setImg { i0.take (fit n b) with header := fit n b }).finish c 0 0 none)) ∧
      (o ≠ s1.img.received → o ≠ 0 → s1.img.st = .receiving →
        Effect (.imageStage (.sq q) pkt (.bytes b)) s (s1.finish c 0x02 0x20 none))) ∧
    ((i.take b).pages.flatMap (fun e => e.2) ++ (i.take b).page = i.pages.flatMap (fun e => e.2) ++ i.page ++ b ∧
      (i.take b).received = i.received + b.length ∧ (i.take b).page.length < 131072)) ∧
 (∀ (s : State), s.dev.state = .serving →
    (s.power.shutdown = .none ∨ s.power.shutdown = .held → Effect .cleanShutdown s s) ∧
    (∀ s', s.power.shutdown = .running → s.flushPath = (s', false) → Effect .cleanShutdown s s') ∧
    (∀ s', s.power.shutdown = .running → s.flushPath = (s', true) → s'.harness.member = false → Effect .cleanShutdown s s'.storePath) ∧
    (s.power.shutdown = .noted → s.drift.assessing = false → s.xlat.run = none → s.journalDone = true →
      ∀ ds, (s.ctl.filter (fun e => e.2.online)).map (fun e => e.1) = ds → Effect .cleanShutdown s (s.brandAll ds).1) ∧
    (∀ ds s', s.power.shutdown = .brand ds →
      (s.brandAll ds = (s', true) → Effect .cleanShutdown s ((s'.setShutdown .welt).startWelt true)) ∧
      (s.brandAll ds = (s', false) → Effect .cleanShutdown s s')) ∧
    (s.power.shutdown = .welt → s.xlat.run = none → s.journalDone = true → s.cmdq.cmds = [] → s.power.offAsked = false →
      Answers .cleanShutdown s (fun t => t.power.shutdown = .held ∧ t.cmdq.stopped = none ∧ t.dev.state = .serving)))

/-! ### Queue pairs (10) -/

/-- Doorbells (R325): a value inside the ring is taken, one outside it puts the pair in ERROR. Enabling and disabling a pair (R324). The
class of a member's slot (Table 9.7): PRESENT when new; DARK or LOST after the limit without an advance of SEQUENCE. -/
def Obligations.QueuePairsAndSlots : Prop :=
 (∀ (q : Fin 1024) (v : Word) (s : State) (x : Queue) (n : Nat), s.barOpen = true → s.queue q.val = x → bits v.toNat 0 16 = n →
    (x.st ≠ .running → Effect (.sqTailDoorbell q v) s s ∧ Effect (.cqHeadDoorbell q v) s s) ∧
    (x.st = .running → n ≤ x.sqLast → Effect (.sqTailDoorbell q v) s (s.setQueue q.val { x with sqTail := n })) ∧
    (x.st = .running → x.sqLast < n → Effect (.sqTailDoorbell q v) s (s.setQueue q.val { x with st := .error, dbErr := true })) ∧
    (x.st = .running → n ≤ x.cqLast → x.cqSpan n ≤ x.cqSpan x.cqTail → x.ready = [] →
      Effect (.cqHeadDoorbell q v) s (s.setQueue q.val { x with cqHead := n })) ∧
    (x.st = .running → (x.cqLast < n ∨ x.cqSpan x.cqTail < x.cqSpan n) →
      Effect (.cqHeadDoorbell q v) s (s.setQueue q.val { x with st := .error, dbErr := true }))) ∧
 (∀ (q : Fin 1024) (v : Word) (s : State) (x y : Queue), s.barOpen = true → s.queue q.val = x →
    (x.st = .idle → bit v.toNat 31 = true → y = { x with weight := Nat.max 1 (bits v.toNat 0 4), lock := bit v.toNat 30, lockCtx := bits v.toNat 18 12 } →
      (x.sqLast ≠ 0 → x.cqLast ≠ 0 → Effect (.queueEnable q v) s (s.setQueue q.val { y with
        st := .running, sqHead := 0, sqTail := 0, cqHead := 0, cqTail := 0, phase := true, fetchErr := false, dbErr := false, cfgErr := false })) ∧
      ((x.sqLast = 0 ∨ x.cqLast = 0) → Effect (.queueEnable q v) s (s.setQueue q.val { y with st := .error, cfgErr := true }))) ∧
    ((x.st = .running ∨ x.st = .error) → bit v.toNat 31 = false → s.cmdq.cmds = [] →
      Answers (.queueDisable q v) s (fun t => t.queue q.val = { x with weight := Nat.max 1 (bits v.toNat 0 4), st := .idle, ready := [] } ∧
        ∀ j, j ≠ q.val → t.queue j = s.queue j))) ∧
 (∀ (x : MemberSlot) (m lost now notice : Nat) (b : List Byte), slotValid m b = true → notice / 2 ^ 30 ≠ 2 → 2 ≤ lost →
    (x.cls = SlotClass.empty ∨ x.seq ≠ recField b 0xF0 8 → (x.judge m lost now b notice).cls = .present ∧ (x.judge m lost now b notice).same = 0 ∧
      (x.judge m lost now b notice).record = b ∧ (x.judge m lost now b notice).accepted = now) ∧
    (x.cls ≠ SlotClass.empty → x.seq = recField b 0xF0 8 → x.same + 1 < lost → (x.judge m lost now b notice).cls = .present ∧
      (x.judge m lost now b notice).same = x.same + 1) ∧
    (x.cls ≠ SlotClass.empty → x.seq = recField b 0xF0 8 → lost ≤ x.same + 1 → (x.judge m lost now b notice).same = lost ∧
      ((x.judge m lost now b notice).cls = if notice / 2 ^ 30 = 1 then .dark else .lost)) ∧
    (∀ b', recField b' 5 1 = 0 → (x.judge m lost now b' notice).cls = .empty))

/-- Fetches and completions (R326-R328, R334-R336, R290): the entry at SQ_HEAD is taken once and its command is in progress; a fetch that
fails takes nothing and stops its pair; a reserved opcode ends at once; a completion is written at CQ_BASE + 16 × CQ_TAIL with the
phase of the pass; what remains unsent at the coalescing limit sends its message.
That nothing changes where the row's event cannot be is the model's choice (log 4). -/
def Obligations.FetchAndPost : Prop :=
  ∀ (q : Fin 1024) (p : Packet) (s : State) (x : Queue), s.queue q.val = x →
    (s.nextPair = none → Effect (.sqFetch (some p)) s s) ∧
    (s.nextPair = some q → (opRowOf (p.u 0 1)).isSome = true → ∀ y, ((s.takeTurn q.val).fetchEntry q p).1 = y →
      Effect (.sqFetch (some p)) s y ∧ (y.queue q.val).sqHead = (x.sqHead + 1) % (x.sqLast + 1) ∧
      y.cmdq.cmds = s.cmdq.cmds ++ [{ id := s.cmdq.nextId, port := .sq q, pkt := p, posts := true, step := .fetched, done := 0, holed := 0, code := 0 }]) ∧
    (s.nextPair = some q → opRowOf (p.u 0 1) = none → ∀ y c, (s.takeTurn q.val).fetchEntry q p = (y, c) →
      Effect (.sqFetch (some p)) s (y.finish c 0x01 0 none)) ∧
    (s.nextPair = some q → Effect (.sqFetch none) s (s.failFetch q) ∧ (s.host.ctoDisable = false → Effect (.completionTimeout .sqFetch) s (s.failFetch q)) ∧
      (s.host.ctoDisable = true → Effect (.completionTimeout .sqFetch) s s) ∧
      ((s.failFetch q).queue q.val).st = .error ∧ ((s.failFetch q).queue q.val).fetchErr = true ∧ ((s.failFetch q).queue q.val).sqHead = x.sqHead) ∧
    (∀ y, (s.postReady q.val x.ready.length).settlePair q = y → Effect (.completionPost q) s y ∧
      ∀ e noIrq, x.ready = [(e, noIrq)] → x.room = true →
        Out.completion q.val (x.cqBase + 16 * x.cqTail) (e.take 4 ++ le 1 (flag x.phase * 128 + s.dev.state.code) ++ e.drop 5) ∈ y.out ∧
        (y.queue q.val).cqTail = (x.cqTail + 1) % (x.cqLast + 1) ∧ (y.queue q.val).ready = []) ∧
    (x.intEn = true → 0 < x.coalUs → 0 < x.unsent → Effect (.coalesceTimeout q) s ((s.setQueue q.val { x with unsent := 0 }).msix x.vector)) ∧
    ((x.intEn = false ∨ x.coalUs = 0 ∨ x.unsent = 0) → Effect (.coalesceTimeout q) s s)

/-! ### Host link, registers and the CXL mailbox (08, 00) -/

/-- Writes of registers (R8-R10; Tables 0.4, 8.5): a read-only or unassigned offset takes no write; a 1 clears a bit of DEV_FLAGS_CHG;
a field with a range stores the nearer limit; a locked field is closed while a board description is in force; CXLC and CXLD take
no write but under CXL.
Reads and writes of a register that latch or start something (R160, R161, Table 5.12): AGE_LO latches the counter that AGE_HI then
shows; PEEK_SEL shows the entry it names, and one whose line is not readable starts the line's repair. -/
def Obligations.RegisterAccesses : Prop :=
 (∀ (off : BitVec 26) (v : Word) (s : State),
    (s.barOpen = true → s.host.cxl = false → 0x110000 ≤ off.toNat → off.toNat < 0x130000 → Effect (.registerWrite off v) s s) ∧
    (s.barOpen = true → off.toNat < 0x10000 → off.toNat ≠ rDevFlagsChg → Effect (.registerWrite off v) s s) ∧
    (s.barOpen = true → Effect (.registerWrite 0x18 v) s
      (s.setReg rDevFlagsChg (s.reg rDevFlagsChg - (s.reg rDevFlagsChg &&& (v.toNat &&& 0x3F))))) ∧
    (s.barOpen = true → Answers (.registerWrite (BitVec.ofNat 26 rXlatWeltBytes) v) s (fun t =>
      t.field rXlatWeltBytes 0 12 = clamp 64 2048 (bits v.toNat 0 12) ∧ ∀ o, o ≠ rXlatWeltBytes → o ∉ trailRegs → t.reg o = s.reg o)) ∧
    (s.barOpen = true → s.boot.bd ≠ none → Effect (.registerWrite (BitVec.ofNat 26 rThermLimits) v) s s) ∧
    (s.host.up = false → 0x1000000 ≤ off.toNat → Effect (.registerWrite off v) s s) ∧
    (s.barOpen = false → off.toNat < 0x1000000 → Effect (.registerWrite off v) s s) ∧
    (s.barOpen = true → bit v.toNat 0 = false → ∀ i : Fin 2048, off.toNat = 0x200000C + 16 * i.val → s.host.pba.contains i.val = true →
      Answers (.registerWrite off v) s (fun t => i.val ∈ t.host.unmasked ∧ Out.msix i.val ∈ t.out))) ∧
 (∀ (ch : Chan) (d : DieNo) (i : BitVec 22) (s : State), s.barOpen = true →
    Effect (.ageLoRead ch d) s (({ s with drift := { s.drift with ageLatch := Tab.put s.drift.ageLatch (dieKey ch d) (s.age (dieKey ch d)).counter } }).emit
      (.regRead (0x61000 + 16 * dieKey ch d) ((s.age (dieKey ch d)).counter / 256 % 2 ^ 32))) ∧
    (s.xlat.dirUp = true → s.lineHeld (lineOf i.toNat) = false → s.lineCorrupt (lineOf i.toNat) = false → Effect (.dirPeek i true) s
      (s.setXlat { s.xlat with peekOk := true, peek := i.toNat, peekWord := (s.entry i.toNat).word })) ∧
    Answers (.dirPeek i false) s (fun t => t.xlat.peekOk = false ∧ t.xlat.peek = i.toNat))

/-- The CXL mailbox (R293-R295, Table 8.9): it answers only while the CXL personality is in force and BAR0 decodes; capacity 64 TiB in
256 MiB units; Get Poison List and Set Timestamp are Busy before SERVING; the poison list is the hole records in range; event records
leave the view oldest first and stay in the recorder's log; every other opcode is Unsupported.
The names under which an answer stands are the model's (log 45). -/
def Obligations.CxlMailbox : Prop :=
  ∀ (log : Fin 4) (n : Nat) (opc : BitVec 16) (dpa len ns : BitVec 64) (s : State),
    (s.mailboxUp = true →
      Answers .cxlIdentifyMemoryDevice s (fun t => ∃ f, Out.mailbox .success f [] ∈ t.out ∧ ("Total Capacity", (262144 : Int)) ∈ f ∧
        ("Volatile Only Capacity", (0 : Int)) ∈ f) ∧
      Effect .cxlGetHealthInfo s (s.mailbox .success s.healthInfo []) ∧
      (s.notReady = true → Effect (.cxlGetPoisonList dpa len) s (s.mailbox .busy [] []) ∧
        Effect (.cxlSetTimestamp ns) s (s.mailbox .busy [] [])) ∧
      (s.notReady = false → s.drift.holeFull = false → Effect (.cxlGetPoisonList dpa len) s
        (s.mailbox .success [("Overflow", 0)] (s.drift.holes.filterMap (fun h => h.poison dpa.toNat len.toNat)))) ∧
      (s.notReady = false → Answers (.cxlSetTimestamp ns) s (fun t => t.power.wall = some (ns.toNat / 1000000000, s.power.aonSeconds) ∧
        t.power.wallFresh = true)) ∧
      Effect (.cxlGetEventRecords log) s (s.mailbox .success [("Overflow", ((flag (s.host.logsFull.contains log.val) : Nat) : Int))]
        ((Tab.get s.host.logs log.val []).map EvRec.view)) ∧
      Answers (.cxlClearEventRecords log n) s (fun t => Tab.get t.host.logs log.val [] = (Tab.get s.host.logs log.val []).drop n ∧
        t.store.evlog = s.store.evlog ∧ t.store.evCount = s.store.evCount ∧ ∀ k, k ≠ log.val → Tab.get t.host.logs k [] = Tab.get s.host.logs k []) ∧
      Effect (.mailboxUnsupportedOpcode opc) s (s.mailbox .unsupported [("Opcode", (opc.toNat : Int))] [])) ∧
    (s.mailboxUp = false → ∀ c ∈ [Instr.cxlIdentifyMemoryDevice, .cxlGetHealthInfo, .cxlGetPoisonList dpa len, .cxlSetTimestamp ns,
      .cxlGetEventRecords log, .cxlClearEventRecords log n, .mailboxUnsupportedOpcode opc], Effect c s s)

/-! ### Service port (16) -/

/-- Aglith messages (R347, R453-R456): a REQUEST of a known opcode is taken into progress while fewer than four are, and else answered
BUSY; a DATA message's bytes enter the receive FIFO in order, the last with its END; a flush empties the FIFO; a FIFO that stops
ends its command with TIMEOUT.
That nothing changes where the row's event cannot be is the model's choice (log 4). -/
def Obligations.ServiceMessages : Prop :=
  ∀ (body : List Byte) (bus : SvcBus) (v : Word) (s s1 : State) (p : Packet), s.setSvc { s.svc with bus := bus } = s1 → s.svcBus = some bus →
    (body.length = 68 → recField body 0 1 = kindRequest → zeroAt body 1 3 = true → BitVec.ofNat 512 (ofLe (body.drop 4)) = p →
      (s.svcBusy < 4 → s.slotsFull = false → s.mayFetch = true → (opRowOf (p.u 0 1)).isSome = true → Effect (.svcRequest body true) s (s1.enterCmd .svc p).1 ∧
        (s1.enterCmd .svc p).1.cmdq.cmds = s.cmdq.cmds ++
          [{ id := s.cmdq.nextId, port := .svc, pkt := p, posts := true, step := .fetched, done := 0, holed := 0, code := 0 }]) ∧
      (4 ≤ s.svcBusy → Effect (.svcRequest body true) s (s1.answerMessage (ofLe ((body.drop 6).take 2)) 0x06 0))) ∧
    (5 ≤ body.length → body.length ≤ 1028 → recField body 0 1 = kindData → recField body 1 1 < 2 → zeroAt body 2 2 = true →
      s.consumer = none → s.svc.fifo.length + (body.length - 4) ≤ 4096 → Answers (.svcData body true) s (fun t =>
        t.svc.fifo.map (fun b => b.1) = s.svc.fifo.map (fun b => b.1) ++ body.drop 4 ∧
        ((t.svc.fifo.getLast?).map (fun b => b.2)) = some (bit (recField body 1 1) 0) ∧ t.svc.overflow = s.svc.overflow)) ∧
    (s.barOpen = true → v.getLsbD 1 = true → Answers (.fifoFlush v) s (fun t => t.svc.fifo = [] ∧ t.svc.overflow = false ∧
      (t.svc.consumer = s.svc.consumer))) ∧
    (s.consumer = none → Effect .fifoTimeout s s) ∧
    (∀ c, s.consumer = some c → c.opcode = 0x61 → Effect .fifoTimeout s
      ((s.setSvc { s.svc with consumer := none, taken := [] }).finish c 0x0E 0 none))

/-- MCTP control messages and I3C addresses (R451, R452): a port with a bus answers; EID is kept; an assigned dynamic address moves the
port to the I3C bus, and its reset takes the address away; other message types count as message errors, and a transaction whose PEC
fails counts as a PEC error and does nothing else; without a bus nothing is answered. The refusal of EIDs 0 and 0xFF is the model's
(log 33).
Words of the receive FIFO (R455): 32 bytes, or fewer when the last one held carries END; a word of a run that goes past LENGTH, or
an END before it, breaks the run. -/
def Obligations.ServiceControl : Prop :=
 (∀ (eid ty : Byte) (addr : BitVec 7) (body : List Byte) (bus : SvcBus) (s s1 : State), s.setSvc { s.svc with bus := bus } = s1 →
    (s.svcBus = some bus →
      (eid ≠ 0 → eid ≠ 0xFF → Effect (.setEndpointId eid) s
        ((s1.setSvc { s1.svc with eid := eid }).emit (.message "Set Endpoint ID response" eid.toNat))) ∧
      Effect .getEndpointId s (s1.emit (.message "Get Endpoint ID response" s.svc.eid.toNat)) ∧
      Effect .getMctpVersionSupport s (s1.emit (.message "Get MCTP Version Support response" 0)) ∧
      Effect .getMessageTypeSupport s (s1.emit (.message "Get Message Type Support response" 0x7E)) ∧
      Effect .getVendorDefinedMessageSupport s (s1.emit (.message "Get Vendor Defined Message Support response" Config.vendorId.toNat)) ∧
      (ty ≠ 0 → ty ≠ 0x7E → Effect (.otherMessageType ty) s s1.msgError) ∧
      Effect (.svcRequest body false) s s1.pecError ∧ Effect (.svcData body false) s s1.pecError) ∧
    (s.svcBus = none → ∀ c ∈ [Instr.setEndpointId eid, .getEndpointId, .getMctpVersionSupport, .getMessageTypeSupport,
      .getVendorDefinedMessageSupport, .svcRequest body true, .svcData body true], Effect c s s) ∧
    Effect (.entdaa addr true) s (s.setSvc { s.svc with bus := .i3c, dyn := addr }) ∧
    Effect (.setdasa addr true) s (s.setSvc { s.svc with bus := .i3c, dyn := addr }) ∧
    Effect .rstdaa s (s.setSvc { s.svc with bus := .i3c, dyn := 0 }) ∧
    bit (s.msgError.reg rSvcStatus) 2 = true ∧ bit (s.pecError.reg rSvcStatus) 3 = true) ∧
 (∀ (q w rest : List (Byte × Bool)) (left : Nat),
    (32 ≤ q.length → fifoWord q = some (q.take 32, q.drop 32)) ∧
    (fifoWord q = some (w, rest) → q = w ++ rest ∧ w.length ≤ 32 ∧ (w.length < 32 → rest = [] ∧ (w.getLast?).map (fun b => b.2) = some true)) ∧
    (q.length < 32 → (∀ b, q.getLast? = some b → b.2 = false) → fifoWord q = none) ∧
    (left < w.length → breaksRun w left = true) ∧
    (∀ i b, i + 1 < left → w[i]? = some b → b.2 = true → breaksRun w left = true) ∧
    (w.length ≤ left → (∀ b ∈ w, b.2 = false) → breaksRun w left = false))

/-! ### Power steward and cinch (11, 07) -/

/-- The link (R270, R274-R276): a training brings it up, a degraded one is logged; D3hot, L1; a host-port reset clears the enables and
keeps the HDM decoders (what Table 8.12 leaves silent is presumed, log 18). On and off requests (R355-R357, R433).
That nothing changes where the row's event cannot be is the model's choice (log 4). -/
def Obligations.LinkAndPowerRequests : Prop :=
 (∀ (rate width : Nat) (flit cxl d3 : Bool) (cause : ResetCause) (s s1 : State),
    (s.mayTrain rate width flit cxl = true →
      s.setHost { s.host with up := true, rate := rate, width := width, flit := flit, cxl := cxl, l1ss := s.param 0x0805 3 } = s1 →
      (s.linkParam 0x0801 ≤ rate → s.linkParam 0x0802 ≤ width → Effect (.linkTraining rate width flit cxl) s s1) ∧
      (rate < s.linkParam 0x0801 ∨ width < s.linkParam 0x0802 → Effect (.linkTraining rate width flit cxl) s
        ((s1.event portHost 0x0801 s.devicePath [BitVec.ofNat 8 rate, BitVec.ofNat 8 width]).raise 16))) ∧
    (s.mayTrain rate width flit cxl = false → Effect (.linkTraining rate width flit cxl) s s) ∧
    (s.host.up = true → Effect (.pmStateChange d3) s (s.setHost { s.host with d3hot := d3 })) ∧
    (s.host.up = true → s.holdsReads = false → Effect .aspmL1Entry s (s.emit (.message "ASPM L1 request" 0))) ∧
    (s.dev.state ≠ .standby → (s.host.up = true ∨ cause = .perst) → Answers (.hostPortReset cause) s (fun t =>
      t.host.memSpace = false ∧ t.host.busMaster = false ∧ t.host.up = (s.host.up && cause == .flr) ∧ t.host.decoders = s.host.decoders ∧
      t.intc.host = []))) ∧
 (∀ (secs : Nat) (s : State),
    (s.dev.state = .standby → s.power.offLatch = false → s.power.up = .none → s.power.critLock = false → Answers (.onRequest secs) s (fun t =>
      t.dev.state = .powering ∧ t.dev.prev = .standby ∧ t.dev.seq = 1 ∧ t.power.up = .bulk ∧ t.power.shelfEn = true ∧
      t.store.powerCycles = s.store.powerCycles + 1 ∧ t.store.record recPowerCycles = some (le 8 (s.store.powerCycles + 1)) ∧
      Out.pin "PFW_N" true ∈ t.out)) ∧
    (s.dev.state = .standby → s.power.offLatch = false → s.power.up = .none → s.power.critLock = true →
      Effect (.onRequest secs) s (s.setPower { s.power with shelfEn := true, onPending := true })) ∧
    (s.dev.state ≠ .standby ∨ s.power.offLatch = true → Effect (.onRequest secs) s s) ∧
    (s.dev.state = .serving → s.power.shutdown = .none →
      Effect .shelfEnLow s (s.setPower { s.power with shelfEn := false, offLatch := false, onPending := false, offAsked := true }) ∧
      (s.barOpen = true → Effect .offReq s (s.setPower { s.power with offLatch := true, offAsked := true }))) ∧
    (s.dev.state = .held → s.barOpen = true → Answers .offReq s (fun t => t.dev.state = .poweringDown ∧ t.power.offLatch = true ∧
      t.store.record recOpSeconds = some (le 8 s.store.opSeconds))) ∧
    Effect .critLockoutEnd s (s.setPower { s.power with critLock := false }))

/-- Rails (R352-R361, Tables 11.3, 11.4): a conversion in the window of the rail that is waited for raises the next one; a rail that does
not come is recorded and the sequence goes on, the bulk bus takes the device down; the highest rail falls first, after the array
operations have ended; a conversion of a slot without a rail only stands in the table. A channel that is not READY 25 ms after its
rails is FAULT when one of its dies is online, and OFFLINE when none is (R79).
That nothing changes where the row's event cannot be is the model's choice (log 4). -/
def Obligations.RailSequence : Prop :=
  ∀ (mv : BitVec 16) (i : Nat) (ch : Chan) (s : State),
    (s.power.pathHold = false → s.power.adcSlot = i → i < 5 → s.power.up = .rail i → s.dev.state = .powering → s.power.offAsked = false →
      s.power.faultWait = none →
      (inWindow i mv.toNat = true → Answers (.adcConversion mv) s (fun t => t.power.up = .rail (i + 1) ∧ i + 1 ∈ t.power.rails ∧ t.adcMv i = mv.toNat)) ∧
      (inWindow i mv.toNat = false → Answers (.adcConversion mv) s (fun t => t.power.up = .rail i ∧ t.power.rails = s.power.rails))) ∧
    (s.power.pathHold = false → s.power.adcSlot = 30 → Effect (.adcConversion mv) s
      (s.setPower { s.power with conv := s.power.conv + 1, adc := Tab.put s.power.adc 30 mv.toNat, holdNext := true, adcSlot := 31 }).afterProgram) ∧
    (s.power.up = .rail i → i < 5 → s.power.offAsked = false → Answers .railTimeout s (fun t =>
      t.power.up = .rail (i + 1) ∧ i ∈ t.power.timedOut ∧ i + 1 ∈ t.power.rails ∧ t.dev.state = s.dev.state)) ∧
    (s.power.up = .bulk → Answers .railTimeout s (fun t => t.dev.state = .poweringDown ∧ bit (t.reg rPwrStatus) 4 = true)) ∧
    (s.power.up = .none → Effect .railTimeout s s) ∧
    (∀ r rs, s.dev.state = .poweringDown → s.power.up = .none → s.power.rails = r :: rs →
      (s.arrayBusy = true → Effect .powerDown s s) ∧
      (s.arrayBusy = false → Answers .powerDown s (fun t => ∃ m, t.power.up = .down m ∧ m ∈ s.power.rails ∧ (∀ x ∈ s.power.rails, x ≤ m) ∧
        m ∉ t.power.rails ∧ t.dies = []))) ∧
    (s.dev.state = .poweringDown → s.power.up = .none → s.arrayBusy = false → s.power.rails = [] → Answers .powerDown s (fun t =>
      t.dev.state = .standby ∧ t.tacks = [] ∧ t.dies = [] ∧ t.media = s.media ∧ t.store = s.store)) ∧
    (((s.chan ch).st = .reset ∨ (s.chan ch).st = .init ∨ (s.chan ch).st = .training) →
      ((s.diesOf ch).any (fun k => (s.ctlOf k).online) = true → Effect (.channelStartTimeout ch) s (s.failChannel ch).advance ∧
        ((s.failChannel ch).chan ch).st = .fault) ∧
      ((s.diesOf ch).any (fun k => (s.ctlOf k).online) = false →
        Effect (.channelStartTimeout ch) s (s.setChan ch { s.chan ch with st := .offline }))) ∧
    ((s.chan ch).st = .ready → Effect (.channelStartTimeout ch) s s)

/-- The hold-up bank (R366-R369): a measurement in service starts with the figure for 30.0 V in force; the bank drains once the dirty
level is below the temporary ceiling; a drain that is too slow restores the figures of before; a window that does not complete fails,
and the usable energy is 0.
That nothing changes where the row's event cannot be is the model's choice (log 4). -/
def Obligations.BankMeasurement : Prop :=
  ∀ (m : Meas) (s : State),
    (s.barOpen = true → Effect .measure s s.startMeasure) ∧
    (s.field rPwrChgCfg 20 12 ≠ 0 → s.field rPwrChgCfg 20 12 ≤ s.measHours → Effect .measurementPeriod s s.startMeasure) ∧
    ((s.field rPwrChgCfg 20 12 = 0 ∨ s.measHours < s.field rPwrChgCfg 20 12) → Effect .measurementPeriod s s) ∧
    ((s.dev.state = .serving ∨ s.dev.state = .maintenance) → s.power.meas = none → s.power.overvolt = false →
      s.startMeasure.power.tempCeiling = true ∧ s.startMeasure.power.bankE = s.energyAt s.power.bankC s.power.bankEsr 30000 ∧
      ∃ x, s.startMeasure.power.meas = some x ∧ x.step = .dirty ∧ x.inService = true ∧ x.prevE = s.power.bankE) ∧
    (s.power.meas = some m →
      (m.step = .dirty → s.overCeiling = false → Effect .measurementDrainDone s (s.setPower { s.power with
        chg := false, pathHold := true, pathMain := false, holdNext := true, meas := some { m with step := .drain } })) ∧
      (m.step = .dirty → s.overCeiling = true → Effect .measurementDrainDone s s) ∧
      (m.step = .drain → Effect .drainTimeout s (((s.setPower { s.power with
        pathMain := true, pathHold := false, tempCeiling := false, meas := none
        measFlags := s.power.measFlags ||| 4#7 }).setEnergy m.prevE).endMeasCommands)) ∧
      (m.step = .charge → Effect .measurementTimeout s (s.measFailed m) ∧ (s.measFailed m).power.bankE = 0 ∧ (s.measFailed m).power.meas = none ∧
        (s.measFailed m).dev.degraded = true) ∧
      (m.inService = false → Effect .energyEstimate s ((s.setPower { s.power with measFlags := s.power.measFlags ||| 8#7 }).setEnergy
        (s.energyAt s.power.bankC s.power.bankEsr (s.adcMv 32)))))

/-- Power failure and the AON island (R26, R348, R349, R371, R372, R403): the power-fail warning takes SERVING to CINCH on the hold path
with PFW_N low; it does not fire again before it has rearmed; the AON rows keep their counts; an AON reset leaves what stands in the store
and, but for the pages of programs that it cuts (R72), on the medium, and takes every register to its reset value; AON boot counts the power cycle.
That nothing changes where the row's event cannot be is the model's choice (log 4). -/
def Obligations.PowerFailAndAon : Prop :=
  ∀ (mv : BitVec 16) (s : State),
    (s.power.pfwLive = true → Effect .pfw s s) ∧
    (s.power.pfwLive = false → s.dev.state = .serving → Answers .pfw s (fun t => t.dev.state = .cinch ∧ t.power.pathHold = true ∧
      t.power.pathMain = false ∧ t.power.pfwLive = true ∧ Out.pin "PFW_N" false ∈ t.out ∧
      t.reg rPwrPfwCount = Nat.min 0xFFFFFFFF (s.reg rPwrPfwCount + 1))) ∧
    Effect .pfwRearm s (s.setPower { s.power with pfwLive := false }) ∧
    (s.power.aonBack = false → Effect (.aonSwitch mv) s
      (((s.setPower { s.power with aonBack := true }).bump rPwrAonSwitch 0 32 1).event portPower 0x0103 s.devicePath (le 2 mv.toNat))) ∧
    (s.power.aonBack = true → Effect (.aonSwitch mv) s s) ∧
    Effect .aonReturn s (s.setPower { s.power with aonBack := false }) ∧
    Answers (.aonReset none none) s (fun t => t.dev = Dev.reset ∧ (∀ off, off ∉ trailRegs → t.reg off = regReset off) ∧
      t.store.copies = s.store.copies ∧ t.store.evlog = s.store.evlog ∧ t.svc = Svc.reset ∧ t.media = (s.darken (fun _ => true)).media ∧
      (s.arrayBusy = false → t.media = s.media) ∧ t.tacks = []) ∧
    (s.dev.state = .standby → s.store.journal.all (fun e => !e.2.opened) = true → Answers .aonBoot s (fun t =>
      t.store.powerCycles = (s.recordNat recPowerCycles).getD 0 + 1 ∧ t.store.opSeconds = (s.recordNat recOpSeconds).getD 0 ∧
      t.store.record recPowerCycles = some (le 8 ((s.recordNat recPowerCycles).getD 0 + 1)) ∧
      t.dev.unitId = BitVec.ofNat 14 ((s.recordNat recUnitId).getD 0) ∧ t.store.evCount ≤ 2048)) ∧
    (s.dev.state ≠ .standby → Effect .aonBoot s s) ∧
    (s.dev.state = .standby → Effect .pllLost s s) ∧
    (s.dev.state ≠ .standby → Effect .pllLost s
      (((s.setPower { s.power with pllLost := true }).event portPower 0x0102 s.devicePath []).softFault causePll))

/-- The cinch (Table 7.8, R33, R199, R373): each step ends only when what it waits for has ended, in its order; the delta holds the age
of every online die and ends with its length; at its commit the device powers down with cause DONE; the budget, the holdover and the
floor of the hold path end it with theirs, and a fault that came goes on to FAULT.
That nothing changes where the row's event cannot be is the model's choice (log 4). -/
def Obligations.CinchSteps : Prop :=
  ∀ (s : State) (x : Cinch), s.power.cinch = some x → s.dev.state = .cinch →
    (x.step = .accept → Effect .cinchAcceptEnd s ((s.setCache { s.cache with frozen := true }).setCinchStep .writeback).advance) ∧
    (x.step = .writeback → s.writtenBack = true → Effect .cinchWritebackComplete s (s.setCinchStep .parity)) ∧
    (x.step = .writeback → s.writtenBack = false → Effect .cinchWritebackComplete s s) ∧
    (x.step = .parity → s.blocks.stitches = [] → s.tacks = [] → Effect .cinchParityComplete s (s.flushJournal.setCinchStep .journal)) ∧
    (x.step = .journal → s.journalDone = true → ∀ s1, s.deltaRecords.foldl State.append s = s1 → Answers .cinchJournalComplete s (fun t =>
      t.xlat = s1.flushJournal.xlat ∧ t.power.cinch = some { x with step := .delta, deltaRseq := some (s1.nextRseq - 1) })) ∧
    (x.step ≠ .accept → Effect .cinchAcceptEnd s s) ∧ (x.step ≠ .journal → Effect .cinchJournalComplete s s) ∧
    (∃ rs, s.deltaRecords = rs ++ [JRec.deltaEnd rs.length] ∧ ∀ e ∈ s.ctl, e.2.online = true → JRec.age e.1 (s.age e.1).counter ∈ rs) ∧
    (x.fault = none →
      (∀ r, x.step = .delta → x.deltaRseq = some r → s.committed r = true → Answers .cinchDeltaCommitted s (fun t =>
        t.dev.state = .poweringDown ∧ t.power.cutCause = 1 ∧ t.power.cinch = none)) ∧
      Answers .cinchBudgetExpiry s (fun t => t.dev.state = .poweringDown ∧ t.power.cutCause = 2) ∧
      (s.power.pllLost = true → Answers .pllHoldoverExpiry s (fun t => t.dev.state = .poweringDown ∧ t.power.cutCause = 2)) ∧
      (∀ mv : BitVec 16, s.power.pathHold = true → s.power.holdNext = true → mv.toNat ≤ s.holdFloor → Answers (.adcConversion mv) s (fun t =>
        t.dev.state = .poweringDown ∧ t.power.cutCause = 3))) ∧
    (∀ f, x.fault = some f → s.power.pfwLow = false → Answers .cinchBudgetExpiry s (fun t => t.dev.state = .fault ∧ t.power.cutCause = 2))

/-! ### Block life (06) -/

/-- The positions that a new stitch takes (R208, R209): distinct channels, at most two of one octet, each on an online die of its channel
that has a free die-block.
Forming and filling stitches (R208-R211, R230): nothing is formed while a stream still has an open stitch; too few positions are
logged; a member that may take leaves starts its program, and one that may not changes nothing; a complete row gets its parity.
That nothing changes where the row's event cannot be is the model's choice (log 4). -/
def Obligations.StitchFilling : Prop :=
 (∀ (s : State) (k : Nat) (js : List Nat),
    ((s.placements k js []).map (fun e => e.2 / 8)).Nodup ∧
    (∀ o, (((s.placements k js []).map (fun e => e.2 / 64)).filter (fun x => x == o)).length ≤ 2) ∧
    ∀ e ∈ s.placements k js [], e.1 ∈ js ∧ (s.ctlOf e.2).online = true ∧ (s.leastWorn e.2).isSome = true) ∧
 (∀ (copy : Bool) (i : Fin 48) (m : Fin 16) (s : State),
    ((s.openStitch copy).isSome = true → Effect (.stitchForm copy) s s) ∧ (s.mounted = false → Effect (.stitchForm copy) s s) ∧
    (∀ ps, s.placements (s.blocks.stitchSeq % 96) (List.range 18) [] = ps → s.mounted = true → s.engines = true → s.openStitch copy = none →
      s.blocks.stitches = [] →
      ((ps.filter (fun e => decide (e.1 < 16))).length < 8 → Effect (.stitchForm copy) s
        (s.event portCore 0x0601 s.devicePath (le 8 s.blocks.stitchSeq ++ le 1 ps.length))) ∧
      (8 ≤ (ps.filter (fun e => decide (e.1 < 16))).length → ps.any (fun e => e.1 == 16) = true → ps.any (fun e => e.1 == 17) = true →
        s.dev.spaceLow = false → Effect (.stitchForm copy) s (ps.foldl (fun s e => s.openPosition 0 copy e.1 e.2) (s.setBlocks { s.blocks with
          stitchSeq := s.blocks.stitchSeq + 1, stitches := [(0, { Stitch.init with seq := s.blocks.stitchSeq, copy := copy })] })).checkSpace)) ∧
    (s.mayTake i m 32 = true → Effect (.memberProgram i m) s (s.takeLeaves i m)) ∧ (s.mayTake i m 32 = false → Effect (.memberProgram i m) s s) ∧
    (s.mayTake i m 1 = true → Effect (.padTimeout i m) s (s.takeLeaves i m)) ∧ (s.mayTake i m 1 = false → Effect (.padTimeout i m) s s) ∧
    (∀ x row, Tab.find s.blocks.stitches i.val = some x → s.mounted = true → x.st = .filling → s.nextRow i x = some row → x.pLost = false →
      x.qLost = false → Effect (.parityRowProgram i) s ((s.programParity i x row false).programParity i x row true)) ∧
    (Tab.find s.blocks.stitches i.val = none → Effect (.parityRowProgram i) s s))

/-- Burnishing (R216, R217): the reads of every codeword of the member that is next begin, as far as tack slots have room, and those of
a member whose reads have begun go on; when all have ended, a member that passes is BURNISHED with its BLOCK record, and one that
fails has its failing planes flagged and its die-block forced.
That nothing changes where the row's event cannot be is the model's choice (log 4). -/
def Obligations.BurnishRows : Prop :=
  ∀ (i : Fin 48) (m : Fin 16) (db : Nat) (s s1 : State) (x : Stitch) (run : ReadRun),
    Tab.find s.blocks.stitches i.val = some x → Tab.find x.positions m.val = some db →
    (s.engines = true → s.burnishOrder.head? = some (burnishKey i m) →
      { db := db, toRead := s.codewordsIn db (x.next m) (fun _ => List.range 8), waiting := [], bad := 0 } = run →
      s.setBlocks { s.blocks with
        burnishing := Tab.put s.blocks.burnishing (burnishKey i m) run
        burnishFirst := s.blocks.burnishFirst.filter (fun j => j != burnishKey i m)
        stitches := Tab.change s.blocks.stitches i.val (fun x => if x.st = .closed then { x with st := .burnishing } else x) } = s1 →
      Effect (.burnishMember i m) s (s1.burnishOn (burnishKey i m))) ∧
    (s.engines = true → s.burnishOrder.head? ≠ some (burnishKey i m) → Effect (.burnishMember i m) s (s.burnishOn (burnishKey i m))) ∧
    (s.engines = false → Effect (.burnishMember i m) s s) ∧
    (Tab.find s.blocks.burnishing (burnishKey i m) = none → Effect (.burnishResult i m () ()) s s) ∧
    (Tab.find s.blocks.burnishing (burnishKey i m) = some run →
      (run.over = false → s.engines = true → Effect (.burnishResult i m () ()) s (s.burnishOn (burnishKey i m))) ∧
      (run.over = true → s.setBlocks { s.blocks with burnishing := Tab.del s.blocks.burnishing (burnishKey i m) } = s1 →
        (planesOf run.bad = [] → Effect (.burnishResult i m () ()) s
          ((((s1.updDb db (fun r => { r with st := if r.st = .closed then .burnished else r.st })).setStitch i
            { x with passMask := x.passMask ||| BitVec.ofNat 16 (2 ^ m.val) }).append (.block 4 (dbDie db) (dbBlock db) 15 0 [])).releaseIf i)) ∧
        (planesOf run.bad ≠ [] → Effect (.burnishResult i m () ()) s (((planesOf run.bad).foldl (fun s q => s.updPb (s.serving db q) (fun r =>
          { (r.setFlag pbBurnishFail) with reason := if r.reason = 0 then 3 else r.reason })) s1).force db (planesOf run.bad)))))

/-- The skiver, refresh and erases (R219-R224): the skiver runs from below SKV_START until SKV_STOP; the COPY stream's next member takes
staged leaves; an emptied member has passed (R218) and is erased; one that a live tack refers to waits; with nothing emptied a die-block
that a power cycle left ERASE_PENDING is erased; the queued die-block that may be taken is
refreshed.
That nothing changes where the row's event cannot be is the model's choice (log 4). -/
def Obligations.SkiverRefreshAndErase : Prop :=
  ∀ (s : State) (slot m db : Nat) (x : Stitch),
    (s.engines = true → Answers .skiverVictimSelect s (fun t => t.blocks.skiving =
      if s.spaceFree < s.skvStart then true else if s.skvStop ≤ s.spaceFree then false else s.blocks.skiving)) ∧
    (s.engines = false → ∀ c ∈ [Instr.skiverVictimSelect, .skiverCopyProgram, .victimErase, .refreshJob], Effect c s s) ∧
    (s.engines = true → s.openStitch true = some slot → Tab.find s.blocks.stitches slot = some x → x.order.find? (s.memberReady x) = some m →
      (s.mayTake slot m 32 = true → Effect .skiverCopyProgram s (s.takeLeaves slot m).pumpJobs) ∧
      (s.mayTake slot m 32 = false → Effect .skiverCopyProgram s s)) ∧
    (∀ j, s.engines = true → s.blocks.jobs = [j] → s.jobDone j = true → s.blocks.erasing.contains j.db = false → (s.ctlOf (dbDie j.db)).online = true →
      ∀ s1, (s.passEmptied j.db).updDb j.db (fun r => { r with st := if r.st = .retired then .retired else .erasePending }) = s1 →
      (s1.referenced j.db = false → Effect .victimErase s (((s1.spawnErase j.db).kick (dbDie j.db)).checkSpace).endUnits) ∧
      (s1.referenced j.db = true → Effect .victimErase s s1.checkSpace.endUnits)) ∧
    (s.engines = true → s.blocks.jobs = [] → s.pendingErase = none → Effect .victimErase s s.pumpJobs) ∧
    (s.engines = true → s.blocks.jobs = [] → s.pendingErase = some db → Effect .victimErase s (((s.spawnErase db).kick (dbDie db)).pumpJobs)) ∧
    (s.engines = true → s.blocks.refreshQ = [db] → dbBlock db < 1024 → s.jobCandidate db = true → Effect .refreshJob s (s.startJob db true)) ∧
    (s.engines = true → s.blocks.refreshQ = [] → Effect .refreshJob s s)

/-- Scrub, system copies and wear (R124, R225, R234): the patrol reads slot (page mod 8) of every programmed page of a burnished
die-block and moves on; a sample raises CORR_MAX, and one that is too worn or took the ladder queues its die-block for refresh; a
system block that was queued is erased first, for its contents to be written again; a snapshot keeps the newest 32 totals and stores
the record.
That nothing changes where the row's event cannot be is the model's choice (log 4). -/
def Obligations.ScrubAndSnapshots : Prop :=
  ∀ (n : BitVec 20) (corr k last : Nat) (learn : List Int) (db : Nat) (s s1 : State) (t : Tack) (r : MediaRead) (c : Option Cell) (run : ReadRun),
    (s.engines = true → (s.dbRec (poolDb n.toNat)).st = .burnished → (s.dbRec (poolDb n.toNat)).lastPage = some last →
      Tab.find s.blocks.scrubbing (poolDb n.toNat) = none →
      { db := poolDb n.toNat, toRead := s.codewordsIn (poolDb n.toNat) (last + 1) (fun p => [p % 8]), waiting := [], bad := 0 } = run →
      Effect (.scrubPatrol n () ()) s ((s.setBlocks { s.blocks with
        scrubbing := Tab.put s.blocks.scrubbing (poolDb n.toNat) run, scrubPos := n.toNat + 1 }).scrubOn (poolDb n.toNat))) ∧
    (s.engines = true → (s.dbRec (poolDb n.toNat)).st = .burnished → (Tab.find s.blocks.scrubbing (poolDb n.toNat)).isSome = true →
      Effect (.scrubPatrol n () ()) s (s.scrubOn (poolDb n.toNat))) ∧
    ((s.dbRec (poolDb n.toNat)).st ≠ .burnished → Effect (.scrubPatrol n () ()) s s) ∧
    (t.op = .scrubRead → s.stepPassed k t r c corr learn = s1 →
      (s1.pb (planeBlock r.addr.toNat)).corrMax = Nat.min 255 (Nat.max (s.pb (planeBlock r.addr.toNat)).corrMax corr) ∧
      (s.blocks.scrubbing.any (fun e => e.2.holds r.addr) = true → t.retry ≠ 0 ∨ s.scrubLimit < corr → s.holdsData (s.dbOf r.addr) = true →
        s.blocks.forced.contains (s.dbOf r.addr) = false → s.blocks.jobs = [] → s.dbOf r.addr ∈ s1.blocks.refreshQ)) ∧
    (s.engines = true → s.blocks.refreshQ.find? (fun db => decide (1032 ≤ dbBlock db) && (s.ctlOf (dbDie db)).online && !s.blocks.erasing.contains db) =
      some db → s.blocks.renew = none →
      (dbBlock db = 1039 → s.spawnSystemErase engRefresh db = s1 →
        Effect .systemCopyRefresh s ((s1.setBlocks { s1.blocks with erasing := s.blocks.erasing ++ [db] }).kick (dbDie db))) ∧
      (dbBlock db ≠ 1039 → Effect .systemCopyRefresh s (s.startRenew db).renewOn)) ∧
    (s.engines = true → s.blocks.renew.isSome = true → Effect .systemCopyRefresh s s.renewOn) ∧
    (s.mounted = true → Answers .wearSnapshot s (fun t => t.blocks.snapshots.getLast? = some s.wearNow ∧ (s.blocks.snapshots.length ≤ 32 →
      t.blocks.snapshots.length ≤ 32) ∧ t.store.record (recWear0 + s.store.wearNext % 32) = some s.wearNow.bytes)) ∧
    (s.mounted = false → Effect .wearSnapshot s s)

/-! ### Translation, journal and welts (05) -/

/-- Segments and directory lines (R167, R172-R178, R181): a segment of which each codeword is good in some copy becomes resident, one
with a codeword bad in both is lost; a DIRTY segment is written with up to three more; a line rebuilt and read back good goes on, and one
that reads back bad is met once more, with SOURCE 3; the patrol reports a bad line; a line of three errors moves to a free spare, which
the store keeps.
That nothing changes where the row's event cannot be is the model's choice (log 4). -/
def Obligations.SegmentsAndLines : Prop :=
  ∀ (seg : BitVec 22) (line : BitVec 19) (s s0 s1 s2 : State) (k i : Nat) (t : Tack) (sl : SegSlot) (g l : Nat),
    seg.toNat = g → line.toNat = l →
    (s.tacks.find? (fun e => e.2.segment? == some g && !e.2.draining && e.2.rd.isNone) = none → Effect (.segReadDone seg () ()) s s) ∧
    (s.lineHeld (lineOf g) = true → Effect (.segReadDone seg () ()) s s) ∧
    (s.tacks.find? (fun e => e.2.segment? == some g && !e.2.draining && e.2.rd.isNone) = some (k, t) →
      s.lineHeld (lineOf g) = false → s.xlat.slots.find? (fun e => e.2.index == g && e.2.st == .loading) = some (i, sl) →
      (s.markSegment g t.outside).retire k = s0 →
      s0.setXlat { s0.xlat with slots := Tab.del s0.xlat.slots i } = s1 → (s1.entry g).st = .inMedia →
      s1.placeSegment g i (((s1.imageOf g).map (fun x => x.leaves)).getD []) = s2 →
      (t.flag fPoison = false → Effect (.segReadDone seg () ()) s (s2.pumpJobs.endUnits).searchOn.advance) ∧
      (t.flag fPoison = true → Effect (.segReadDone seg () ()) s ((s2.loseSegment g).pumpJobs.endUnits).searchOn.advance)) ∧
    (∀ ds, s.dirtySlots.map (fun e => e.2) = ds → s.mapUp = true →
      (g ∈ ds → Effect (.segWrite seg) s (s.writeSegments (g :: (ds.filter (fun x => x != g)).take 3))) ∧
      (g ∉ ds → Effect (.segWrite seg) s s)) ∧
    (s.xlat.dirUp = true → l ∈ s.xlat.badLines.take 4 → s.xlat.errs.any (fun e => e.line == l && decide (3 ≤ e.count)) = false →
      s.xlat.pinsDue = [] → ({ s with host := { s.host with dirRebuilds := s.host.dirRebuilds + 1 } } : State).aer .corrected [] = s0 →
      Effect (.dirLineRebuild line ⟨true, true⟩) s ((((List.range 8).map (fun i => 8 * l + i)).foldl State.segmentWritten
        (s0.setXlat { s0.xlat with badLines := s0.xlat.badLines.filter (fun x => x != l) })).advance)) ∧
    (s.xlat.dirUp = true → l ∈ s.xlat.badLines.take 4 → Effect (.dirLineRebuild line ⟨true, false⟩) s (s.dirError l 3)) ∧
    (∀ out, l ∉ s.xlat.badLines.take 4 → Effect (.dirLineRebuild line out) s s) ∧
    (s.powered = true → bit (s.reg rXlatCtrl) 9 = true → Effect (.dirPatrol line .bad) s (s.dirError l 1) ∧
      l ∈ (s.dirError l 1).xlat.badLines) ∧
    (bit (s.reg rXlatCtrl) 9 = false → Effect (.dirPatrol line .bad) s s) ∧ (s.xlat.dirUp = true → s.lineCorrupt l = false → Effect (.dirPatrol line .good) s s) ∧
    (s.xlat.spares = [] → Tab.find (s.remapLine l).xlat.spares 0 = some { line := some l, bad := false } ∧
      (s.remapLine l).store.record recDirRemap = some (le 8 (2 ^ 31 + l) ++ zeros 56))

/-- The map updater and the journal (R165, R171, R185-R190): the first programmed leaf that may be mapped is taken; a read of its
line that the updater finds bad is a directory error with SOURCE 0; a page that closes is
numbered JHEAD and holds the records in their order, its successor empty; nothing is taken while the map is down; a ring die-block that
lies below REPLAY_FROM is given back.
That nothing changes where the row's event cannot be is the model's choice (log 4). -/
def Obligations.UpdaterAndJournal : Prop :=
  ∀ (s s1 : State) (i : MapItem) (st : Fin 8) (b : Fin 4) (line : BitVec 19),
    (s.mayMap = true → s.xlat.queue.find? (fun i => s.updatable (granuleOf i.leaf)) = some i → i.tack = none →
      i.source = none → s.lineCorrupt (lineOf (granuleOf i.leaf)) = false → (s.setXlat { s.xlat with queue := s.xlat.queue.erase i }).mapLeaf i = s1 → s1.pageAwaited = false →
      Effect .leafMapAppend s s1.checkSpace.advance) ∧
    (s.mayMap = true → s.xlat.queue.find? (fun i => s.updatable (granuleOf i.leaf)) = some i → s.lineCorrupt (lineOf (granuleOf i.leaf)) = true →
      Effect .leafMapAppend s (s.dirError (lineOf (granuleOf i.leaf)) 0)) ∧
    (s.xlat.dirUp = true → Effect (.dirPatrol line .badToUpdater) s (s.dirError line.toNat 0)) ∧
    (s.mapUp = false → Effect .leafMapAppend s s) ∧
    (s.xlat.dirUp = true → Effect .jrnWindowExpiry s s.closePage) ∧ (s.xlat.dirUp = false → Effect .jrnWindowExpiry s s) ∧
    (s.xlat.jRecs ≠ [] → s.closePage.xlat.jRecs = [] ∧ s.closePage.xlat.jHead = s.xlat.jHead + 1 ∧
      ∃ p, s.closePage.xlat.pages = s.xlat.pages ++ [p] ∧ p.jseq = s.xlat.jHead ∧ p.recs = s.xlat.jRecs ∧ p.epoch = s.xlat.epoch) ∧
    (∀ r, s.xlat.jRecs.length < 4031 → (s.append r).xlat.jRecs = s.xlat.jRecs ++ [r] ∧ (s.append r).xlat.jHead = s.xlat.jHead) ∧
    (∀ w, s.xlat.dirUp = true → s.newestWelt = some w →
      (s.xlat.ring.filter (fun e => e.1 / 8192 == st.val && e.1 / 1024 % 4 == b.val)).length = 2048 →
      (∀ e ∈ s.xlat.ring, e.1 / 8192 = st.val → e.1 / 1024 % 4 = b.val → e.2 < w.replayFrom / 4096) →
      Answers (.journalRingErase st b) s (fun t => t.xlat.ring = s.xlat.ring.filter (fun e => !(e.1 / 8192 == st.val && e.1 / 1024 % 4 == b.val)))) ∧
    (s.xlat.dirUp = false → Effect (.journalRingErase st b) s s)

/-- Welts (R183, R191-R193): a trigger makes one due; a welt that is due marks and copies the map into the set that does not hold the
newest, once no segment from before is left to write, the set's die-blocks to be erased and its sixteen streams of pages to be
programmed, which a further WELT_START asks on; when the image has programmed it is the newest one, its WELT_DONE appended.
That nothing changes where the row's event cannot be is the model's choice (log 4). -/
def Obligations.WeltRows : Prop :=
  ∀ (v : Word) (s : State) (w : Welt),
    (s.mapUp = true → s.xlat.run = none → s.xlat.weltDue = true → s.mustWrite false = [] → s.imagesUnderWay false = false →
      Effect .weltStart s (s.markWelt false)) ∧
    (∀ g gs, s.mapUp = true → s.xlat.run = none → s.xlat.weltDue = true → s.mustWrite false = g :: gs →
      Effect .weltStart s ((s.setXlat { s.xlat with run := some (.segments (g :: gs) false) }).writeSegments ((g :: gs).take 4))) ∧
    (s.xlat.run = none → s.xlat.weltDue = false → Effect .weltStart s s) ∧
    (∀ er st, s.mapUp = true → s.xlat.run = some (.image w er st) → Effect .weltStart s (s.resumeWelt er st)) ∧
    (∃ x, (s.markWelt false).xlat.run = some (.image x (weltBlocks x.setB) ((List.range 16).map (fun ch => (dieKey ch 0, (ch % 8, 0))))) ∧ x.seq = s.xlat.weltSeq + 1 ∧ x.clean = false ∧ x.markRseq = s.nextRseq ∧
      (s.markWelt false).xlat.weltDue = false ∧ (s.markWelt false).xlat.markRseq = s.nextRseq ∧
      (∀ y ∈ (s.markWelt false).xlat.welts, y.setB ≠ x.setB) ∧ ∀ y, s.newestWelt = some y → x.setB = !y.setB) ∧
    (s.mapUp = true → s.xlat.run = none → Effect .weltPeriodExpiry s (s.setXlat { s.xlat with weltDue := true })) ∧
    (s.xlat.run ≠ none → Effect .weltPeriodExpiry s s) ∧
    (s.mapUp = true → s.xlat.run = some (.image w [] []) → Effect .weltDone s (s.endWelt w) ∧ (s.endWelt w).xlat.run = none ∧
      (s.endWelt w).xlat.weltSeq = w.seq ∧ w ∈ (s.endWelt w).xlat.welts) ∧
    (s.xlat.run = none → Effect .weltDone s s) ∧
    (∀ er st, s.xlat.run = some (.image w er st) → ¬ (er = [] ∧ st = []) → Effect .weltDone s s) ∧
    (s.barOpen = true → s.mapUp = true → v.getLsbD 8 = true → Answers (.weltNow v) s (fun t => t.xlat.weltDue = true ∧
      t.reg rXlatCtrl = v.toNat % 4 + bits v.toNat 9 1 * 512))

/-! ### Boot and mount (12, 04) -/

/-- Boot attempts (R388): an attempt is counted in the slot pointer before its image is read; a trial that has had three goes back to the
previous slot; with no slot left the device faults; an attempt that succeeds clears the count; one that times out starts again.
That nothing changes where the row's event cannot be is the model's choice (log 4). -/
def Obligations.BootAttempts : Prop :=
  ∀ (parts : BootParts) (s s1 s2 : State) (slot a p n : Nat), a < 256 → p < 256 → n < 3 →
    (s.slotPtr = { active := a, previous := p, trial := true, attempts := 3 } → s.beginAttempt.2 = some p ∧
      s.beginAttempt.1.slotPtr = { active := p, previous := 0xFF, trial := false, attempts := 1 }) ∧
    (∀ tr, s.slotPtr = { active := a, previous := p, trial := tr, attempts := n } → s.beginAttempt.2 = some a ∧
      s.beginAttempt.1.slotPtr = { active := a, previous := p, trial := tr, attempts := n + 1 }) ∧
    (s.slotPtr = { active := a, previous := 0xFF, trial := false, attempts := 3 } → s.beginAttempt.2 = none) ∧
    (s.dev.state = .mounting → s.boot.step = .boot → s.bootReady = true → s.cmdq.cmds = [] →
      (s.pointTrial.beginAttempt = (s1, some slot) → parts.bad.foldl (fun s x => s.copyBad slot x) s1 = s2 →
        (parts.ok = true → s2.bootable slot = true →
          Effect (.bootAttempt parts) s ((s2.loadProfile slot).setBoot { s2.boot with step := .attempt, slot := slot })) ∧
        (parts.ok = false ∨ s2.bootable slot = false → Effect (.bootAttempt parts) s s2)) ∧
      (s.pointTrial.beginAttempt = (s1, none) → Effect (.bootAttempt parts) s (s1.softFault causeBoot))) ∧
    (s.boot.step ≠ .boot → Effect (.bootAttempt parts) s s) ∧
    (s.boot.step = .attempt → Effect .bootAttemptTimeout s (s.setBoot { s.boot with step := .boot })) ∧
    (s.boot.step ≠ .attempt → Effect .bootAttemptTimeout s s ∧ Effect .bootReady s s) ∧
    (s.boot.step = .attempt → s.dev.state = .mounting → ∀ s2, ({ s.setSlotPtr { s.slotPtr with trial := false, attempts := 0 } with
        therm := { s.therm with accepted := true }, boot := { s.boot with triedPrevious := false } } : State) = s2 →
      Effect .bootReady s (s2.restoreCtxs.restoreSpares.restoreSpace.restoreStaged.setBoot
        { s2.boot with step := .ready }))

/-- The mount (R195-R197, R390): the usable welt of largest sequence is chosen, and with none the device faults; the rows of each channel's
first die are read and pass 1 applies them; replay and the writing of the directory follow in their steps, and the entry to SERVING makes
the map usable.
That nothing changes where the row's event cannot be is the model's choice (log 4). -/
def Obligations.MountRows : Prop :=
  ∀ (reads : MountReads) (ws : List Welt) (w : Welt) (s : State),
    (newestOf ws = some w → w ∈ ws ∧ ∀ x ∈ ws, x.seq ≤ w.seq) ∧ (newestOf ws = none → ws = []) ∧
    (s.dev.state = .mounting → s.boot.step = .ready → Effect (.mountWeltChoice reads) s (s.chooseWelt reads)) ∧
    (s.dev.state = .mounting → s.boot.step = .ready → s.isBlankDevice = false → s.power.pfwLow = false → s.arrayBusy = false →
      s.power.faultWait = none →
      (s.xlat.welts.filter (fun x => reads.welts.contains x.seq)).filter (s.setXlat { s.xlat with unread := reads.unread }).usable = [] →
      Answers (.mountWeltChoice reads) s (fun t => t.dev.state = .fault)) ∧
    (s.dev.state = .mounting → s.boot.step = .welt → s.firstDies.all (fun k => (s.age k).read) = true → Effect (.brandPass1 ()) s s.pass1) ∧
    (∀ k, s.dev.state = .mounting → s.boot.step = .welt → s.firstDies = [k] → (s.age k).brandRun = none → (s.age k).read = false →
      Effect (.brandPass1 ()) s (s.brandBegin k)) ∧
    (s.dev.state = .mounting → s.boot.step = .pass1 → s.xlat.chosen = some w → Effect .journalReplay s (s.replay w)) ∧
    (s.xlat.chosen = none → Effect .journalReplay s s) ∧
    (s.dev.state = .mounting → s.boot.step = .replayed → s.power.faultWait = none → Effect .directoryWrite s
      (((s.xlat.dir.filter (fun e => e.2.pinned && e.2.st == .inMedia)).map (fun e => e.1)).foldl State.bringIn s).enterServing.releaseAll) ∧
    (s.dev.state ≠ .mounting → Effect (.mountWeltChoice reads) s s ∧ Effect (.brandPass1 ()) s s ∧ Effect .directoryWrite s s)

/-- The read watchdog answers with poison a read that has no completion, or no tack yet, but not in an activation pause (R156, R289); a
tack past its DEADLINE is LATE (R15, R301). Brand assessment (R126-R132): a provisional die's rows are read and pass 2 assesses it;
REASSESS changes no counter; an assessment moves a counter by U less the U applied before.
That nothing changes where the row's event cannot be is the model's choice (log 4). -/
def Obligations.WatchdogAndBrand : Prop :=
 (∀ (slot : BitVec 16) (s : State) (t : Tack),
    (∀ r, s.tacks = [(slot.toNat, t)] → t.req = some r → r.cxl = false → t.op = .hostRead → t.draining = false → s.cache.pause = false → t.rd = none →
      (∀ e ∈ s.arbs, e.2.grant ≠ some slot.toNat ∧ e.2.next ≠ some slot.toNat) → s.cache.requests = [] → s.cmdq.cmds = [] →
      s.cache.enabled = true → s.cache.lines = [] →
      Answers (.readWatchdog slot) s (fun u => (∃ bs, Out.cpl r.tag.toNat .poisoned bs ∈ u.out) ∧
        u.reg rHpWdog = Nat.min 0xFFFFFFFF (s.reg rHpWdog + 1))) ∧
    (∀ r, Tab.find s.tacks 0xFFFF = none → s.cache.pause = false → s.cache.requests.find? (fun r => !r.write) = some r →
      Effect (.readWatchdog 0xFFFF) s (s.watchUnborn r)) ∧
    (s.cache.pause = true → Effect (.readWatchdog slot) s s) ∧
    (∀ c, Tab.find s.tacks slot.toNat = some t → t.flag fLate = false → t.deadline ≠ 0xFFFF → t.op = .hostRead → t.origin = .ctx c → t.cls = 1 →
      Answers (.tackLate slot) s (fun u => (u.ctx c.toNat).late = Nat.min 0xFFFFFFFF ((s.ctx c.toNat).late + 1) ∧
        bits (u.reg rDriftLate) 0 16 = Nat.min 0xFFFF (bits (s.reg rDriftLate) 0 16 + 1) ∧
        Tab.find u.tacks slot.toNat = some (t.setFlag fLate)))) ∧
 (∀ (die : Fin 768) (v : Word) (s : State),
    (s.dev.state = .serving ∨ s.dev.state = .maintenance →
      ((s.age die.val).provisional = true → (s.age die.val).read = true →
        Effect (.brandPass2Die die) s (((((s.assess die.val (s.age die.val).rows).endPass2).checkAges).reassessNext die.val).kick die.val)) ∧
      ((s.age die.val).provisional = true → (s.age die.val).read = false → (∀ i : DieNo, (s.age (dieKey (die.val / 8) i)).brandRun = none) →
        Effect (.brandPass2Die die) s (s.brandBegin die.val))) ∧
    ((s.age die.val).provisional = false → (s.age die.val).brandRun = none → Effect (.brandPass2Die die) s s) ∧
    (s.dev.state ≠ .serving → s.dev.state ≠ .maintenance → Effect (.brandPass2Die die) s s) ∧
    (s.barOpen = true → Answers (.reassess v ()) s (fun t => (∀ k, (t.age k).counter = (s.age k).counter) ∧
      (v.getLsbD 2 = false → t.drift.learned = s.drift.learned) ∧ t.media = s.media ∧ t.dies = s.dies)) ∧
    (s.barOpen = true → v.getLsbD 2 = true → v.getLsbD 3 = false → Answers (.learnClear v) s (fun t => t.drift.learned = [] ∧
      t.drift.dies = s.drift.dies ∧ t.drift.profile = s.drift.profile)) ∧
    (∀ k rows, ((s.assess k rows).age k).provisional = false ∧ ((s.assess k rows).age k).counter =
      satAge ((s.age k).counter + (s.assessed k rows).u - (s.age k).uApplied)))

/-! ### The whole machine -/

/-- Every command runs to a next state, whatever the state and its operands. A command takes nothing from the queue and adds nothing to it:
with `StepRunsTheFrontCommand`, the commands run in the order in which they came. -/
def Obligations.NoCommandTouchesTheQueue : Prop :=
  ∀ (c : Instr) (s : State), ∃ t, exec c s = .next t ∧ t.pending = s.pending

/-- What reset leaves, where the spec gives a value (R31, R349, Table 1.13): the device is in STANDBY, nothing waits, no tack lives, no
die has power, and every register reads its reset value. The contents of the medium and of the store, and what the spec leaves open,
are the model's (logs 5 to 7).
The invariants below hold at reset. -/
def Obligations.ResetAndInvariants : Prop :=
 (State.reset.dev.state = .standby ∧ State.reset.pending = [] ∧ State.reset.tacks = [] ∧ State.reset.dies = [] ∧ State.reset.chans = [] ∧
  State.reset.cmdq.cmds = [] ∧ State.reset.store.evCount = 0 ∧ State.reset.xlat.dirUp = false ∧ State.reset.host.up = false ∧
  (∀ off, State.reset.reg off = regReset off) ∧ (∀ k, (State.reset.die k).st = .off) ∧ (∀ a, State.reset.cell a = none)) ∧
(State.reset.LogOk ∧ State.reset.DiesOk)

/-- EVT_COUNT never passes the 2,048 places of the log, and no port of the event arbiter holds more than its four events, whatever command
runs (R407, R408, R411). -/
def Obligations.EveryStepKeepsTheEventLog : Prop :=
  ∀ (s t : State), s.LogOk → step s = .next t → t.LogOk

/-- Every die keeps its program suspended at most 16 times (R70), its thresholds in each plane strictly ascending and below 1,024 (R62),
and an operation to go on with in every state that holds one (R69), whatever command runs. -/
def Obligations.EveryStepKeepsTheDies : Prop :=
  ∀ (s t : State), s.DiesOk → step s = .next t → t.DiesOk

/-! ### Rules stated whole -/

/-- A program or erase that ends while its die is SUSPENDING, or in the cycle in which SUSPEND arrives (then the SUSPEND row comes
first, log 1): the die holds no operation, a queued sense starts at once, and a queued RESUME is gone (R71). -/
def Obligations.CompletionPrevails : Prop :=
  ∀ (ch : Chan) (d : DieNo) (fail : Bool) (s : State) (x : Die) (o : ArrayOp) (c : Instr), s.die (dieKey ch d) = x → x.op = some o →
    c = (if o.erase then Instr.dieEraseEnd ch d fail else Instr.dieProgramEnd ch d fail) →
    (x.st = .suspending → Answers c s (fun t => (t.die (dieKey ch d)).op = none ∧ (t.die (dieKey ch d)).qResume = false ∧
      (x.qSense = none → (t.die (dieKey ch d)).st = .idle) ∧
      (∀ q, x.qSense = some q → (t.die (dieKey ch d)).st = .sense ∧ (t.die (dieKey ch d)).sense = some q))) ∧
    ((x.st = .prog ∧ o.erase = false ∧ x.suspCount < 16) ∨ (x.st = .erase ∧ o.erase = true) → ∃ s1, exec (.amc2Suspend ch d 0) s = .next s1 ∧
      Answers c s1 (fun t => (t.die (dieKey ch d)).op = none ∧ (t.die (dieKey ch d)).qResume = false ∧
        (x.qSense = none → (t.die (dieKey ch d)).st = .idle)))

/-- Loss counts at a draw edge whose winner does not withdraw: each requester that is present, once the
LOADs that may be encoded are, and does not win counts one more, up to
64; every other one is at 0; one that has reached 64 is guarded, and the lowest-coded such one wins when no guarded win fell in the
last 15 draws (R97; R98 gives what a guarded requester gets). -/
def Obligations.LossCountsGuard : Prop :=
  ∀ (ch : Chan) (s : State) (a : Arb), s.arbOf ch = a → (s.chan ch).st = .ready → ¬ (a.slot = .data ∧ a.drawn = true) →
    ∃ w : Option Nat, Answers (.arbDraw ch false) s (fun t =>
      (t.arbOf ch).lastWinner = w.getD 15 ∧
      ∀ c, Tab.get (t.arbOf ch).losses c 0 = if c ∈ (s.holdLoads ch).presentOn ch ∧ w ≠ some c then Nat.min 64 (Tab.get a.losses c 0 + 1) else 0) ∧
      (∀ c, c ∈ (s.holdLoads ch).presentOn ch → 64 ≤ Tab.get a.losses c 0 → 15 ≤ a.sinceGuard → ∃ g ≤ c, w = some g ∧ 64 ≤ Tab.get a.losses g 0)

/-- A granted event that matches the last record: it matches when EVT_COUNT is not 0 and that record has its CODE, UNIT_PATH and
POWER_CYCLES; REPEAT then rises by one up to 0xFFFF, every other field and every other record stands, full log or not, and the event
interrupt source gets no edge (R409). -/
def Obligations.MatchingEventRepeats : Prop :=
  ∀ (s : State) (p : Nat) (e : Event) (q : List Event) (r : EvRec), s.store.nextEvent = some (p, e, q) →
    s.store.evAt (s.store.evCount - 1) = r →
    (s.store.matchesLast e = true ↔ s.store.evCount ≠ 0 ∧ r.code = e.code ∧ r.path = e.path ∧ r.cycles = s.store.powerCycles) ∧
    (s.store.matchesLast e = true → Answers .eventGrant s (fun t => t.store.evCount = s.store.evCount ∧
      t.store.evAt (s.store.evCount - 1) = { r with repeats := Nat.min 0xFFFF (r.repeats + 1) } ∧
      (∀ i, i ≠ s.store.evCount - 1 → t.store.evAt i = s.store.evAt i) ∧ t.store.evOverflow = s.store.evOverflow ∧
      Tab.find t.intc.host 7 = Tab.find s.intc.host 7))
end

