-- ==== Sys2Proof/Laws/Tab.lean ====
section
/-! SUPPORT. Tables and memories: a read after a write, and that every memory operation keeps the canonical form. -/

namespace Sys2Proof

variable {α : Type}

/-! ### Reads after writes -/

@[simp] theorem Tab.find_nil (k : Nat) : Tab.find ([] : Tab α) k = none := rfl

theorem Tab.find_put (t : Tab α) (k j : Nat) (a : α) : Tab.find (Tab.put t k a) j = if k = j then some a else Tab.find t j := by
  induction t with
  | nil => simp [Tab.put, Tab.find]
  | cons e r ih =>
    obtain ⟨i, b⟩ := e
    unfold Tab.put
    split
    · by_cases h : k = j
      · simp [Tab.find, h]
      · simp [Tab.find, h]
    · split
      · rename_i h
        subst h
        by_cases h : k = j <;> simp [Tab.find, h]
      · rename_i h1 h2
        by_cases h : k = j
        · subst h
          simp [Tab.find, ih, Ne.symm h2]
        · simp [Tab.find, ih, h]

theorem Tab.get_put (t : Tab α) (k j : Nat) (a d : α) : Tab.get (Tab.put t k a) j d = if k = j then a else Tab.get t j d := by
  unfold Tab.get
  rw [Tab.find_put]
  split <;> rfl

theorem Tab.find_del (t : Tab α) (k j : Nat) : Tab.find (Tab.del t k) j = if k = j then none else Tab.find t j := by
  induction t with
  | nil => simp [Tab.del, Tab.find]
  | cons e r ih =>
    obtain ⟨i, b⟩ := e
    unfold Tab.del
    split
    · rename_i h
      subst h
      rw [ih]
      by_cases h : i = j <;> simp [Tab.find, h]
    · rename_i h
      by_cases h1 : i = j
      · subst h1
        simp [Tab.find, Ne.symm h]
      · simp [Tab.find, h1, ih]

@[simp] theorem Tab.find_put_self (t : Tab α) (k : Nat) (a : α) : Tab.find (Tab.put t k a) k = some a := by
  simp [Tab.find_put]

@[simp] theorem Tab.get_put_self (t : Tab α) (k : Nat) (a d : α) : Tab.get (Tab.put t k a) k d = a := by
  simp [Tab.get_put]

/-- Whatever holds of every listed record and of the new one holds of every record after a `put`. -/
theorem Tab.mem_put (t : Tab α) (k : Nat) (a : α) (e : Nat × α) (h : e ∈ Tab.put t k a) : e = (k, a) ∨ e ∈ t := by
  induction t with
  | nil => simpa [Tab.put] using h
  | cons x r ih =>
    obtain ⟨i, b⟩ := x
    unfold Tab.put at h
    split at h
    · simpa using h
    · split at h
      · rcases List.mem_cons.mp h with h | h
        · exact .inl h
        · exact .inr (List.mem_cons_of_mem _ h)
      · rcases List.mem_cons.mp h with h | h
        · exact .inr (h ▸ List.mem_cons_self)
        · rcases ih h with h | h
          · exact .inl h
          · exact .inr (List.mem_cons_of_mem _ h)

theorem Tab.mem_of_find (t : Tab α) (k : Nat) (a : α) (h : Tab.find t k = some a) : (k, a) ∈ t := by
  induction t with
  | nil => simp at h
  | cons x r ih =>
    obtain ⟨i, b⟩ := x
    unfold Tab.find at h
    split at h
    · rename_i e
      subst e
      simp at h
      simp [h]
    · exact List.mem_cons_of_mem _ (ih h)

/-! ### Memories -/

theorem Memory.read_write (dflt : Byte) (m : Memory) (a j : Nat) (b : Byte) :
    Memory.read dflt (Memory.write dflt m a b) j = if a = j then b else Memory.read dflt m j := by
  unfold Memory.read Memory.write
  split
  · rename_i h
    subst h
    unfold Tab.get
    rw [Tab.find_del]
    split <;> rfl
  · rw [Tab.get_put]

/-- The canonical form, said of all entries at once. -/
theorem Memory.wf_iff (dflt : Byte) (m : Memory) :
    Memory.wf dflt m = true ↔ (∀ e ∈ m, e.2 ≠ dflt) ∧ m.Pairwise (fun x y => x.1 < y.1) := by
  induction m with
  | nil => simp [Memory.wf]
  | cons x r ih =>
    obtain ⟨i, b⟩ := x
    unfold Memory.wf
    cases r with
    | nil => simp [Memory.wf]
    | cons y r =>
      obtain ⟨j, c⟩ := y
      simp only [Bool.and_eq_true, bne_iff_ne, ne_eq, decide_eq_true_eq, ih, List.mem_cons, List.pairwise_cons, forall_eq_or_imp]
      constructor
      · rintro ⟨⟨h1, h2⟩, ⟨h3, h4⟩, h5, h6⟩
        exact ⟨⟨h1, h3, h4⟩, ⟨h2, fun e he => h2.trans (h5 e he)⟩, h5, h6⟩
      · rintro ⟨⟨h1, h3, h4⟩, ⟨h2, -⟩, h5, h6⟩
        exact ⟨⟨h1, h2⟩, ⟨h3, h4⟩, h5, h6⟩

theorem Tab.put_sorted (t : Tab α) (k : Nat) (a : α) (h : t.Pairwise (fun x y => x.1 < y.1)) :
    (Tab.put t k a).Pairwise (fun x y => x.1 < y.1) := by
  induction t with
  | nil => simp [Tab.put]
  | cons x r ih =>
    obtain ⟨i, b⟩ := x
    rw [List.pairwise_cons] at h
    unfold Tab.put
    split
    · rename_i hk
      rw [List.pairwise_cons, List.pairwise_cons]
      refine ⟨?_, h⟩
      intro e he
      rcases List.mem_cons.mp he with he | he
      · exact he ▸ hk
      · exact Nat.lt_trans hk (h.1 e he)
    · split
      · rename_i hk
        rw [List.pairwise_cons]
        exact ⟨fun e he => hk ▸ h.1 e he, h.2⟩
      · rename_i h1 h2
        rw [List.pairwise_cons]
        refine ⟨?_, ih h.2⟩
        intro e he
        rcases Tab.mem_put r k a e he with he | he
        · rw [he]
          simp only
          omega
        · exact h.1 e he

theorem Tab.del_sublist (t : Tab α) (k : Nat) : (Tab.del t k).Sublist t := by
  induction t with
  | nil => exact List.Sublist.refl _
  | cons x r ih =>
    obtain ⟨i, b⟩ := x
    unfold Tab.del
    split
    · exact ih.cons _
    · exact ih.cons_cons _

/-- Leaving entries out keeps the canonical form. -/
theorem Memory.wf_sublist (dflt : Byte) (m n : Memory) (h : n.Sublist m) (w : Memory.wf dflt m = true) : Memory.wf dflt n = true := by
  rw [Memory.wf_iff] at w ⊢
  exact ⟨fun e he => w.1 e (h.subset he), w.2.sublist h⟩

theorem Memory.wf_write (dflt : Byte) (m : Memory) (a : Nat) (b : Byte) (w : Memory.wf dflt m = true) :
    Memory.wf dflt (Memory.write dflt m a b) = true := by
  unfold Memory.write
  split
  · exact Memory.wf_sublist dflt m _ (Tab.del_sublist m a) w
  · rename_i hb
    rw [Memory.wf_iff] at w ⊢
    refine ⟨?_, Tab.put_sorted m a b w.2⟩
    intro e he
    rcases Tab.mem_put m a b e he with he | he
    · rw [he]
      exact hb
    · exact w.1 e he

theorem Memory.wf_writeBytes (dflt : Byte) (m : Memory) (a : Nat) (bs : List Byte) (w : Memory.wf dflt m = true) :
    Memory.wf dflt (Memory.writeBytes dflt m a bs) = true := by
  induction bs generalizing m a with
  | nil => exact w
  | cons b r ih => exact ih _ _ (Memory.wf_write dflt m a b w)

theorem Memory.wf_clear (dflt : Byte) (m : Memory) (a n : Nat) (w : Memory.wf dflt m = true) : Memory.wf dflt (Memory.clear m a n) = true :=
  Memory.wf_sublist dflt m _ List.filter_sublist w

/-- The bytes a write of several leaves are the ones written, and the others are as they were. -/
theorem Memory.read_writeBytes (dflt : Byte) (m : Memory) (a j : Nat) (bs : List Byte) :
    Memory.read dflt (Memory.writeBytes dflt m a bs) j =
      if a ≤ j ∧ j < a + bs.length then bs.getD (j - a) dflt else Memory.read dflt m j := by
  induction bs generalizing m a with
  | nil =>
    rw [if_neg]
    · rfl
    · simp
  | cons b r ih =>
    simp only [Memory.writeBytes, ih, Memory.read_write, List.length_cons]
    by_cases h1 : a = j
    · subst h1
      rw [if_neg (by omega), if_pos rfl, if_pos (by omega)]
      simp
    · by_cases h2 : a + 1 ≤ j ∧ j < a + 1 + r.length
      · rw [if_pos h2, if_pos (by omega)]
        obtain ⟨k, hk⟩ : ∃ k, j - a = k + 1 := ⟨j - a - 1, by omega⟩
        rw [hk, List.getD_cons_succ]
        congr 1
        omega
      · rw [if_neg h2, if_neg h1, if_neg (by omega)]

/-- No byte is listed at reset. -/
theorem Memory.wf_nil (dflt : Byte) : Memory.wf dflt [] = true := rfl

end Sys2Proof
end

