-- ==== Sys2Proof/Laws/Settle.lean ====
section
/-! SUPPORT. What the end of a step can change: `settle` and everything it calls only trails the state it is given. -/

namespace Sys2Proof.Machine

theorem State.Trails.refl (s : State) : s.Trails s := by
  constructor <;> first | rfl | exact List.prefix_rfl | (intros; rfl) | exact (fun _ => rfl) | exact ⟨rfl, rfl, rfl, rfl⟩

theorem State.Trails.trans {s t u : State} (h : s.Trails t) (k : t.Trails u) : s.Trails u where
  pending := k.pending.trans h.pending
  nonce := k.nonce.trans h.nonce
  out := h.out.trans k.out
  reg off ho := (k.reg off ho).trans (h.reg off ho)
  dev := k.dev.trans h.dev
  tacks := k.tacks.trans h.tacks
  unborn := k.unborn.trans h.unborn
  serial := k.serial.trans h.serial
  chans := k.chans.trans h.chans
  dies := k.dies.trans h.dies
  ctl := k.ctl.trans h.ctl
  media := k.media.trans h.media
  anyBlocks := k.anyBlocks.trans h.anyBlocks
  progSeq := k.progSeq.trans h.progSeq
  life := k.life.trans h.life
  arbs := k.arbs.trans h.arbs
  drift := k.drift.trans h.drift
  store := k.store.trans h.store
  routes id := (k.routes id).trans (h.routes id)
  targets j := (k.targets j).trans (h.targets j)
  coreTargets := k.coreTargets.trans h.coreTargets
  therm := k.therm.trans h.therm
  obs := (congrArg (fun o : Obs => { o with counters := s.obs.counters }) k.obs).trans h.obs
  xlat := k.xlat.trans h.xlat
  blocks := k.blocks.trans h.blocks
  dirtyList := k.dirtyList.trans h.dirtyList
  commits := k.commits.trans h.commits
  requests := k.requests.trans h.requests
  ceiling := k.ceiling.trans h.ceiling
  frozen := k.frozen.trans h.frozen
  lineData := k.lineData.trans h.lineData
  ctxs := k.ctxs.trans h.ctxs
  harness := k.harness.trans h.harness
  host := (congrArg (fun o : HostPort => { o with pba := s.host.pba }) k.host).trans h.host
  fetching := by
    obtain ⟨a, b, c, d⟩ := h.fetching
    obtain ⟨a', b', c', d'⟩ := k.fetching
    exact ⟨a'.trans a, b'.trans b, c'.trans c, d'.trans d⟩
  power := (congrArg (fun o : Power => { o with shutdown := s.power.shutdown }) k.power).trans h.power
  boot := (congrArg (fun o : Boot => { o with step := s.boot.step }) k.boot).trans h.boot
  img := (congrArg (fun o : Images => { o with st := s.img.st }) k.img).trans h.img
  svc := k.svc.trans h.svc

theorem State.Trails.ite {c : Prop} [Decidable c] {s a b : State} (ha : State.Trails s a) (hb : State.Trails s b) :
    State.Trails s (if c then a else b) := by
  split
  · exact ha
  · exact hb

/-- Whatever a fold does step by step, it does whole. -/
theorem State.Trails.fold {α : Type} (f : State → α → State) (hf : ∀ s a, State.Trails s (f s a)) (l : List α) (s : State) :
    s.Trails (l.foldl f s) := by
  induction l generalizing s with
  | nil => exact .refl s
  | cons a r ih => exact (hf s a).trans (ih (f s a))

/-! ### The parts of a settling -/

theorem trails_emit (s : State) (o : Out) : s.Trails (s.emit o) := by
  constructor <;> first | rfl | exact List.prefix_append _ _ | (intros; rfl) | exact (fun _ => rfl) | exact ⟨rfl, rfl, rfl, rfl⟩

theorem trails_setQueue (s : State) (q : Nat) (x : Queue) : s.Trails (s.setQueue q x) := by
  constructor <;> first | rfl | exact List.prefix_rfl | (intros; rfl) | exact (fun _ => rfl) | exact ⟨rfl, rfl, rfl, rfl⟩

theorem trails_setPba (s : State) (l : List Nat) : s.Trails { s with host := { s.host with pba := l } } := by
  constructor <;> first | rfl | exact List.prefix_rfl | (intros; rfl) | exact (fun _ => rfl) | exact ⟨rfl, rfl, rfl, rfl⟩

theorem trails_setCmds (s : State) (l : List Cmd) (n : Nat) : s.Trails (s.setCmdq { s.cmdq with cmds := l, seqs := n }) := by
  constructor <;> first | rfl | exact List.prefix_rfl | (intros; rfl) | exact (fun _ => rfl) | exact ⟨rfl, rfl, rfl, rfl⟩

theorem trails_msix (s : State) (v : Nat) : s.Trails (s.msix v) := by
  unfold State.msix
  split
  · exact trails_emit _ _
  · exact trails_setPba _ _

theorem trails_settlePair (s : State) (q : Fin 1024) : s.Trails (s.settlePair q) := by
  unfold State.settlePair
  simp only
  split
  · exact trails_setQueue _ _ _
  · exact .refl s

theorem trails_postEntry (s : State) (q : Nat) (e : List Byte) (n : Bool) : s.Trails (s.postEntry q e n) := by
  unfold State.postEntry
  dsimp only
  exact .ite (((trails_emit _ _).trans (trails_setQueue _ _ _)).trans (trails_msix _ _)) ((trails_emit _ _).trans (trails_setQueue _ _ _))

theorem trails_postReady (s : State) (q n : Nat) : s.Trails (s.postReady q n) := by
  induction n generalizing s with
  | zero => exact .refl s
  | succ n ih =>
    unfold State.postReady
    simp only
    split
    · exact .refl s
    · split
      · exact ((trails_setQueue _ _ _).trans (trails_postEntry _ _ _ _)).trans (ih _)
      · exact .refl s

theorem trails_finish (s : State) (c : Cmd) (code detail : Nat) (r : Option (List Byte)) : s.Trails (s.finish c code detail r) := by
  unfold State.finish
  extract_lets _ s1
  have h1 : s.Trails s1 := trails_setCmds s _ _
  refine .ite ?_ ?_
  · cases c.port
    · exact h1.trans (trails_settlePair _ _)
    · exact h1
  · have h2 := h1.trans (trails_setCmds s1 s1.cmdq.cmds (s1.cmdq.seqs + 1))
    cases c.port
    · refine State.Trails.trans ?_ (trails_settlePair _ _)
      refine State.Trails.trans ?_ (trails_postReady _ _ _)
      refine State.Trails.trans ?_ (trails_setQueue _ _ _)
      exact .ite h2 (h2.trans (trails_emit _ _))
    · exact h2.trans (trails_emit _ _)

/-- A change of what the cache engine keeps for ranges, drains and flushes. -/
theorem trails_cache (s : State) (c : Cache) (h1 : c.dirtyList = s.cache.dirtyList) (h2 : c.commits = s.cache.commits)
    (h3 : c.requests = s.cache.requests) (h4 : c.ceiling = s.cache.ceiling) (h5 : c.frozen = s.cache.frozen)
    (h6 : c.lines.map (fun e => (e.1, e.2.leaf, e.2.valid, e.2.dirty, e.2.poison, e.2.data))
      = s.cache.lines.map (fun e => (e.1, e.2.leaf, e.2.valid, e.2.dirty, e.2.poison, e.2.data))) : s.Trails { s with cache := c } := by
  constructor <;> first | rfl | assumption | exact List.prefix_rfl | (intros; rfl) | exact (fun _ => rfl) | exact ⟨rfl, rfl, rfl, rfl⟩

theorem trails_startDrain (s : State) : s.Trails s.startDrain := by
  refine trails_cache s _ rfl rfl rfl rfl rfl ?_
  simp [List.map_map, Function.comp_def]

theorem trails_nextRange (s : State) (n : Nat) : s.Trails (s.nextRange n) := by
  induction n generalizing s with
  | zero => exact .refl s
  | succ n ih =>
    have hq : ∀ l, s.Trails { s with cache := { s.cache with rngQueue := l } } := fun l => trails_cache s _ rfl rfl rfl rfl rfl rfl
    unfold State.nextRange
    refine .ite (.refl s) (.ite (trails_startDrain s) ?_)
    cases s.cache.rngQueue with
    | nil => exact .refl s
    | cons r rest =>
      have h' := hq rest
      have hf : ∀ (cmd : Option Cmd) (c : Nat), s.Trails (match cmd with
          | some c' => (State.finish { s with cache := { s.cache with rngQueue := rest } } c' c 0 none).nextRange n
          | none => State.nextRange { s with cache := { s.cache with rngQueue := rest } } n) := by
        intro cmd c
        cases cmd with
        | none => exact h'.trans (ih _)
        | some c' => exact (h'.trans (trails_finish _ _ _ _ _)).trans (ih _)
      refine .ite (h'.trans (ih _)) (.ite (hf _ _) (.ite (hf _ _) ?_))
      exact trails_cache s _ rfl rfl rfl rfl rfl rfl

theorem trails_endRange (s : State) : s.Trails s.endRange := by
  unfold State.endRange
  cases s.cache.rng with
  | none => exact .refl s
  | some r =>
    refine .ite (.refl s) (State.Trails.trans ?_ (trails_nextRange _ _))
    split
    · refine State.Trails.trans ?_ (trails_finish _ _ _ _ _)
      exact trails_cache s _ rfl rfl rfl rfl rfl rfl
    · exact trails_cache s _ rfl rfl rfl rfl rfl rfl

theorem trails_endGpf (s : State) : s.Trails s.endGpf := by
  unfold State.endGpf
  refine .ite (State.Trails.trans ?_ (trails_emit _ _)) (.refl s)
  exact trails_cache s { s.cache with gpf := false, gpfLate := false } rfl rfl rfl rfl rfl rfl

theorem trails_startStopped (s : State) : s.Trails s.startStopped := by
  unfold State.startStopped
  simp only
  repeat' split
  all_goals first
    | exact .refl s
    | (constructor <;> first | rfl | exact List.prefix_rfl | (intros; rfl) | exact (fun _ => rfl) | exact ⟨rfl, rfl, rfl, rfl⟩)

theorem trails_finishWaiters (s : State) : s.Trails s.finishWaiters := by
  unfold State.finishWaiters
  refine (((trails_endGpf s).trans (trails_endRange _)).trans (State.Trails.fold _ ?_ _ _)).trans (trails_startStopped _)
  intro s c
  exact .ite (trails_finish _ _ _ _ _) (.refl s)

/-- What a register holds after another, or itself, was written. -/
theorem State.reg_setReg (s : State) (o off v : Nat) : (s.setReg o v).reg off = if o = off then v % 2 ^ 32 else s.reg off := by
  unfold State.reg State.setReg
  simp only [Tab.find_put]
  by_cases h : o = off <;> simp [h, BitVec.toNat_ofNat]

/-- A write of one of the registers of `trailRegs`. -/
theorem trails_setReg (s : State) (off v : Nat) (h : off ∈ trailRegs) : s.Trails (s.setReg off v) := by
  have hr : ∀ o, o ∉ trailRegs → (s.setReg off v).reg o = s.reg o := by
    intro o ho
    rw [State.reg_setReg, if_neg]
    intro e
    exact ho (e ▸ h)
  constructor <;> first | exact hr | rfl | exact List.prefix_rfl | exact (fun _ => rfl) | exact ⟨rfl, rfl, rfl, rfl⟩

theorem trails_counters (s : State) (l : Tab ObsCnt) : s.Trails { s with obs := { s.obs with counters := l } } := by
  constructor <;> first | rfl | exact List.prefix_rfl | (intros; rfl) | exact (fun _ => rfl) | exact ⟨rfl, rfl, rfl, rfl⟩

theorem trails_addCount (s : State) (k inc : Nat) : s.Trails (s.addCount k inc) := by
  have h1 : rObsStatus ∈ trailRegs := by simp
  have h2 : rObsCtrl ∈ trailRegs := by simp
  unfold State.addCount
  simp only
  split
  · exact trails_counters _ _
  · split
    · exact ((trails_counters _ _).trans (trails_setReg _ _ _ h1)).trans (trails_setReg _ _ _ h2)
    · exact (trails_counters _ _).trans (trails_setReg _ _ _ h1)

theorem trails_countConds (s0 s : State) : s.Trails (s0.countConds s) := by
  unfold State.countConds
  split
  · exact .refl s
  · refine State.Trails.fold _ ?_ _ _
    intro s e
    exact .ite (trails_addCount _ _ _) (.refl s)

theorem trails_flagChanges (s0 s : State) : s.Trails (s0.flagChanges s) := by
  unfold State.flagChanges
  split
  · exact .refl s
  · exact trails_setReg _ _ _ (by simp)

theorem Route.setEdge_lasting (r : Route) : r.setEdge.lasting = r.lasting := by
  unfold Route.setEdge
  split <;> rfl

/-- An edge leaves of every route all that lasts. -/
theorem find_change_lasting (t : Tab Route) (k id : Nat) :
    (Tab.find (Tab.change t k Route.setEdge) id).map Route.lasting = (Tab.find t id).map Route.lasting := by
  unfold Tab.change
  split
  · rename_i a ha
    rw [Tab.find_put]
    split
    · rename_i h
      subst h
      simp [ha, Route.setEdge_lasting]
    · rfl
  · rfl

theorem trails_intc (s : State) (i : Intc) (h : ∀ id, (Tab.find i.host id).map Route.lasting = (Tab.find s.intc.host id).map Route.lasting)
    (ht : ∀ k, (Tab.get i.targets k Target.init).lasting = (Tab.get s.intc.targets k Target.init).lasting)
    (hc : i.coreTargets = s.intc.coreTargets) : s.Trails { s with intc := i } := by
  constructor <;> first | exact h | exact ht | exact hc | rfl | exact List.prefix_rfl | (intros; rfl) | exact (fun _ => rfl) | exact ⟨rfl, rfl, rfl, rfl⟩

theorem trails_raise (s : State) (id : Nat) : s.Trails (s.raise id) := by
  unfold State.raise
  exact trails_intc s _ (fun j => find_change_lasting _ _ j) (fun _ => rfl) rfl

theorem trails_edgeIf (s : State) (id : Nat) (c : Bool) : s.Trails (s.edgeIf id c) := by
  unfold State.edgeIf
  exact .ite (trails_raise s id) (.refl s)

theorem trails_notify (s : State) : s.Trails s.notify := by
  unfold State.notify
  refine State.Trails.fold _ ?_ _ _
  intro s e
  dsimp only
  refine .ite (State.Trails.trans ?_ (trails_msix _ _)) (.refl s)
  refine trails_intc s { s.intc with targets := _ } (fun _ => rfl) (fun k => ?_) rfl
  show (Tab.get (Tab.put s.intc.targets e.1 _) k Target.init).lasting = _
  rw [Tab.get_put]
  split
  · rename_i h
    subst h
    rfl
  · rfl

theorem trails_linkMessages (s0 s : State) : s.Trails (s0.linkMessages s) := by
  unfold State.linkMessages
  exact .ite (.refl s) (trails_emit _ _)

/-- The end of a step only trails the state that the command made. -/
theorem settle_trails (s0 s : State) : s.Trails (s0.settle s) := by
  unfold State.settle
  refine State.Trails.trans ?_ (trails_linkMessages _ _)
  refine State.Trails.trans ?_ (trails_notify _)
  iterate 6 refine State.Trails.trans ?_ (trails_edgeIf _ _ _)
  exact ((trails_finishWaiters s).trans (trails_countConds _ _)).trans (trails_flagChanges _ _)

/-- Every command that ends in `done` answers a next state, and that state trails what the command made. -/
theorem done_next (s0 s : State) : ∃ t, s0.done s = .next t ∧ s.Trails t := ⟨_, rfl, settle_trails s0 s⟩

end Sys2Proof.Machine
end

