-- ==== Sys2Proof/Laws/Die.lean ====
section
/-! SUPPORT. What each frame and each end of an operation makes of a die keeps `Die.Ok`; a die that is set is the only one that
changes. -/

namespace Sys2Proof.Machine

theorem State.die_setDie (s : State) (k j : Nat) (d : Die) : (s.setDie k d).die j = if k = j then d else s.die j := Tab.get_put _ _ _ _ _

@[simp] theorem State.die_setDie_self (s : State) (k : Nat) (d : Die) : (s.setDie k d).die k = d := by simp [State.die_setDie]

/-- A state with the same dies has the same dies. -/
theorem State.die_congr {s t : State} (h : t.dies = s.dies) (k : Nat) : t.die k = s.die k := by
  unfold State.die
  rw [h]

theorem State.DiesOk.set {s : State} (h : s.DiesOk) (k : Nat) {d : Die} (hd : d.Ok) : (s.setDie k d).DiesOk := by
  intro j
  rw [State.die_setDie]
  split
  · exact hd
  · exact h j

theorem State.DiesOk.congr {s t : State} (h : s.DiesOk) (e : t.dies = s.dies) : t.DiesOk := fun k => State.die_congr e k ▸ h k

/-- A die whose state holds no operation is right when its count and thresholds are. -/
theorem Die.Ok.calm {d : Die} (c : d.suspCount ≤ 16) (r : ∀ e ∈ d.refs, e.2.length = 15 ∧ e.2.Pairwise (fun a b => a < b) ∧ ∀ x ∈ e.2, x < 1024)
    (h : d.st ≠ .suspending ∧ d.st ≠ .prog ∧ d.st ≠ .erase ∧ d.st ≠ .susp) : d.Ok where
  count := c
  room e := absurd e h.1
  program e := absurd e h.2.1
  erase e := absurd e h.2.2.1
  held e := e.elim (fun e => absurd e h.1) (fun e => absurd e h.2.2.2)
  refs := r

theorem Die.init_ok : Die.init.Ok := Die.Ok.calm (by decide) (by intro e h; exact absurd h (List.not_mem_nil)) (by decide)

theorem Die.Ok.same {d x : Die} (h : d.Ok) (e1 : x.st = d.st) (e2 : x.op = d.op) (e3 : x.suspCount = d.suspCount) (e4 : x.refs = d.refs) :
    x.Ok := by
  constructor
  · rw [e3]; exact h.count
  · rw [e1, e2, e3]; exact h.room
  · rw [e1, e2]; exact h.program
  · rw [e1, e2]; exact h.erase
  · rw [e1, e2]; exact h.held
  · rw [e4]; exact h.refs

theorem Die.Ok.reject {d : Die} (h : d.Ok) : d.reject.Ok := h.same rfl rfl rfl rfl

theorem Die.Ok.takeStatus {d : Die} (h : d.Ok) (c : Bool) : (d.takeStatus c).Ok := by
  unfold Die.takeStatus
  split
  · exact h.same rfl rfl rfl rfl
  · exact h

theorem Die.Ok.startSense {d : Die} (h : d.Ok) (x : Sense) : (d.startSense x).Ok := Die.Ok.calm h.count h.refs (by simp [Die.startSense])

theorem Die.Ok.settle {d : Die} (c : d.suspCount ≤ 16) (r : ∀ e ∈ d.refs, e.2.length = 15 ∧ e.2.Pairwise (fun a b => a < b) ∧ ∀ x ∈ e.2, x < 1024) :
    d.settle.Ok := by
  unfold Die.settle
  split
  · exact Die.Ok.calm c r (by simp)
  · rename_i o ho
    split
    · constructor
      · exact c
      · intro e
        simp only [ArrayOp.running] at e
        split at e <;> cases e
      · intro e
        simp only [ArrayOp.running] at e
        split at e
        · cases e
        · exact ⟨o, ho, by simp_all⟩
      · intro e
        simp only [ArrayOp.running] at e
        split at e
        · exact ⟨o, ho, by assumption⟩
        · cases e
      · intro e
        simp [ho]
      · exact r
    · constructor
      · exact c
      · exact fun e => by cases e
      · exact fun e => by cases e
      · exact fun e => by cases e
      · intro e
        simp [ho]
      · exact r

theorem Die.Ok.takeReset {d : Die} (h : d.Ok) : d.takeReset.Ok := by
  unfold Die.takeReset
  split
  · exact h
  · exact Die.Ok.calm (Nat.zero_le _) (fun e he => absurd he List.not_mem_nil) (by simp)

theorem Die.Ok.takeConfig {d : Die} (h : d.Ok) (mod : BitVec 6) (w : BitVec 12) : (d.takeConfig mod w).Ok := by
  unfold Die.takeConfig
  dsimp only
  split
  · exact h
  · split
    · exact h.reject
    · exact h.same rfl rfl rfl rfl

theorem Die.Ok.takeWrStore {d : Die} (h : d.Ok) (mod : BitVec 6) (data : List Byte) : (d.takeWrStore mod data).Ok := by
  unfold Die.takeWrStore
  split
  · exact h
  · split
    · exact h.reject
    · exact h.same rfl rfl rfl rfl

theorem ascending_pairwise (l : List Nat) (h : ascending l = true) : l.Pairwise (fun a b => a < b) := by
  induction l with
  | nil => exact List.Pairwise.nil
  | cons x r ih =>
    unfold ascending at h
    rw [Bool.and_eq_true] at h
    have hr := ih h.2
    rw [List.pairwise_cons]
    refine ⟨?_, hr⟩
    cases r with
    | nil => intro y hy; cases hy
    | cons y r =>
      have hxy : x < y := by simpa using h.1
      intro z hz
      rcases List.mem_cons.mp hz with rfl | hz
      · exact hxy
      · exact hxy.trans ((List.pairwise_cons.mp hr).1 z hz)

theorem Die.Ok.takeSetRef {d : Die} (h : d.Ok) (mod : BitVec 6) (ws : List (BitVec 12)) : (d.takeSetRef mod ws).Ok := by
  unfold Die.takeSetRef
  dsimp only
  split
  · exact h
  · split
    · exact h.reject
    · rename_i hbad
      split
      · exact h.same rfl rfl rfl rfl
      · rename_i hasc
        simp only [Bool.or_eq_true, not_or, Bool.not_eq_true, bne_eq_false_iff_eq] at hbad
        have hlen := hbad.1.2
        have hany := hbad.2
        rw [List.any_eq_false] at hany
        have hpair := ascending_pairwise _ (by simpa using hasc)
        have hlt : ∀ x ∈ ws.map (fun w => w.toNat), x < 1024 := fun x hx => by simpa using hany x hx
        constructor
        · exact h.count
        · exact h.room
        · exact h.program
        · exact h.erase
        · exact h.held
        · show ∀ e ∈ List.foldl _ d.refs _, _
          generalize planesOf _ = ps
          have hrefs := h.refs
          revert hrefs
          generalize d.refs = rs
          intro hrefs
          induction ps generalizing rs with
          | nil => exact hrefs
          | cons p ps ih =>
            refine ih _ ?_
            intro e he
            rcases Tab.mem_put _ _ _ _ he with rfl | he
            · exact ⟨hlen, hpair, hlt⟩
            · exact hrefs e he

theorem Die.Ok.takeSense {d : Die} (h : d.Ok) (x : Sense) : (d.takeSense x).Ok := by
  unfold Die.takeSense
  split
  · exact h
  · exact h.startSense x
  · exact h.startSense x
  · split
    · exact h.reject
    · exact h.same rfl rfl rfl rfl
  · exact h.reject

theorem Die.Ok.takeSuspend {d : Die} (h : d.Ok) : d.takeSuspend.Ok := by
  unfold Die.takeSuspend
  split
  · rename_i hs
    split
    · exact h.same rfl rfl rfl rfl
    · rename_i hc
      constructor
      · exact h.count
      · intro _ o _ _
        have := h.count
        show d.suspCount < 16
        omega
      · exact fun e => by cases e
      · exact fun e => by cases e
      · intro _
        obtain ⟨o, ho, -⟩ := h.program hs
        simp [ho]
      · exact h.refs
  · rename_i hs
    obtain ⟨o, ho, he⟩ := h.erase hs
    constructor
    · exact h.count
    · intro _ o' ho' hf
      simp only at ho'
      rw [ho] at ho'
      cases ho'
      rw [he] at hf
      cases hf
    · exact fun e => by cases e
    · exact fun e => by cases e
    · intro _
      simp [ho]
    · exact h.refs
  · exact h

theorem Die.Ok.takeResume {d : Die} (h : d.Ok) : d.takeResume.Ok := by
  unfold Die.takeResume
  split
  · exact Die.Ok.settle h.count h.refs
  · exact h.same rfl rfl rfl rfl
  · split
    · exact h.same rfl rfl rfl rfl
    · exact h
  · exact h

theorem Die.Ok.takeLoad {d : Die} (h : d.Ok) (mod : BitVec 6) (c1 c2 c3 : BitVec 12) (data : Cell) (ok : Bool) :
    (d.takeLoad mod c1 c2 c3 data ok).Ok := by
  unfold Die.takeLoad
  dsimp only
  split
  · exact h
  · split
    · exact h.reject
    · split <;> split <;> exact h.same rfl rfl rfl rfl

theorem Die.Ok.takeStart {d : Die} (h : d.Ok) (mod : BitVec 6) (c1 c2 c3 : BitVec 12) : (d.takeStart mod c1 c2 c3).Ok := by
  unfold Die.takeStart
  dsimp only
  split
  · exact h
  · split
    · exact h.reject
    · constructor
      · exact Nat.zero_le _
      · exact fun e => by cases e
      · exact fun _ => ⟨_, rfl, rfl⟩
      · exact fun e => by cases e
      · exact fun _ => rfl
      · exact h.refs

theorem Die.Ok.takeErase {d : Die} (h : d.Ok) (mod : BitVec 6) (c1 : BitVec 12) : (d.takeErase mod c1).Ok := by
  unfold Die.takeErase
  dsimp only
  split
  · exact h
  · split
    · exact h.reject
    · constructor
      · exact h.count
      · exact fun e => by cases e
      · exact fun e => by cases e
      · exact fun _ => ⟨_, rfl, rfl⟩
      · exact fun _ => rfl
      · exact h.refs

theorem Die.Ok.endSense {d : Die} (h : d.Ok) (x : Sensed) : (d.endSense x).Ok := by
  unfold Die.endSense
  split
  · exact Die.Ok.settle h.count h.refs
  · exact h

theorem Die.Ok.endSuspend {d : Die} (h : d.Ok) : d.endSuspend.Ok := by
  unfold Die.endSuspend
  split
  · exact h
  · rename_i hs
    have hs : d.st = .suspending := by simpa using hs
    have hc : (match d.op with | some o => if o.erase then d.suspCount else d.suspCount + 1 | none => d.suspCount) ≤ 16 := by
      have := h.count
      split
      · rename_i o ho
        split
        · exact this
        · rename_i he
          exact h.room hs o ho (by simpa using he)
      · exact this
    dsimp only
    split
    · exact Die.Ok.calm hc h.refs (by simp [Die.startSense])
    · exact Die.Ok.settle hc h.refs

theorem Die.Ok.endOp {d : Die} (h : d.Ok) (fail : Bool) : (d.endOp fail).Ok := by
  unfold Die.endOp
  dsimp only
  split
  · exact Die.Ok.calm h.count h.refs (by simp [Die.startSense])
  · exact Die.Ok.calm h.count h.refs (by simp)

theorem Die.Ok.endReset {d : Die} (h : d.Ok) : d.endReset.Ok := by
  unfold Die.endReset
  split
  · exact Die.Ok.calm h.count h.refs (by simp)
  · exact h

end Sys2Proof.Machine
end

