-- ==== Sys2Proof/Laws/Effect.lean ====
section
/-! SUPPORT. From what a meaning makes to what the command answers: `Effect` and `Answers` of a meaning that ends in `done`, and the
start of a command packet. -/

namespace Sys2Proof.Machine

/-- A command whose meaning ends in `done` has that effect. -/
theorem Effect.of_done {c : Instr} {s x : State} (h : exec c s = s.done x) : Effect c s x := ⟨_, h, settle_trails s x⟩

/-- A command whose meaning ends in `done` answers a state of which holds whatever every settling keeps. -/
theorem Answers.of_done {c : Instr} {s x : State} {p : State → Prop} (h : exec c s = s.done x) (hp : ∀ t, x.Trails t → p t) : Answers c s p :=
  ⟨_, h, hp _ (settle_trails s x)⟩

theorem Answers.of_effect {c : Instr} {s x : State} {p : State → Prop} (h : Effect c s x) (hp : ∀ t, x.Trails t → p t) : Answers c s p := by
  obtain ⟨t, h1, h2⟩ := h
  exact ⟨t, h1, hp t h2⟩

/-- A packet that is taken, waits for nothing and passes every check runs its command. -/
theorem State.run_of_checked {s s1 : State} {code : Nat} {port : Port} {pkt : Packet} {c : Cmd} (act : State → Cmd → State)
    (h1 : pkt.u 0 1 = code) (h2 : s.arrive port pkt = some (s1, c)) (h3 : s1.fenced c = false) (h4 : s1.checkPacket port pkt = none) :
    s.run code port pkt act = act s1 c := by
  simp [State.run, h1, h2, h3, h4]

/-- A packet that fails a check ends with the status and DETAIL of the check (R336). -/
theorem State.run_of_failed {s s1 : State} {code : Nat} {port : Port} {pkt : Packet} {c : Cmd} {st d : Nat} (act : State → Cmd → State)
    (h1 : pkt.u 0 1 = code) (h2 : s.arrive port pkt = some (s1, c)) (h3 : s1.fenced c = false) (h4 : s1.checkPacket port pkt = some (st, d)) :
    s.run code port pkt act = s1.finish c st d none := by
  simp [State.run, h1, h2, h3, h4]

/-- A packet behind a FENCE waits (R345). -/
theorem State.run_of_fenced {s s1 : State} {code : Nat} {port : Port} {pkt : Packet} {c : Cmd} (act : State → Cmd → State)
    (h1 : pkt.u 0 1 = code) (h2 : s.arrive port pkt = some (s1, c)) (h3 : s1.fenced c = true) : s.run code port pkt act = s1 := by
  simp [State.run, h1, h2, h3]

/-- The command that a packet arrives as carries the packet and its port, and is in progress. -/
theorem State.arrive_cmd {s s1 : State} {port : Port} {pkt : Packet} {c : Cmd} (h : s.arrive port pkt = some (s1, c)) :
    c.port = port ∧ c.pkt = pkt ∧ c ∈ s1.cmdq.cmds := by
  simp only [State.arrive] at h
  split at h
  · rename_i c' hc
    have h1 := List.find?_some hc
    have h2 := List.mem_of_find?_eq_some hc
    simp only [Bool.and_eq_true, beq_iff_eq, Option.some.injEq, Prod.mk.injEq] at h1 h
    obtain ⟨rfl, rfl⟩ := h
    exact ⟨h1.1.1, h1.1.2, h2⟩
  · split at h <;> split at h <;>
      simp [State.enterCmd, State.fetchEntry, State.setQueue, State.setCmdq] at h <;> obtain ⟨rfl, rfl⟩ := h <;> simp

end Sys2Proof.Machine
end

