-- ==== Sys2Proof/Laws/State.lean ====
section
/-! SUPPORT. One lemma for each field of the state under each update of the machine: what the update writes, and that every other field
stands. -/

namespace Sys2Proof.Machine

variable (s : State)

/-! ### setReg -/

@[simp] theorem State.setReg_pending (o v : Nat) : (s.setReg o v).pending = s.pending := rfl
@[simp] theorem State.setReg_nonce (o v : Nat) : (s.setReg o v).nonce = s.nonce := rfl
@[simp] theorem State.setReg_out (o v : Nat) : (s.setReg o v).out = s.out := rfl
@[simp] theorem State.setReg_regs (o v : Nat) : (s.setReg o v).regs = Tab.put s.regs o (BitVec.ofNat 32 v) := rfl
@[simp] theorem State.setReg_dev (o v : Nat) : (s.setReg o v).dev = s.dev := rfl
@[simp] theorem State.setReg_tacks (o v : Nat) : (s.setReg o v).tacks = s.tacks := rfl
@[simp] theorem State.setReg_unborn (o v : Nat) : (s.setReg o v).unborn = s.unborn := rfl
@[simp] theorem State.setReg_serial (o v : Nat) : (s.setReg o v).serial = s.serial := rfl
@[simp] theorem State.setReg_chans (o v : Nat) : (s.setReg o v).chans = s.chans := rfl
@[simp] theorem State.setReg_dies (o v : Nat) : (s.setReg o v).dies = s.dies := rfl
@[simp] theorem State.setReg_ctl (o v : Nat) : (s.setReg o v).ctl = s.ctl := rfl
@[simp] theorem State.setReg_media (o v : Nat) : (s.setReg o v).media = s.media := rfl
@[simp] theorem State.setReg_anyBlocks (o v : Nat) : (s.setReg o v).anyBlocks = s.anyBlocks := rfl
@[simp] theorem State.setReg_progSeq (o v : Nat) : (s.setReg o v).progSeq = s.progSeq := rfl
@[simp] theorem State.setReg_life (o v : Nat) : (s.setReg o v).life = s.life := rfl
@[simp] theorem State.setReg_arbs (o v : Nat) : (s.setReg o v).arbs = s.arbs := rfl
@[simp] theorem State.setReg_drift (o v : Nat) : (s.setReg o v).drift = s.drift := rfl
@[simp] theorem State.setReg_store (o v : Nat) : (s.setReg o v).store = s.store := rfl
@[simp] theorem State.setReg_intc (o v : Nat) : (s.setReg o v).intc = s.intc := rfl
@[simp] theorem State.setReg_therm (o v : Nat) : (s.setReg o v).therm = s.therm := rfl
@[simp] theorem State.setReg_obs (o v : Nat) : (s.setReg o v).obs = s.obs := rfl
@[simp] theorem State.setReg_xlat (o v : Nat) : (s.setReg o v).xlat = s.xlat := rfl
@[simp] theorem State.setReg_blocks (o v : Nat) : (s.setReg o v).blocks = s.blocks := rfl
@[simp] theorem State.setReg_cache (o v : Nat) : (s.setReg o v).cache = s.cache := rfl
@[simp] theorem State.setReg_ctxs (o v : Nat) : (s.setReg o v).ctxs = s.ctxs := rfl
@[simp] theorem State.setReg_harness (o v : Nat) : (s.setReg o v).harness = s.harness := rfl
@[simp] theorem State.setReg_host (o v : Nat) : (s.setReg o v).host = s.host := rfl
@[simp] theorem State.setReg_cmdq (o v : Nat) : (s.setReg o v).cmdq = s.cmdq := rfl
@[simp] theorem State.setReg_power (o v : Nat) : (s.setReg o v).power = s.power := rfl
@[simp] theorem State.setReg_boot (o v : Nat) : (s.setReg o v).boot = s.boot := rfl
@[simp] theorem State.setReg_img (o v : Nat) : (s.setReg o v).img = s.img := rfl
@[simp] theorem State.setReg_svc (o v : Nat) : (s.setReg o v).svc = s.svc := rfl

/-! ### setDie -/

@[simp] theorem State.setDie_pending (k : Nat) (d : Die) : (s.setDie k d).pending = s.pending := rfl
@[simp] theorem State.setDie_nonce (k : Nat) (d : Die) : (s.setDie k d).nonce = s.nonce := rfl
@[simp] theorem State.setDie_out (k : Nat) (d : Die) : (s.setDie k d).out = s.out := rfl
@[simp] theorem State.setDie_regs (k : Nat) (d : Die) : (s.setDie k d).regs = s.regs := rfl
@[simp] theorem State.setDie_dev (k : Nat) (d : Die) : (s.setDie k d).dev = s.dev := rfl
@[simp] theorem State.setDie_tacks (k : Nat) (d : Die) : (s.setDie k d).tacks = s.tacks := rfl
@[simp] theorem State.setDie_unborn (k : Nat) (d : Die) : (s.setDie k d).unborn = s.unborn := rfl
@[simp] theorem State.setDie_serial (k : Nat) (d : Die) : (s.setDie k d).serial = s.serial := rfl
@[simp] theorem State.setDie_chans (k : Nat) (d : Die) : (s.setDie k d).chans = s.chans := rfl
@[simp] theorem State.setDie_dies (k : Nat) (d : Die) : (s.setDie k d).dies = Tab.put s.dies k d := rfl
@[simp] theorem State.setDie_ctl (k : Nat) (d : Die) : (s.setDie k d).ctl = s.ctl := rfl
@[simp] theorem State.setDie_media (k : Nat) (d : Die) : (s.setDie k d).media = s.media := rfl
@[simp] theorem State.setDie_anyBlocks (k : Nat) (d : Die) : (s.setDie k d).anyBlocks = s.anyBlocks := rfl
@[simp] theorem State.setDie_progSeq (k : Nat) (d : Die) : (s.setDie k d).progSeq = s.progSeq := rfl
@[simp] theorem State.setDie_life (k : Nat) (d : Die) : (s.setDie k d).life = s.life := rfl
@[simp] theorem State.setDie_arbs (k : Nat) (d : Die) : (s.setDie k d).arbs = s.arbs := rfl
@[simp] theorem State.setDie_drift (k : Nat) (d : Die) : (s.setDie k d).drift = s.drift := rfl
@[simp] theorem State.setDie_store (k : Nat) (d : Die) : (s.setDie k d).store = s.store := rfl
@[simp] theorem State.setDie_intc (k : Nat) (d : Die) : (s.setDie k d).intc = s.intc := rfl
@[simp] theorem State.setDie_therm (k : Nat) (d : Die) : (s.setDie k d).therm = s.therm := rfl
@[simp] theorem State.setDie_obs (k : Nat) (d : Die) : (s.setDie k d).obs = s.obs := rfl
@[simp] theorem State.setDie_xlat (k : Nat) (d : Die) : (s.setDie k d).xlat = s.xlat := rfl
@[simp] theorem State.setDie_blocks (k : Nat) (d : Die) : (s.setDie k d).blocks = s.blocks := rfl
@[simp] theorem State.setDie_cache (k : Nat) (d : Die) : (s.setDie k d).cache = s.cache := rfl
@[simp] theorem State.setDie_ctxs (k : Nat) (d : Die) : (s.setDie k d).ctxs = s.ctxs := rfl
@[simp] theorem State.setDie_harness (k : Nat) (d : Die) : (s.setDie k d).harness = s.harness := rfl
@[simp] theorem State.setDie_host (k : Nat) (d : Die) : (s.setDie k d).host = s.host := rfl
@[simp] theorem State.setDie_cmdq (k : Nat) (d : Die) : (s.setDie k d).cmdq = s.cmdq := rfl
@[simp] theorem State.setDie_power (k : Nat) (d : Die) : (s.setDie k d).power = s.power := rfl
@[simp] theorem State.setDie_boot (k : Nat) (d : Die) : (s.setDie k d).boot = s.boot := rfl
@[simp] theorem State.setDie_img (k : Nat) (d : Die) : (s.setDie k d).img = s.img := rfl
@[simp] theorem State.setDie_svc (k : Nat) (d : Die) : (s.setDie k d).svc = s.svc := rfl

/-! ### setCtl -/

@[simp] theorem State.setCtl_pending (k : Nat) (c : DieCtl) : (s.setCtl k c).pending = s.pending := rfl
@[simp] theorem State.setCtl_nonce (k : Nat) (c : DieCtl) : (s.setCtl k c).nonce = s.nonce := rfl
@[simp] theorem State.setCtl_out (k : Nat) (c : DieCtl) : (s.setCtl k c).out = s.out := rfl
@[simp] theorem State.setCtl_regs (k : Nat) (c : DieCtl) : (s.setCtl k c).regs = s.regs := rfl
@[simp] theorem State.setCtl_dev (k : Nat) (c : DieCtl) : (s.setCtl k c).dev = s.dev := rfl
@[simp] theorem State.setCtl_tacks (k : Nat) (c : DieCtl) : (s.setCtl k c).tacks = s.tacks := rfl
@[simp] theorem State.setCtl_unborn (k : Nat) (c : DieCtl) : (s.setCtl k c).unborn = s.unborn := rfl
@[simp] theorem State.setCtl_serial (k : Nat) (c : DieCtl) : (s.setCtl k c).serial = s.serial := rfl
@[simp] theorem State.setCtl_chans (k : Nat) (c : DieCtl) : (s.setCtl k c).chans = s.chans := rfl
@[simp] theorem State.setCtl_dies (k : Nat) (c : DieCtl) : (s.setCtl k c).dies = s.dies := rfl
@[simp] theorem State.setCtl_ctl (k : Nat) (c : DieCtl) : (s.setCtl k c).ctl = Tab.put s.ctl k c := rfl
@[simp] theorem State.setCtl_media (k : Nat) (c : DieCtl) : (s.setCtl k c).media = s.media := rfl
@[simp] theorem State.setCtl_anyBlocks (k : Nat) (c : DieCtl) : (s.setCtl k c).anyBlocks = s.anyBlocks := rfl
@[simp] theorem State.setCtl_progSeq (k : Nat) (c : DieCtl) : (s.setCtl k c).progSeq = s.progSeq := rfl
@[simp] theorem State.setCtl_life (k : Nat) (c : DieCtl) : (s.setCtl k c).life = s.life := rfl
@[simp] theorem State.setCtl_arbs (k : Nat) (c : DieCtl) : (s.setCtl k c).arbs = s.arbs := rfl
@[simp] theorem State.setCtl_drift (k : Nat) (c : DieCtl) : (s.setCtl k c).drift = s.drift := rfl
@[simp] theorem State.setCtl_store (k : Nat) (c : DieCtl) : (s.setCtl k c).store = s.store := rfl
@[simp] theorem State.setCtl_intc (k : Nat) (c : DieCtl) : (s.setCtl k c).intc = s.intc := rfl
@[simp] theorem State.setCtl_therm (k : Nat) (c : DieCtl) : (s.setCtl k c).therm = s.therm := rfl
@[simp] theorem State.setCtl_obs (k : Nat) (c : DieCtl) : (s.setCtl k c).obs = s.obs := rfl
@[simp] theorem State.setCtl_xlat (k : Nat) (c : DieCtl) : (s.setCtl k c).xlat = s.xlat := rfl
@[simp] theorem State.setCtl_blocks (k : Nat) (c : DieCtl) : (s.setCtl k c).blocks = s.blocks := rfl
@[simp] theorem State.setCtl_cache (k : Nat) (c : DieCtl) : (s.setCtl k c).cache = s.cache := rfl
@[simp] theorem State.setCtl_ctxs (k : Nat) (c : DieCtl) : (s.setCtl k c).ctxs = s.ctxs := rfl
@[simp] theorem State.setCtl_harness (k : Nat) (c : DieCtl) : (s.setCtl k c).harness = s.harness := rfl
@[simp] theorem State.setCtl_host (k : Nat) (c : DieCtl) : (s.setCtl k c).host = s.host := rfl
@[simp] theorem State.setCtl_cmdq (k : Nat) (c : DieCtl) : (s.setCtl k c).cmdq = s.cmdq := rfl
@[simp] theorem State.setCtl_power (k : Nat) (c : DieCtl) : (s.setCtl k c).power = s.power := rfl
@[simp] theorem State.setCtl_boot (k : Nat) (c : DieCtl) : (s.setCtl k c).boot = s.boot := rfl
@[simp] theorem State.setCtl_img (k : Nat) (c : DieCtl) : (s.setCtl k c).img = s.img := rfl
@[simp] theorem State.setCtl_svc (k : Nat) (c : DieCtl) : (s.setCtl k c).svc = s.svc := rfl

/-! ### setChan -/

@[simp] theorem State.setChan_pending (c : Nat) (x : Channel) : (s.setChan c x).pending = s.pending := rfl
@[simp] theorem State.setChan_nonce (c : Nat) (x : Channel) : (s.setChan c x).nonce = s.nonce := rfl
@[simp] theorem State.setChan_out (c : Nat) (x : Channel) : (s.setChan c x).out = s.out := rfl
@[simp] theorem State.setChan_regs (c : Nat) (x : Channel) : (s.setChan c x).regs = s.regs := rfl
@[simp] theorem State.setChan_dev (c : Nat) (x : Channel) : (s.setChan c x).dev = s.dev := rfl
@[simp] theorem State.setChan_tacks (c : Nat) (x : Channel) : (s.setChan c x).tacks = s.tacks := rfl
@[simp] theorem State.setChan_unborn (c : Nat) (x : Channel) : (s.setChan c x).unborn = s.unborn := rfl
@[simp] theorem State.setChan_serial (c : Nat) (x : Channel) : (s.setChan c x).serial = s.serial := rfl
@[simp] theorem State.setChan_chans (c : Nat) (x : Channel) : (s.setChan c x).chans = Tab.put s.chans c x := rfl
@[simp] theorem State.setChan_dies (c : Nat) (x : Channel) : (s.setChan c x).dies = s.dies := rfl
@[simp] theorem State.setChan_ctl (c : Nat) (x : Channel) : (s.setChan c x).ctl = s.ctl := rfl
@[simp] theorem State.setChan_media (c : Nat) (x : Channel) : (s.setChan c x).media = s.media := rfl
@[simp] theorem State.setChan_anyBlocks (c : Nat) (x : Channel) : (s.setChan c x).anyBlocks = s.anyBlocks := rfl
@[simp] theorem State.setChan_progSeq (c : Nat) (x : Channel) : (s.setChan c x).progSeq = s.progSeq := rfl
@[simp] theorem State.setChan_life (c : Nat) (x : Channel) : (s.setChan c x).life = s.life := rfl
@[simp] theorem State.setChan_arbs (c : Nat) (x : Channel) : (s.setChan c x).arbs = s.arbs := rfl
@[simp] theorem State.setChan_drift (c : Nat) (x : Channel) : (s.setChan c x).drift = s.drift := rfl
@[simp] theorem State.setChan_store (c : Nat) (x : Channel) : (s.setChan c x).store = s.store := rfl
@[simp] theorem State.setChan_intc (c : Nat) (x : Channel) : (s.setChan c x).intc = s.intc := rfl
@[simp] theorem State.setChan_therm (c : Nat) (x : Channel) : (s.setChan c x).therm = s.therm := rfl
@[simp] theorem State.setChan_obs (c : Nat) (x : Channel) : (s.setChan c x).obs = s.obs := rfl
@[simp] theorem State.setChan_xlat (c : Nat) (x : Channel) : (s.setChan c x).xlat = s.xlat := rfl
@[simp] theorem State.setChan_blocks (c : Nat) (x : Channel) : (s.setChan c x).blocks = s.blocks := rfl
@[simp] theorem State.setChan_cache (c : Nat) (x : Channel) : (s.setChan c x).cache = s.cache := rfl
@[simp] theorem State.setChan_ctxs (c : Nat) (x : Channel) : (s.setChan c x).ctxs = s.ctxs := rfl
@[simp] theorem State.setChan_harness (c : Nat) (x : Channel) : (s.setChan c x).harness = s.harness := rfl
@[simp] theorem State.setChan_host (c : Nat) (x : Channel) : (s.setChan c x).host = s.host := rfl
@[simp] theorem State.setChan_cmdq (c : Nat) (x : Channel) : (s.setChan c x).cmdq = s.cmdq := rfl
@[simp] theorem State.setChan_power (c : Nat) (x : Channel) : (s.setChan c x).power = s.power := rfl
@[simp] theorem State.setChan_boot (c : Nat) (x : Channel) : (s.setChan c x).boot = s.boot := rfl
@[simp] theorem State.setChan_img (c : Nat) (x : Channel) : (s.setChan c x).img = s.img := rfl
@[simp] theorem State.setChan_svc (c : Nat) (x : Channel) : (s.setChan c x).svc = s.svc := rfl

/-! ### setAge -/

@[simp] theorem State.setAge_pending (k : Nat) (a : DieAge) : (s.setAge k a).pending = s.pending := rfl
@[simp] theorem State.setAge_nonce (k : Nat) (a : DieAge) : (s.setAge k a).nonce = s.nonce := rfl
@[simp] theorem State.setAge_out (k : Nat) (a : DieAge) : (s.setAge k a).out = s.out := rfl
@[simp] theorem State.setAge_regs (k : Nat) (a : DieAge) : (s.setAge k a).regs = s.regs := rfl
@[simp] theorem State.setAge_dev (k : Nat) (a : DieAge) : (s.setAge k a).dev = s.dev := rfl
@[simp] theorem State.setAge_tacks (k : Nat) (a : DieAge) : (s.setAge k a).tacks = s.tacks := rfl
@[simp] theorem State.setAge_unborn (k : Nat) (a : DieAge) : (s.setAge k a).unborn = s.unborn := rfl
@[simp] theorem State.setAge_serial (k : Nat) (a : DieAge) : (s.setAge k a).serial = s.serial := rfl
@[simp] theorem State.setAge_chans (k : Nat) (a : DieAge) : (s.setAge k a).chans = s.chans := rfl
@[simp] theorem State.setAge_dies (k : Nat) (a : DieAge) : (s.setAge k a).dies = s.dies := rfl
@[simp] theorem State.setAge_ctl (k : Nat) (a : DieAge) : (s.setAge k a).ctl = s.ctl := rfl
@[simp] theorem State.setAge_media (k : Nat) (a : DieAge) : (s.setAge k a).media = s.media := rfl
@[simp] theorem State.setAge_anyBlocks (k : Nat) (a : DieAge) : (s.setAge k a).anyBlocks = s.anyBlocks := rfl
@[simp] theorem State.setAge_progSeq (k : Nat) (a : DieAge) : (s.setAge k a).progSeq = s.progSeq := rfl
@[simp] theorem State.setAge_life (k : Nat) (a : DieAge) : (s.setAge k a).life = s.life := rfl
@[simp] theorem State.setAge_arbs (k : Nat) (a : DieAge) : (s.setAge k a).arbs = s.arbs := rfl
@[simp] theorem State.setAge_drift (k : Nat) (a : DieAge) : (s.setAge k a).drift = { s.drift with dies := Tab.put s.drift.dies k a } := rfl
@[simp] theorem State.setAge_store (k : Nat) (a : DieAge) : (s.setAge k a).store = s.store := rfl
@[simp] theorem State.setAge_intc (k : Nat) (a : DieAge) : (s.setAge k a).intc = s.intc := rfl
@[simp] theorem State.setAge_therm (k : Nat) (a : DieAge) : (s.setAge k a).therm = s.therm := rfl
@[simp] theorem State.setAge_obs (k : Nat) (a : DieAge) : (s.setAge k a).obs = s.obs := rfl
@[simp] theorem State.setAge_xlat (k : Nat) (a : DieAge) : (s.setAge k a).xlat = s.xlat := rfl
@[simp] theorem State.setAge_blocks (k : Nat) (a : DieAge) : (s.setAge k a).blocks = s.blocks := rfl
@[simp] theorem State.setAge_cache (k : Nat) (a : DieAge) : (s.setAge k a).cache = s.cache := rfl
@[simp] theorem State.setAge_ctxs (k : Nat) (a : DieAge) : (s.setAge k a).ctxs = s.ctxs := rfl
@[simp] theorem State.setAge_harness (k : Nat) (a : DieAge) : (s.setAge k a).harness = s.harness := rfl
@[simp] theorem State.setAge_host (k : Nat) (a : DieAge) : (s.setAge k a).host = s.host := rfl
@[simp] theorem State.setAge_cmdq (k : Nat) (a : DieAge) : (s.setAge k a).cmdq = s.cmdq := rfl
@[simp] theorem State.setAge_power (k : Nat) (a : DieAge) : (s.setAge k a).power = s.power := rfl
@[simp] theorem State.setAge_boot (k : Nat) (a : DieAge) : (s.setAge k a).boot = s.boot := rfl
@[simp] theorem State.setAge_img (k : Nat) (a : DieAge) : (s.setAge k a).img = s.img := rfl
@[simp] theorem State.setAge_svc (k : Nat) (a : DieAge) : (s.setAge k a).svc = s.svc := rfl

/-! ### setTack -/

@[simp] theorem State.setTack_pending (k : Nat) (t : Tack) : (s.setTack k t).pending = s.pending := rfl
@[simp] theorem State.setTack_nonce (k : Nat) (t : Tack) : (s.setTack k t).nonce = s.nonce := rfl
@[simp] theorem State.setTack_out (k : Nat) (t : Tack) : (s.setTack k t).out = s.out := rfl
@[simp] theorem State.setTack_regs (k : Nat) (t : Tack) : (s.setTack k t).regs = s.regs := rfl
@[simp] theorem State.setTack_dev (k : Nat) (t : Tack) : (s.setTack k t).dev = s.dev := rfl
@[simp] theorem State.setTack_tacks (k : Nat) (t : Tack) : (s.setTack k t).tacks = Tab.put s.tacks k t := rfl
@[simp] theorem State.setTack_unborn (k : Nat) (t : Tack) : (s.setTack k t).unborn = s.unborn := rfl
@[simp] theorem State.setTack_serial (k : Nat) (t : Tack) : (s.setTack k t).serial = s.serial := rfl
@[simp] theorem State.setTack_chans (k : Nat) (t : Tack) : (s.setTack k t).chans = s.chans := rfl
@[simp] theorem State.setTack_dies (k : Nat) (t : Tack) : (s.setTack k t).dies = s.dies := rfl
@[simp] theorem State.setTack_ctl (k : Nat) (t : Tack) : (s.setTack k t).ctl = s.ctl := rfl
@[simp] theorem State.setTack_media (k : Nat) (t : Tack) : (s.setTack k t).media = s.media := rfl
@[simp] theorem State.setTack_anyBlocks (k : Nat) (t : Tack) : (s.setTack k t).anyBlocks = s.anyBlocks := rfl
@[simp] theorem State.setTack_progSeq (k : Nat) (t : Tack) : (s.setTack k t).progSeq = s.progSeq := rfl
@[simp] theorem State.setTack_life (k : Nat) (t : Tack) : (s.setTack k t).life = s.life := rfl
@[simp] theorem State.setTack_arbs (k : Nat) (t : Tack) : (s.setTack k t).arbs = s.arbs := rfl
@[simp] theorem State.setTack_drift (k : Nat) (t : Tack) : (s.setTack k t).drift = s.drift := rfl
@[simp] theorem State.setTack_store (k : Nat) (t : Tack) : (s.setTack k t).store = s.store := rfl
@[simp] theorem State.setTack_intc (k : Nat) (t : Tack) : (s.setTack k t).intc = s.intc := rfl
@[simp] theorem State.setTack_therm (k : Nat) (t : Tack) : (s.setTack k t).therm = s.therm := rfl
@[simp] theorem State.setTack_obs (k : Nat) (t : Tack) : (s.setTack k t).obs = s.obs := rfl
@[simp] theorem State.setTack_xlat (k : Nat) (t : Tack) : (s.setTack k t).xlat = s.xlat := rfl
@[simp] theorem State.setTack_blocks (k : Nat) (t : Tack) : (s.setTack k t).blocks = s.blocks := rfl
@[simp] theorem State.setTack_cache (k : Nat) (t : Tack) : (s.setTack k t).cache = s.cache := rfl
@[simp] theorem State.setTack_ctxs (k : Nat) (t : Tack) : (s.setTack k t).ctxs = s.ctxs := rfl
@[simp] theorem State.setTack_harness (k : Nat) (t : Tack) : (s.setTack k t).harness = s.harness := rfl
@[simp] theorem State.setTack_host (k : Nat) (t : Tack) : (s.setTack k t).host = s.host := rfl
@[simp] theorem State.setTack_cmdq (k : Nat) (t : Tack) : (s.setTack k t).cmdq = s.cmdq := rfl
@[simp] theorem State.setTack_power (k : Nat) (t : Tack) : (s.setTack k t).power = s.power := rfl
@[simp] theorem State.setTack_boot (k : Nat) (t : Tack) : (s.setTack k t).boot = s.boot := rfl
@[simp] theorem State.setTack_img (k : Nat) (t : Tack) : (s.setTack k t).img = s.img := rfl
@[simp] theorem State.setTack_svc (k : Nat) (t : Tack) : (s.setTack k t).svc = s.svc := rfl

/-! ### setArb -/

@[simp] theorem State.setArb_pending (c : Nat) (a : Arb) : (s.setArb c a).pending = s.pending := rfl
@[simp] theorem State.setArb_nonce (c : Nat) (a : Arb) : (s.setArb c a).nonce = s.nonce := rfl
@[simp] theorem State.setArb_out (c : Nat) (a : Arb) : (s.setArb c a).out = s.out := rfl
@[simp] theorem State.setArb_regs (c : Nat) (a : Arb) : (s.setArb c a).regs = s.regs := rfl
@[simp] theorem State.setArb_dev (c : Nat) (a : Arb) : (s.setArb c a).dev = s.dev := rfl
@[simp] theorem State.setArb_tacks (c : Nat) (a : Arb) : (s.setArb c a).tacks = s.tacks := rfl
@[simp] theorem State.setArb_unborn (c : Nat) (a : Arb) : (s.setArb c a).unborn = s.unborn := rfl
@[simp] theorem State.setArb_serial (c : Nat) (a : Arb) : (s.setArb c a).serial = s.serial := rfl
@[simp] theorem State.setArb_chans (c : Nat) (a : Arb) : (s.setArb c a).chans = s.chans := rfl
@[simp] theorem State.setArb_dies (c : Nat) (a : Arb) : (s.setArb c a).dies = s.dies := rfl
@[simp] theorem State.setArb_ctl (c : Nat) (a : Arb) : (s.setArb c a).ctl = s.ctl := rfl
@[simp] theorem State.setArb_media (c : Nat) (a : Arb) : (s.setArb c a).media = s.media := rfl
@[simp] theorem State.setArb_anyBlocks (c : Nat) (a : Arb) : (s.setArb c a).anyBlocks = s.anyBlocks := rfl
@[simp] theorem State.setArb_progSeq (c : Nat) (a : Arb) : (s.setArb c a).progSeq = s.progSeq := rfl
@[simp] theorem State.setArb_life (c : Nat) (a : Arb) : (s.setArb c a).life = s.life := rfl
@[simp] theorem State.setArb_arbs (c : Nat) (a : Arb) : (s.setArb c a).arbs = Tab.put s.arbs c a := rfl
@[simp] theorem State.setArb_drift (c : Nat) (a : Arb) : (s.setArb c a).drift = s.drift := rfl
@[simp] theorem State.setArb_store (c : Nat) (a : Arb) : (s.setArb c a).store = s.store := rfl
@[simp] theorem State.setArb_intc (c : Nat) (a : Arb) : (s.setArb c a).intc = s.intc := rfl
@[simp] theorem State.setArb_therm (c : Nat) (a : Arb) : (s.setArb c a).therm = s.therm := rfl
@[simp] theorem State.setArb_obs (c : Nat) (a : Arb) : (s.setArb c a).obs = s.obs := rfl
@[simp] theorem State.setArb_xlat (c : Nat) (a : Arb) : (s.setArb c a).xlat = s.xlat := rfl
@[simp] theorem State.setArb_blocks (c : Nat) (a : Arb) : (s.setArb c a).blocks = s.blocks := rfl
@[simp] theorem State.setArb_cache (c : Nat) (a : Arb) : (s.setArb c a).cache = s.cache := rfl
@[simp] theorem State.setArb_ctxs (c : Nat) (a : Arb) : (s.setArb c a).ctxs = s.ctxs := rfl
@[simp] theorem State.setArb_harness (c : Nat) (a : Arb) : (s.setArb c a).harness = s.harness := rfl
@[simp] theorem State.setArb_host (c : Nat) (a : Arb) : (s.setArb c a).host = s.host := rfl
@[simp] theorem State.setArb_cmdq (c : Nat) (a : Arb) : (s.setArb c a).cmdq = s.cmdq := rfl
@[simp] theorem State.setArb_power (c : Nat) (a : Arb) : (s.setArb c a).power = s.power := rfl
@[simp] theorem State.setArb_boot (c : Nat) (a : Arb) : (s.setArb c a).boot = s.boot := rfl
@[simp] theorem State.setArb_img (c : Nat) (a : Arb) : (s.setArb c a).img = s.img := rfl
@[simp] theorem State.setArb_svc (c : Nat) (a : Arb) : (s.setArb c a).svc = s.svc := rfl

/-! ### setCtx -/

@[simp] theorem State.setCtx_pending (c : Nat) (x : Ctx) : (s.setCtx c x).pending = s.pending := rfl
@[simp] theorem State.setCtx_nonce (c : Nat) (x : Ctx) : (s.setCtx c x).nonce = s.nonce := rfl
@[simp] theorem State.setCtx_out (c : Nat) (x : Ctx) : (s.setCtx c x).out = s.out := rfl
@[simp] theorem State.setCtx_regs (c : Nat) (x : Ctx) : (s.setCtx c x).regs = s.regs := rfl
@[simp] theorem State.setCtx_dev (c : Nat) (x : Ctx) : (s.setCtx c x).dev = s.dev := rfl
@[simp] theorem State.setCtx_tacks (c : Nat) (x : Ctx) : (s.setCtx c x).tacks = s.tacks := rfl
@[simp] theorem State.setCtx_unborn (c : Nat) (x : Ctx) : (s.setCtx c x).unborn = s.unborn := rfl
@[simp] theorem State.setCtx_serial (c : Nat) (x : Ctx) : (s.setCtx c x).serial = s.serial := rfl
@[simp] theorem State.setCtx_chans (c : Nat) (x : Ctx) : (s.setCtx c x).chans = s.chans := rfl
@[simp] theorem State.setCtx_dies (c : Nat) (x : Ctx) : (s.setCtx c x).dies = s.dies := rfl
@[simp] theorem State.setCtx_ctl (c : Nat) (x : Ctx) : (s.setCtx c x).ctl = s.ctl := rfl
@[simp] theorem State.setCtx_media (c : Nat) (x : Ctx) : (s.setCtx c x).media = s.media := rfl
@[simp] theorem State.setCtx_anyBlocks (c : Nat) (x : Ctx) : (s.setCtx c x).anyBlocks = s.anyBlocks := rfl
@[simp] theorem State.setCtx_progSeq (c : Nat) (x : Ctx) : (s.setCtx c x).progSeq = s.progSeq := rfl
@[simp] theorem State.setCtx_life (c : Nat) (x : Ctx) : (s.setCtx c x).life = s.life := rfl
@[simp] theorem State.setCtx_arbs (c : Nat) (x : Ctx) : (s.setCtx c x).arbs = s.arbs := rfl
@[simp] theorem State.setCtx_drift (c : Nat) (x : Ctx) : (s.setCtx c x).drift = s.drift := rfl
@[simp] theorem State.setCtx_store (c : Nat) (x : Ctx) : (s.setCtx c x).store = s.store := rfl
@[simp] theorem State.setCtx_intc (c : Nat) (x : Ctx) : (s.setCtx c x).intc = s.intc := rfl
@[simp] theorem State.setCtx_therm (c : Nat) (x : Ctx) : (s.setCtx c x).therm = s.therm := rfl
@[simp] theorem State.setCtx_obs (c : Nat) (x : Ctx) : (s.setCtx c x).obs = s.obs := rfl
@[simp] theorem State.setCtx_xlat (c : Nat) (x : Ctx) : (s.setCtx c x).xlat = s.xlat := rfl
@[simp] theorem State.setCtx_blocks (c : Nat) (x : Ctx) : (s.setCtx c x).blocks = s.blocks := rfl
@[simp] theorem State.setCtx_cache (c : Nat) (x : Ctx) : (s.setCtx c x).cache = s.cache := rfl
@[simp] theorem State.setCtx_ctxs (c : Nat) (x : Ctx) : (s.setCtx c x).ctxs = Tab.put s.ctxs c x := rfl
@[simp] theorem State.setCtx_harness (c : Nat) (x : Ctx) : (s.setCtx c x).harness = s.harness := rfl
@[simp] theorem State.setCtx_host (c : Nat) (x : Ctx) : (s.setCtx c x).host = s.host := rfl
@[simp] theorem State.setCtx_cmdq (c : Nat) (x : Ctx) : (s.setCtx c x).cmdq = s.cmdq := rfl
@[simp] theorem State.setCtx_power (c : Nat) (x : Ctx) : (s.setCtx c x).power = s.power := rfl
@[simp] theorem State.setCtx_boot (c : Nat) (x : Ctx) : (s.setCtx c x).boot = s.boot := rfl
@[simp] theorem State.setCtx_img (c : Nat) (x : Ctx) : (s.setCtx c x).img = s.img := rfl
@[simp] theorem State.setCtx_svc (c : Nat) (x : Ctx) : (s.setCtx c x).svc = s.svc := rfl

/-! ### setStore -/

@[simp] theorem State.setStore_pending (x : Store) : (s.setStore x).pending = s.pending := rfl
@[simp] theorem State.setStore_nonce (x : Store) : (s.setStore x).nonce = s.nonce := rfl
@[simp] theorem State.setStore_out (x : Store) : (s.setStore x).out = s.out := rfl
@[simp] theorem State.setStore_regs (x : Store) : (s.setStore x).regs = s.regs := rfl
@[simp] theorem State.setStore_dev (x : Store) : (s.setStore x).dev = s.dev := rfl
@[simp] theorem State.setStore_tacks (x : Store) : (s.setStore x).tacks = s.tacks := rfl
@[simp] theorem State.setStore_unborn (x : Store) : (s.setStore x).unborn = s.unborn := rfl
@[simp] theorem State.setStore_serial (x : Store) : (s.setStore x).serial = s.serial := rfl
@[simp] theorem State.setStore_chans (x : Store) : (s.setStore x).chans = s.chans := rfl
@[simp] theorem State.setStore_dies (x : Store) : (s.setStore x).dies = s.dies := rfl
@[simp] theorem State.setStore_ctl (x : Store) : (s.setStore x).ctl = s.ctl := rfl
@[simp] theorem State.setStore_media (x : Store) : (s.setStore x).media = s.media := rfl
@[simp] theorem State.setStore_anyBlocks (x : Store) : (s.setStore x).anyBlocks = s.anyBlocks := rfl
@[simp] theorem State.setStore_progSeq (x : Store) : (s.setStore x).progSeq = s.progSeq := rfl
@[simp] theorem State.setStore_life (x : Store) : (s.setStore x).life = s.life := rfl
@[simp] theorem State.setStore_arbs (x : Store) : (s.setStore x).arbs = s.arbs := rfl
@[simp] theorem State.setStore_drift (x : Store) : (s.setStore x).drift = s.drift := rfl
@[simp] theorem State.setStore_store (x : Store) : (s.setStore x).store = x := rfl
@[simp] theorem State.setStore_intc (x : Store) : (s.setStore x).intc = s.intc := rfl
@[simp] theorem State.setStore_therm (x : Store) : (s.setStore x).therm = s.therm := rfl
@[simp] theorem State.setStore_obs (x : Store) : (s.setStore x).obs = s.obs := rfl
@[simp] theorem State.setStore_xlat (x : Store) : (s.setStore x).xlat = s.xlat := rfl
@[simp] theorem State.setStore_blocks (x : Store) : (s.setStore x).blocks = s.blocks := rfl
@[simp] theorem State.setStore_cache (x : Store) : (s.setStore x).cache = s.cache := rfl
@[simp] theorem State.setStore_ctxs (x : Store) : (s.setStore x).ctxs = s.ctxs := rfl
@[simp] theorem State.setStore_harness (x : Store) : (s.setStore x).harness = s.harness := rfl
@[simp] theorem State.setStore_host (x : Store) : (s.setStore x).host = s.host := rfl
@[simp] theorem State.setStore_cmdq (x : Store) : (s.setStore x).cmdq = s.cmdq := rfl
@[simp] theorem State.setStore_power (x : Store) : (s.setStore x).power = s.power := rfl
@[simp] theorem State.setStore_boot (x : Store) : (s.setStore x).boot = s.boot := rfl
@[simp] theorem State.setStore_img (x : Store) : (s.setStore x).img = s.img := rfl
@[simp] theorem State.setStore_svc (x : Store) : (s.setStore x).svc = s.svc := rfl

/-! ### setXlat -/

@[simp] theorem State.setXlat_pending (x : Xlat) : (s.setXlat x).pending = s.pending := rfl
@[simp] theorem State.setXlat_nonce (x : Xlat) : (s.setXlat x).nonce = s.nonce := rfl
@[simp] theorem State.setXlat_out (x : Xlat) : (s.setXlat x).out = s.out := rfl
@[simp] theorem State.setXlat_regs (x : Xlat) : (s.setXlat x).regs = s.regs := rfl
@[simp] theorem State.setXlat_dev (x : Xlat) : (s.setXlat x).dev = s.dev := rfl
@[simp] theorem State.setXlat_tacks (x : Xlat) : (s.setXlat x).tacks = s.tacks := rfl
@[simp] theorem State.setXlat_unborn (x : Xlat) : (s.setXlat x).unborn = s.unborn := rfl
@[simp] theorem State.setXlat_serial (x : Xlat) : (s.setXlat x).serial = s.serial := rfl
@[simp] theorem State.setXlat_chans (x : Xlat) : (s.setXlat x).chans = s.chans := rfl
@[simp] theorem State.setXlat_dies (x : Xlat) : (s.setXlat x).dies = s.dies := rfl
@[simp] theorem State.setXlat_ctl (x : Xlat) : (s.setXlat x).ctl = s.ctl := rfl
@[simp] theorem State.setXlat_media (x : Xlat) : (s.setXlat x).media = s.media := rfl
@[simp] theorem State.setXlat_anyBlocks (x : Xlat) : (s.setXlat x).anyBlocks = s.anyBlocks := rfl
@[simp] theorem State.setXlat_progSeq (x : Xlat) : (s.setXlat x).progSeq = s.progSeq := rfl
@[simp] theorem State.setXlat_life (x : Xlat) : (s.setXlat x).life = s.life := rfl
@[simp] theorem State.setXlat_arbs (x : Xlat) : (s.setXlat x).arbs = s.arbs := rfl
@[simp] theorem State.setXlat_drift (x : Xlat) : (s.setXlat x).drift = s.drift := rfl
@[simp] theorem State.setXlat_store (x : Xlat) : (s.setXlat x).store = s.store := rfl
@[simp] theorem State.setXlat_intc (x : Xlat) : (s.setXlat x).intc = s.intc := rfl
@[simp] theorem State.setXlat_therm (x : Xlat) : (s.setXlat x).therm = s.therm := rfl
@[simp] theorem State.setXlat_obs (x : Xlat) : (s.setXlat x).obs = s.obs := rfl
@[simp] theorem State.setXlat_xlat (x : Xlat) : (s.setXlat x).xlat = x := rfl
@[simp] theorem State.setXlat_blocks (x : Xlat) : (s.setXlat x).blocks = s.blocks := rfl
@[simp] theorem State.setXlat_cache (x : Xlat) : (s.setXlat x).cache = s.cache := rfl
@[simp] theorem State.setXlat_ctxs (x : Xlat) : (s.setXlat x).ctxs = s.ctxs := rfl
@[simp] theorem State.setXlat_harness (x : Xlat) : (s.setXlat x).harness = s.harness := rfl
@[simp] theorem State.setXlat_host (x : Xlat) : (s.setXlat x).host = s.host := rfl
@[simp] theorem State.setXlat_cmdq (x : Xlat) : (s.setXlat x).cmdq = s.cmdq := rfl
@[simp] theorem State.setXlat_power (x : Xlat) : (s.setXlat x).power = s.power := rfl
@[simp] theorem State.setXlat_boot (x : Xlat) : (s.setXlat x).boot = s.boot := rfl
@[simp] theorem State.setXlat_img (x : Xlat) : (s.setXlat x).img = s.img := rfl
@[simp] theorem State.setXlat_svc (x : Xlat) : (s.setXlat x).svc = s.svc := rfl

/-! ### setBlocks -/

@[simp] theorem State.setBlocks_pending (x : Blocks) : (s.setBlocks x).pending = s.pending := rfl
@[simp] theorem State.setBlocks_nonce (x : Blocks) : (s.setBlocks x).nonce = s.nonce := rfl
@[simp] theorem State.setBlocks_out (x : Blocks) : (s.setBlocks x).out = s.out := rfl
@[simp] theorem State.setBlocks_regs (x : Blocks) : (s.setBlocks x).regs = s.regs := rfl
@[simp] theorem State.setBlocks_dev (x : Blocks) : (s.setBlocks x).dev = s.dev := rfl
@[simp] theorem State.setBlocks_tacks (x : Blocks) : (s.setBlocks x).tacks = s.tacks := rfl
@[simp] theorem State.setBlocks_unborn (x : Blocks) : (s.setBlocks x).unborn = s.unborn := rfl
@[simp] theorem State.setBlocks_serial (x : Blocks) : (s.setBlocks x).serial = s.serial := rfl
@[simp] theorem State.setBlocks_chans (x : Blocks) : (s.setBlocks x).chans = s.chans := rfl
@[simp] theorem State.setBlocks_dies (x : Blocks) : (s.setBlocks x).dies = s.dies := rfl
@[simp] theorem State.setBlocks_ctl (x : Blocks) : (s.setBlocks x).ctl = s.ctl := rfl
@[simp] theorem State.setBlocks_media (x : Blocks) : (s.setBlocks x).media = s.media := rfl
@[simp] theorem State.setBlocks_anyBlocks (x : Blocks) : (s.setBlocks x).anyBlocks = s.anyBlocks := rfl
@[simp] theorem State.setBlocks_progSeq (x : Blocks) : (s.setBlocks x).progSeq = s.progSeq := rfl
@[simp] theorem State.setBlocks_life (x : Blocks) : (s.setBlocks x).life = s.life := rfl
@[simp] theorem State.setBlocks_arbs (x : Blocks) : (s.setBlocks x).arbs = s.arbs := rfl
@[simp] theorem State.setBlocks_drift (x : Blocks) : (s.setBlocks x).drift = s.drift := rfl
@[simp] theorem State.setBlocks_store (x : Blocks) : (s.setBlocks x).store = s.store := rfl
@[simp] theorem State.setBlocks_intc (x : Blocks) : (s.setBlocks x).intc = s.intc := rfl
@[simp] theorem State.setBlocks_therm (x : Blocks) : (s.setBlocks x).therm = s.therm := rfl
@[simp] theorem State.setBlocks_obs (x : Blocks) : (s.setBlocks x).obs = s.obs := rfl
@[simp] theorem State.setBlocks_xlat (x : Blocks) : (s.setBlocks x).xlat = s.xlat := rfl
@[simp] theorem State.setBlocks_blocks (x : Blocks) : (s.setBlocks x).blocks = x := rfl
@[simp] theorem State.setBlocks_cache (x : Blocks) : (s.setBlocks x).cache = s.cache := rfl
@[simp] theorem State.setBlocks_ctxs (x : Blocks) : (s.setBlocks x).ctxs = s.ctxs := rfl
@[simp] theorem State.setBlocks_harness (x : Blocks) : (s.setBlocks x).harness = s.harness := rfl
@[simp] theorem State.setBlocks_host (x : Blocks) : (s.setBlocks x).host = s.host := rfl
@[simp] theorem State.setBlocks_cmdq (x : Blocks) : (s.setBlocks x).cmdq = s.cmdq := rfl
@[simp] theorem State.setBlocks_power (x : Blocks) : (s.setBlocks x).power = s.power := rfl
@[simp] theorem State.setBlocks_boot (x : Blocks) : (s.setBlocks x).boot = s.boot := rfl
@[simp] theorem State.setBlocks_img (x : Blocks) : (s.setBlocks x).img = s.img := rfl
@[simp] theorem State.setBlocks_svc (x : Blocks) : (s.setBlocks x).svc = s.svc := rfl

/-! ### setCache -/

@[simp] theorem State.setCache_pending (x : Cache) : (s.setCache x).pending = s.pending := rfl
@[simp] theorem State.setCache_nonce (x : Cache) : (s.setCache x).nonce = s.nonce := rfl
@[simp] theorem State.setCache_out (x : Cache) : (s.setCache x).out = s.out := rfl
@[simp] theorem State.setCache_regs (x : Cache) : (s.setCache x).regs = s.regs := rfl
@[simp] theorem State.setCache_dev (x : Cache) : (s.setCache x).dev = s.dev := rfl
@[simp] theorem State.setCache_tacks (x : Cache) : (s.setCache x).tacks = s.tacks := rfl
@[simp] theorem State.setCache_unborn (x : Cache) : (s.setCache x).unborn = s.unborn := rfl
@[simp] theorem State.setCache_serial (x : Cache) : (s.setCache x).serial = s.serial := rfl
@[simp] theorem State.setCache_chans (x : Cache) : (s.setCache x).chans = s.chans := rfl
@[simp] theorem State.setCache_dies (x : Cache) : (s.setCache x).dies = s.dies := rfl
@[simp] theorem State.setCache_ctl (x : Cache) : (s.setCache x).ctl = s.ctl := rfl
@[simp] theorem State.setCache_media (x : Cache) : (s.setCache x).media = s.media := rfl
@[simp] theorem State.setCache_anyBlocks (x : Cache) : (s.setCache x).anyBlocks = s.anyBlocks := rfl
@[simp] theorem State.setCache_progSeq (x : Cache) : (s.setCache x).progSeq = s.progSeq := rfl
@[simp] theorem State.setCache_life (x : Cache) : (s.setCache x).life = s.life := rfl
@[simp] theorem State.setCache_arbs (x : Cache) : (s.setCache x).arbs = s.arbs := rfl
@[simp] theorem State.setCache_drift (x : Cache) : (s.setCache x).drift = s.drift := rfl
@[simp] theorem State.setCache_store (x : Cache) : (s.setCache x).store = s.store := rfl
@[simp] theorem State.setCache_intc (x : Cache) : (s.setCache x).intc = s.intc := rfl
@[simp] theorem State.setCache_therm (x : Cache) : (s.setCache x).therm = s.therm := rfl
@[simp] theorem State.setCache_obs (x : Cache) : (s.setCache x).obs = s.obs := rfl
@[simp] theorem State.setCache_xlat (x : Cache) : (s.setCache x).xlat = s.xlat := rfl
@[simp] theorem State.setCache_blocks (x : Cache) : (s.setCache x).blocks = s.blocks := rfl
@[simp] theorem State.setCache_cache (x : Cache) : (s.setCache x).cache = x := rfl
@[simp] theorem State.setCache_ctxs (x : Cache) : (s.setCache x).ctxs = s.ctxs := rfl
@[simp] theorem State.setCache_harness (x : Cache) : (s.setCache x).harness = s.harness := rfl
@[simp] theorem State.setCache_host (x : Cache) : (s.setCache x).host = s.host := rfl
@[simp] theorem State.setCache_cmdq (x : Cache) : (s.setCache x).cmdq = s.cmdq := rfl
@[simp] theorem State.setCache_power (x : Cache) : (s.setCache x).power = s.power := rfl
@[simp] theorem State.setCache_boot (x : Cache) : (s.setCache x).boot = s.boot := rfl
@[simp] theorem State.setCache_img (x : Cache) : (s.setCache x).img = s.img := rfl
@[simp] theorem State.setCache_svc (x : Cache) : (s.setCache x).svc = s.svc := rfl

/-! ### setCmdq -/

@[simp] theorem State.setCmdq_pending (x : Cmdq) : (s.setCmdq x).pending = s.pending := rfl
@[simp] theorem State.setCmdq_nonce (x : Cmdq) : (s.setCmdq x).nonce = s.nonce := rfl
@[simp] theorem State.setCmdq_out (x : Cmdq) : (s.setCmdq x).out = s.out := rfl
@[simp] theorem State.setCmdq_regs (x : Cmdq) : (s.setCmdq x).regs = s.regs := rfl
@[simp] theorem State.setCmdq_dev (x : Cmdq) : (s.setCmdq x).dev = s.dev := rfl
@[simp] theorem State.setCmdq_tacks (x : Cmdq) : (s.setCmdq x).tacks = s.tacks := rfl
@[simp] theorem State.setCmdq_unborn (x : Cmdq) : (s.setCmdq x).unborn = s.unborn := rfl
@[simp] theorem State.setCmdq_serial (x : Cmdq) : (s.setCmdq x).serial = s.serial := rfl
@[simp] theorem State.setCmdq_chans (x : Cmdq) : (s.setCmdq x).chans = s.chans := rfl
@[simp] theorem State.setCmdq_dies (x : Cmdq) : (s.setCmdq x).dies = s.dies := rfl
@[simp] theorem State.setCmdq_ctl (x : Cmdq) : (s.setCmdq x).ctl = s.ctl := rfl
@[simp] theorem State.setCmdq_media (x : Cmdq) : (s.setCmdq x).media = s.media := rfl
@[simp] theorem State.setCmdq_anyBlocks (x : Cmdq) : (s.setCmdq x).anyBlocks = s.anyBlocks := rfl
@[simp] theorem State.setCmdq_progSeq (x : Cmdq) : (s.setCmdq x).progSeq = s.progSeq := rfl
@[simp] theorem State.setCmdq_life (x : Cmdq) : (s.setCmdq x).life = s.life := rfl
@[simp] theorem State.setCmdq_arbs (x : Cmdq) : (s.setCmdq x).arbs = s.arbs := rfl
@[simp] theorem State.setCmdq_drift (x : Cmdq) : (s.setCmdq x).drift = s.drift := rfl
@[simp] theorem State.setCmdq_store (x : Cmdq) : (s.setCmdq x).store = s.store := rfl
@[simp] theorem State.setCmdq_intc (x : Cmdq) : (s.setCmdq x).intc = s.intc := rfl
@[simp] theorem State.setCmdq_therm (x : Cmdq) : (s.setCmdq x).therm = s.therm := rfl
@[simp] theorem State.setCmdq_obs (x : Cmdq) : (s.setCmdq x).obs = s.obs := rfl
@[simp] theorem State.setCmdq_xlat (x : Cmdq) : (s.setCmdq x).xlat = s.xlat := rfl
@[simp] theorem State.setCmdq_blocks (x : Cmdq) : (s.setCmdq x).blocks = s.blocks := rfl
@[simp] theorem State.setCmdq_cache (x : Cmdq) : (s.setCmdq x).cache = s.cache := rfl
@[simp] theorem State.setCmdq_ctxs (x : Cmdq) : (s.setCmdq x).ctxs = s.ctxs := rfl
@[simp] theorem State.setCmdq_harness (x : Cmdq) : (s.setCmdq x).harness = s.harness := rfl
@[simp] theorem State.setCmdq_host (x : Cmdq) : (s.setCmdq x).host = s.host := rfl
@[simp] theorem State.setCmdq_cmdq (x : Cmdq) : (s.setCmdq x).cmdq = x := rfl
@[simp] theorem State.setCmdq_power (x : Cmdq) : (s.setCmdq x).power = s.power := rfl
@[simp] theorem State.setCmdq_boot (x : Cmdq) : (s.setCmdq x).boot = s.boot := rfl
@[simp] theorem State.setCmdq_img (x : Cmdq) : (s.setCmdq x).img = s.img := rfl
@[simp] theorem State.setCmdq_svc (x : Cmdq) : (s.setCmdq x).svc = s.svc := rfl

/-! ### setPower -/

@[simp] theorem State.setPower_pending (x : Power) : (s.setPower x).pending = s.pending := rfl
@[simp] theorem State.setPower_nonce (x : Power) : (s.setPower x).nonce = s.nonce := rfl
@[simp] theorem State.setPower_out (x : Power) : (s.setPower x).out = s.out := rfl
@[simp] theorem State.setPower_regs (x : Power) : (s.setPower x).regs = s.regs := rfl
@[simp] theorem State.setPower_dev (x : Power) : (s.setPower x).dev = s.dev := rfl
@[simp] theorem State.setPower_tacks (x : Power) : (s.setPower x).tacks = s.tacks := rfl
@[simp] theorem State.setPower_unborn (x : Power) : (s.setPower x).unborn = s.unborn := rfl
@[simp] theorem State.setPower_serial (x : Power) : (s.setPower x).serial = s.serial := rfl
@[simp] theorem State.setPower_chans (x : Power) : (s.setPower x).chans = s.chans := rfl
@[simp] theorem State.setPower_dies (x : Power) : (s.setPower x).dies = s.dies := rfl
@[simp] theorem State.setPower_ctl (x : Power) : (s.setPower x).ctl = s.ctl := rfl
@[simp] theorem State.setPower_media (x : Power) : (s.setPower x).media = s.media := rfl
@[simp] theorem State.setPower_anyBlocks (x : Power) : (s.setPower x).anyBlocks = s.anyBlocks := rfl
@[simp] theorem State.setPower_progSeq (x : Power) : (s.setPower x).progSeq = s.progSeq := rfl
@[simp] theorem State.setPower_life (x : Power) : (s.setPower x).life = s.life := rfl
@[simp] theorem State.setPower_arbs (x : Power) : (s.setPower x).arbs = s.arbs := rfl
@[simp] theorem State.setPower_drift (x : Power) : (s.setPower x).drift = s.drift := rfl
@[simp] theorem State.setPower_store (x : Power) : (s.setPower x).store = s.store := rfl
@[simp] theorem State.setPower_intc (x : Power) : (s.setPower x).intc = s.intc := rfl
@[simp] theorem State.setPower_therm (x : Power) : (s.setPower x).therm = s.therm := rfl
@[simp] theorem State.setPower_obs (x : Power) : (s.setPower x).obs = s.obs := rfl
@[simp] theorem State.setPower_xlat (x : Power) : (s.setPower x).xlat = s.xlat := rfl
@[simp] theorem State.setPower_blocks (x : Power) : (s.setPower x).blocks = s.blocks := rfl
@[simp] theorem State.setPower_cache (x : Power) : (s.setPower x).cache = s.cache := rfl
@[simp] theorem State.setPower_ctxs (x : Power) : (s.setPower x).ctxs = s.ctxs := rfl
@[simp] theorem State.setPower_harness (x : Power) : (s.setPower x).harness = s.harness := rfl
@[simp] theorem State.setPower_host (x : Power) : (s.setPower x).host = s.host := rfl
@[simp] theorem State.setPower_cmdq (x : Power) : (s.setPower x).cmdq = s.cmdq := rfl
@[simp] theorem State.setPower_power (x : Power) : (s.setPower x).power = x := rfl
@[simp] theorem State.setPower_boot (x : Power) : (s.setPower x).boot = s.boot := rfl
@[simp] theorem State.setPower_img (x : Power) : (s.setPower x).img = s.img := rfl
@[simp] theorem State.setPower_svc (x : Power) : (s.setPower x).svc = s.svc := rfl

/-! ### setBoot -/

@[simp] theorem State.setBoot_pending (x : Boot) : (s.setBoot x).pending = s.pending := rfl
@[simp] theorem State.setBoot_nonce (x : Boot) : (s.setBoot x).nonce = s.nonce := rfl
@[simp] theorem State.setBoot_out (x : Boot) : (s.setBoot x).out = s.out := rfl
@[simp] theorem State.setBoot_regs (x : Boot) : (s.setBoot x).regs = s.regs := rfl
@[simp] theorem State.setBoot_dev (x : Boot) : (s.setBoot x).dev = s.dev := rfl
@[simp] theorem State.setBoot_tacks (x : Boot) : (s.setBoot x).tacks = s.tacks := rfl
@[simp] theorem State.setBoot_unborn (x : Boot) : (s.setBoot x).unborn = s.unborn := rfl
@[simp] theorem State.setBoot_serial (x : Boot) : (s.setBoot x).serial = s.serial := rfl
@[simp] theorem State.setBoot_chans (x : Boot) : (s.setBoot x).chans = s.chans := rfl
@[simp] theorem State.setBoot_dies (x : Boot) : (s.setBoot x).dies = s.dies := rfl
@[simp] theorem State.setBoot_ctl (x : Boot) : (s.setBoot x).ctl = s.ctl := rfl
@[simp] theorem State.setBoot_media (x : Boot) : (s.setBoot x).media = s.media := rfl
@[simp] theorem State.setBoot_anyBlocks (x : Boot) : (s.setBoot x).anyBlocks = s.anyBlocks := rfl
@[simp] theorem State.setBoot_progSeq (x : Boot) : (s.setBoot x).progSeq = s.progSeq := rfl
@[simp] theorem State.setBoot_life (x : Boot) : (s.setBoot x).life = s.life := rfl
@[simp] theorem State.setBoot_arbs (x : Boot) : (s.setBoot x).arbs = s.arbs := rfl
@[simp] theorem State.setBoot_drift (x : Boot) : (s.setBoot x).drift = s.drift := rfl
@[simp] theorem State.setBoot_store (x : Boot) : (s.setBoot x).store = s.store := rfl
@[simp] theorem State.setBoot_intc (x : Boot) : (s.setBoot x).intc = s.intc := rfl
@[simp] theorem State.setBoot_therm (x : Boot) : (s.setBoot x).therm = s.therm := rfl
@[simp] theorem State.setBoot_obs (x : Boot) : (s.setBoot x).obs = s.obs := rfl
@[simp] theorem State.setBoot_xlat (x : Boot) : (s.setBoot x).xlat = s.xlat := rfl
@[simp] theorem State.setBoot_blocks (x : Boot) : (s.setBoot x).blocks = s.blocks := rfl
@[simp] theorem State.setBoot_cache (x : Boot) : (s.setBoot x).cache = s.cache := rfl
@[simp] theorem State.setBoot_ctxs (x : Boot) : (s.setBoot x).ctxs = s.ctxs := rfl
@[simp] theorem State.setBoot_harness (x : Boot) : (s.setBoot x).harness = s.harness := rfl
@[simp] theorem State.setBoot_host (x : Boot) : (s.setBoot x).host = s.host := rfl
@[simp] theorem State.setBoot_cmdq (x : Boot) : (s.setBoot x).cmdq = s.cmdq := rfl
@[simp] theorem State.setBoot_power (x : Boot) : (s.setBoot x).power = s.power := rfl
@[simp] theorem State.setBoot_boot (x : Boot) : (s.setBoot x).boot = x := rfl
@[simp] theorem State.setBoot_img (x : Boot) : (s.setBoot x).img = s.img := rfl
@[simp] theorem State.setBoot_svc (x : Boot) : (s.setBoot x).svc = s.svc := rfl

/-! ### setImg -/

@[simp] theorem State.setImg_pending (x : Images) : (s.setImg x).pending = s.pending := rfl
@[simp] theorem State.setImg_nonce (x : Images) : (s.setImg x).nonce = s.nonce := rfl
@[simp] theorem State.setImg_out (x : Images) : (s.setImg x).out = s.out := rfl
@[simp] theorem State.setImg_regs (x : Images) : (s.setImg x).regs = s.regs := rfl
@[simp] theorem State.setImg_dev (x : Images) : (s.setImg x).dev = s.dev := rfl
@[simp] theorem State.setImg_tacks (x : Images) : (s.setImg x).tacks = s.tacks := rfl
@[simp] theorem State.setImg_unborn (x : Images) : (s.setImg x).unborn = s.unborn := rfl
@[simp] theorem State.setImg_serial (x : Images) : (s.setImg x).serial = s.serial := rfl
@[simp] theorem State.setImg_chans (x : Images) : (s.setImg x).chans = s.chans := rfl
@[simp] theorem State.setImg_dies (x : Images) : (s.setImg x).dies = s.dies := rfl
@[simp] theorem State.setImg_ctl (x : Images) : (s.setImg x).ctl = s.ctl := rfl
@[simp] theorem State.setImg_media (x : Images) : (s.setImg x).media = s.media := rfl
@[simp] theorem State.setImg_anyBlocks (x : Images) : (s.setImg x).anyBlocks = s.anyBlocks := rfl
@[simp] theorem State.setImg_progSeq (x : Images) : (s.setImg x).progSeq = s.progSeq := rfl
@[simp] theorem State.setImg_life (x : Images) : (s.setImg x).life = s.life := rfl
@[simp] theorem State.setImg_arbs (x : Images) : (s.setImg x).arbs = s.arbs := rfl
@[simp] theorem State.setImg_drift (x : Images) : (s.setImg x).drift = s.drift := rfl
@[simp] theorem State.setImg_store (x : Images) : (s.setImg x).store = s.store := rfl
@[simp] theorem State.setImg_intc (x : Images) : (s.setImg x).intc = s.intc := rfl
@[simp] theorem State.setImg_therm (x : Images) : (s.setImg x).therm = s.therm := rfl
@[simp] theorem State.setImg_obs (x : Images) : (s.setImg x).obs = s.obs := rfl
@[simp] theorem State.setImg_xlat (x : Images) : (s.setImg x).xlat = s.xlat := rfl
@[simp] theorem State.setImg_blocks (x : Images) : (s.setImg x).blocks = s.blocks := rfl
@[simp] theorem State.setImg_cache (x : Images) : (s.setImg x).cache = s.cache := rfl
@[simp] theorem State.setImg_ctxs (x : Images) : (s.setImg x).ctxs = s.ctxs := rfl
@[simp] theorem State.setImg_harness (x : Images) : (s.setImg x).harness = s.harness := rfl
@[simp] theorem State.setImg_host (x : Images) : (s.setImg x).host = s.host := rfl
@[simp] theorem State.setImg_cmdq (x : Images) : (s.setImg x).cmdq = s.cmdq := rfl
@[simp] theorem State.setImg_power (x : Images) : (s.setImg x).power = s.power := rfl
@[simp] theorem State.setImg_boot (x : Images) : (s.setImg x).boot = s.boot := rfl
@[simp] theorem State.setImg_img (x : Images) : (s.setImg x).img = x := rfl
@[simp] theorem State.setImg_svc (x : Images) : (s.setImg x).svc = s.svc := rfl

/-! ### setSvc -/

@[simp] theorem State.setSvc_pending (x : Svc) : (s.setSvc x).pending = s.pending := rfl
@[simp] theorem State.setSvc_nonce (x : Svc) : (s.setSvc x).nonce = s.nonce := rfl
@[simp] theorem State.setSvc_out (x : Svc) : (s.setSvc x).out = s.out := rfl
@[simp] theorem State.setSvc_regs (x : Svc) : (s.setSvc x).regs = s.regs := rfl
@[simp] theorem State.setSvc_dev (x : Svc) : (s.setSvc x).dev = s.dev := rfl
@[simp] theorem State.setSvc_tacks (x : Svc) : (s.setSvc x).tacks = s.tacks := rfl
@[simp] theorem State.setSvc_unborn (x : Svc) : (s.setSvc x).unborn = s.unborn := rfl
@[simp] theorem State.setSvc_serial (x : Svc) : (s.setSvc x).serial = s.serial := rfl
@[simp] theorem State.setSvc_chans (x : Svc) : (s.setSvc x).chans = s.chans := rfl
@[simp] theorem State.setSvc_dies (x : Svc) : (s.setSvc x).dies = s.dies := rfl
@[simp] theorem State.setSvc_ctl (x : Svc) : (s.setSvc x).ctl = s.ctl := rfl
@[simp] theorem State.setSvc_media (x : Svc) : (s.setSvc x).media = s.media := rfl
@[simp] theorem State.setSvc_anyBlocks (x : Svc) : (s.setSvc x).anyBlocks = s.anyBlocks := rfl
@[simp] theorem State.setSvc_progSeq (x : Svc) : (s.setSvc x).progSeq = s.progSeq := rfl
@[simp] theorem State.setSvc_life (x : Svc) : (s.setSvc x).life = s.life := rfl
@[simp] theorem State.setSvc_arbs (x : Svc) : (s.setSvc x).arbs = s.arbs := rfl
@[simp] theorem State.setSvc_drift (x : Svc) : (s.setSvc x).drift = s.drift := rfl
@[simp] theorem State.setSvc_store (x : Svc) : (s.setSvc x).store = s.store := rfl
@[simp] theorem State.setSvc_intc (x : Svc) : (s.setSvc x).intc = s.intc := rfl
@[simp] theorem State.setSvc_therm (x : Svc) : (s.setSvc x).therm = s.therm := rfl
@[simp] theorem State.setSvc_obs (x : Svc) : (s.setSvc x).obs = s.obs := rfl
@[simp] theorem State.setSvc_xlat (x : Svc) : (s.setSvc x).xlat = s.xlat := rfl
@[simp] theorem State.setSvc_blocks (x : Svc) : (s.setSvc x).blocks = s.blocks := rfl
@[simp] theorem State.setSvc_cache (x : Svc) : (s.setSvc x).cache = s.cache := rfl
@[simp] theorem State.setSvc_ctxs (x : Svc) : (s.setSvc x).ctxs = s.ctxs := rfl
@[simp] theorem State.setSvc_harness (x : Svc) : (s.setSvc x).harness = s.harness := rfl
@[simp] theorem State.setSvc_host (x : Svc) : (s.setSvc x).host = s.host := rfl
@[simp] theorem State.setSvc_cmdq (x : Svc) : (s.setSvc x).cmdq = s.cmdq := rfl
@[simp] theorem State.setSvc_power (x : Svc) : (s.setSvc x).power = s.power := rfl
@[simp] theorem State.setSvc_boot (x : Svc) : (s.setSvc x).boot = s.boot := rfl
@[simp] theorem State.setSvc_img (x : Svc) : (s.setSvc x).img = s.img := rfl
@[simp] theorem State.setSvc_svc (x : Svc) : (s.setSvc x).svc = x := rfl

/-! ### setHost -/

@[simp] theorem State.setHost_pending (x : HostPort) : (s.setHost x).pending = s.pending := rfl
@[simp] theorem State.setHost_nonce (x : HostPort) : (s.setHost x).nonce = s.nonce := rfl
@[simp] theorem State.setHost_out (x : HostPort) : (s.setHost x).out = s.out := rfl
@[simp] theorem State.setHost_regs (x : HostPort) : (s.setHost x).regs = s.regs := rfl
@[simp] theorem State.setHost_dev (x : HostPort) : (s.setHost x).dev = s.dev := rfl
@[simp] theorem State.setHost_tacks (x : HostPort) : (s.setHost x).tacks = s.tacks := rfl
@[simp] theorem State.setHost_unborn (x : HostPort) : (s.setHost x).unborn = s.unborn := rfl
@[simp] theorem State.setHost_serial (x : HostPort) : (s.setHost x).serial = s.serial := rfl
@[simp] theorem State.setHost_chans (x : HostPort) : (s.setHost x).chans = s.chans := rfl
@[simp] theorem State.setHost_dies (x : HostPort) : (s.setHost x).dies = s.dies := rfl
@[simp] theorem State.setHost_ctl (x : HostPort) : (s.setHost x).ctl = s.ctl := rfl
@[simp] theorem State.setHost_media (x : HostPort) : (s.setHost x).media = s.media := rfl
@[simp] theorem State.setHost_anyBlocks (x : HostPort) : (s.setHost x).anyBlocks = s.anyBlocks := rfl
@[simp] theorem State.setHost_progSeq (x : HostPort) : (s.setHost x).progSeq = s.progSeq := rfl
@[simp] theorem State.setHost_life (x : HostPort) : (s.setHost x).life = s.life := rfl
@[simp] theorem State.setHost_arbs (x : HostPort) : (s.setHost x).arbs = s.arbs := rfl
@[simp] theorem State.setHost_drift (x : HostPort) : (s.setHost x).drift = s.drift := rfl
@[simp] theorem State.setHost_store (x : HostPort) : (s.setHost x).store = s.store := rfl
@[simp] theorem State.setHost_intc (x : HostPort) : (s.setHost x).intc = s.intc := rfl
@[simp] theorem State.setHost_therm (x : HostPort) : (s.setHost x).therm = s.therm := rfl
@[simp] theorem State.setHost_obs (x : HostPort) : (s.setHost x).obs = s.obs := rfl
@[simp] theorem State.setHost_xlat (x : HostPort) : (s.setHost x).xlat = s.xlat := rfl
@[simp] theorem State.setHost_blocks (x : HostPort) : (s.setHost x).blocks = s.blocks := rfl
@[simp] theorem State.setHost_cache (x : HostPort) : (s.setHost x).cache = s.cache := rfl
@[simp] theorem State.setHost_ctxs (x : HostPort) : (s.setHost x).ctxs = s.ctxs := rfl
@[simp] theorem State.setHost_harness (x : HostPort) : (s.setHost x).harness = s.harness := rfl
@[simp] theorem State.setHost_host (x : HostPort) : (s.setHost x).host = x := rfl
@[simp] theorem State.setHost_cmdq (x : HostPort) : (s.setHost x).cmdq = s.cmdq := rfl
@[simp] theorem State.setHost_power (x : HostPort) : (s.setHost x).power = s.power := rfl
@[simp] theorem State.setHost_boot (x : HostPort) : (s.setHost x).boot = s.boot := rfl
@[simp] theorem State.setHost_img (x : HostPort) : (s.setHost x).img = s.img := rfl
@[simp] theorem State.setHost_svc (x : HostPort) : (s.setHost x).svc = s.svc := rfl

/-! ### setHarness -/

@[simp] theorem State.setHarness_pending (x : Harness) : (s.setHarness x).pending = s.pending := rfl
@[simp] theorem State.setHarness_nonce (x : Harness) : (s.setHarness x).nonce = s.nonce := rfl
@[simp] theorem State.setHarness_out (x : Harness) : (s.setHarness x).out = s.out := rfl
@[simp] theorem State.setHarness_regs (x : Harness) : (s.setHarness x).regs = s.regs := rfl
@[simp] theorem State.setHarness_dev (x : Harness) : (s.setHarness x).dev = s.dev := rfl
@[simp] theorem State.setHarness_tacks (x : Harness) : (s.setHarness x).tacks = s.tacks := rfl
@[simp] theorem State.setHarness_unborn (x : Harness) : (s.setHarness x).unborn = s.unborn := rfl
@[simp] theorem State.setHarness_serial (x : Harness) : (s.setHarness x).serial = s.serial := rfl
@[simp] theorem State.setHarness_chans (x : Harness) : (s.setHarness x).chans = s.chans := rfl
@[simp] theorem State.setHarness_dies (x : Harness) : (s.setHarness x).dies = s.dies := rfl
@[simp] theorem State.setHarness_ctl (x : Harness) : (s.setHarness x).ctl = s.ctl := rfl
@[simp] theorem State.setHarness_media (x : Harness) : (s.setHarness x).media = s.media := rfl
@[simp] theorem State.setHarness_anyBlocks (x : Harness) : (s.setHarness x).anyBlocks = s.anyBlocks := rfl
@[simp] theorem State.setHarness_progSeq (x : Harness) : (s.setHarness x).progSeq = s.progSeq := rfl
@[simp] theorem State.setHarness_life (x : Harness) : (s.setHarness x).life = s.life := rfl
@[simp] theorem State.setHarness_arbs (x : Harness) : (s.setHarness x).arbs = s.arbs := rfl
@[simp] theorem State.setHarness_drift (x : Harness) : (s.setHarness x).drift = s.drift := rfl
@[simp] theorem State.setHarness_store (x : Harness) : (s.setHarness x).store = s.store := rfl
@[simp] theorem State.setHarness_intc (x : Harness) : (s.setHarness x).intc = s.intc := rfl
@[simp] theorem State.setHarness_therm (x : Harness) : (s.setHarness x).therm = s.therm := rfl
@[simp] theorem State.setHarness_obs (x : Harness) : (s.setHarness x).obs = s.obs := rfl
@[simp] theorem State.setHarness_xlat (x : Harness) : (s.setHarness x).xlat = s.xlat := rfl
@[simp] theorem State.setHarness_blocks (x : Harness) : (s.setHarness x).blocks = s.blocks := rfl
@[simp] theorem State.setHarness_cache (x : Harness) : (s.setHarness x).cache = s.cache := rfl
@[simp] theorem State.setHarness_ctxs (x : Harness) : (s.setHarness x).ctxs = s.ctxs := rfl
@[simp] theorem State.setHarness_harness (x : Harness) : (s.setHarness x).harness = x := rfl
@[simp] theorem State.setHarness_host (x : Harness) : (s.setHarness x).host = s.host := rfl
@[simp] theorem State.setHarness_cmdq (x : Harness) : (s.setHarness x).cmdq = s.cmdq := rfl
@[simp] theorem State.setHarness_power (x : Harness) : (s.setHarness x).power = s.power := rfl
@[simp] theorem State.setHarness_boot (x : Harness) : (s.setHarness x).boot = s.boot := rfl
@[simp] theorem State.setHarness_img (x : Harness) : (s.setHarness x).img = s.img := rfl
@[simp] theorem State.setHarness_svc (x : Harness) : (s.setHarness x).svc = s.svc := rfl

/-! ### setTherm -/

@[simp] theorem State.setTherm_pending (x : Therm) : (s.setTherm x).pending = s.pending := rfl
@[simp] theorem State.setTherm_nonce (x : Therm) : (s.setTherm x).nonce = s.nonce := rfl
@[simp] theorem State.setTherm_out (x : Therm) : (s.setTherm x).out = s.out := rfl
@[simp] theorem State.setTherm_regs (x : Therm) : (s.setTherm x).regs = s.regs := rfl
@[simp] theorem State.setTherm_dev (x : Therm) : (s.setTherm x).dev = s.dev := rfl
@[simp] theorem State.setTherm_tacks (x : Therm) : (s.setTherm x).tacks = s.tacks := rfl
@[simp] theorem State.setTherm_unborn (x : Therm) : (s.setTherm x).unborn = s.unborn := rfl
@[simp] theorem State.setTherm_serial (x : Therm) : (s.setTherm x).serial = s.serial := rfl
@[simp] theorem State.setTherm_chans (x : Therm) : (s.setTherm x).chans = s.chans := rfl
@[simp] theorem State.setTherm_dies (x : Therm) : (s.setTherm x).dies = s.dies := rfl
@[simp] theorem State.setTherm_ctl (x : Therm) : (s.setTherm x).ctl = s.ctl := rfl
@[simp] theorem State.setTherm_media (x : Therm) : (s.setTherm x).media = s.media := rfl
@[simp] theorem State.setTherm_anyBlocks (x : Therm) : (s.setTherm x).anyBlocks = s.anyBlocks := rfl
@[simp] theorem State.setTherm_progSeq (x : Therm) : (s.setTherm x).progSeq = s.progSeq := rfl
@[simp] theorem State.setTherm_life (x : Therm) : (s.setTherm x).life = s.life := rfl
@[simp] theorem State.setTherm_arbs (x : Therm) : (s.setTherm x).arbs = s.arbs := rfl
@[simp] theorem State.setTherm_drift (x : Therm) : (s.setTherm x).drift = s.drift := rfl
@[simp] theorem State.setTherm_store (x : Therm) : (s.setTherm x).store = s.store := rfl
@[simp] theorem State.setTherm_intc (x : Therm) : (s.setTherm x).intc = s.intc := rfl
@[simp] theorem State.setTherm_therm (x : Therm) : (s.setTherm x).therm = x := rfl
@[simp] theorem State.setTherm_obs (x : Therm) : (s.setTherm x).obs = s.obs := rfl
@[simp] theorem State.setTherm_xlat (x : Therm) : (s.setTherm x).xlat = s.xlat := rfl
@[simp] theorem State.setTherm_blocks (x : Therm) : (s.setTherm x).blocks = s.blocks := rfl
@[simp] theorem State.setTherm_cache (x : Therm) : (s.setTherm x).cache = s.cache := rfl
@[simp] theorem State.setTherm_ctxs (x : Therm) : (s.setTherm x).ctxs = s.ctxs := rfl
@[simp] theorem State.setTherm_harness (x : Therm) : (s.setTherm x).harness = s.harness := rfl
@[simp] theorem State.setTherm_host (x : Therm) : (s.setTherm x).host = s.host := rfl
@[simp] theorem State.setTherm_cmdq (x : Therm) : (s.setTherm x).cmdq = s.cmdq := rfl
@[simp] theorem State.setTherm_power (x : Therm) : (s.setTherm x).power = s.power := rfl
@[simp] theorem State.setTherm_boot (x : Therm) : (s.setTherm x).boot = s.boot := rfl
@[simp] theorem State.setTherm_img (x : Therm) : (s.setTherm x).img = s.img := rfl
@[simp] theorem State.setTherm_svc (x : Therm) : (s.setTherm x).svc = s.svc := rfl

/-! ### emit -/

@[simp] theorem State.emit_pending (o : Out) : (s.emit o).pending = s.pending := rfl
@[simp] theorem State.emit_nonce (o : Out) : (s.emit o).nonce = s.nonce := rfl
@[simp] theorem State.emit_out (o : Out) : (s.emit o).out = s.out ++ [o] := rfl
@[simp] theorem State.emit_regs (o : Out) : (s.emit o).regs = s.regs := rfl
@[simp] theorem State.emit_dev (o : Out) : (s.emit o).dev = s.dev := rfl
@[simp] theorem State.emit_tacks (o : Out) : (s.emit o).tacks = s.tacks := rfl
@[simp] theorem State.emit_unborn (o : Out) : (s.emit o).unborn = s.unborn := rfl
@[simp] theorem State.emit_serial (o : Out) : (s.emit o).serial = s.serial := rfl
@[simp] theorem State.emit_chans (o : Out) : (s.emit o).chans = s.chans := rfl
@[simp] theorem State.emit_dies (o : Out) : (s.emit o).dies = s.dies := rfl
@[simp] theorem State.emit_ctl (o : Out) : (s.emit o).ctl = s.ctl := rfl
@[simp] theorem State.emit_media (o : Out) : (s.emit o).media = s.media := rfl
@[simp] theorem State.emit_anyBlocks (o : Out) : (s.emit o).anyBlocks = s.anyBlocks := rfl
@[simp] theorem State.emit_progSeq (o : Out) : (s.emit o).progSeq = s.progSeq := rfl
@[simp] theorem State.emit_life (o : Out) : (s.emit o).life = s.life := rfl
@[simp] theorem State.emit_arbs (o : Out) : (s.emit o).arbs = s.arbs := rfl
@[simp] theorem State.emit_drift (o : Out) : (s.emit o).drift = s.drift := rfl
@[simp] theorem State.emit_store (o : Out) : (s.emit o).store = s.store := rfl
@[simp] theorem State.emit_intc (o : Out) : (s.emit o).intc = s.intc := rfl
@[simp] theorem State.emit_therm (o : Out) : (s.emit o).therm = s.therm := rfl
@[simp] theorem State.emit_obs (o : Out) : (s.emit o).obs = s.obs := rfl
@[simp] theorem State.emit_xlat (o : Out) : (s.emit o).xlat = s.xlat := rfl
@[simp] theorem State.emit_blocks (o : Out) : (s.emit o).blocks = s.blocks := rfl
@[simp] theorem State.emit_cache (o : Out) : (s.emit o).cache = s.cache := rfl
@[simp] theorem State.emit_ctxs (o : Out) : (s.emit o).ctxs = s.ctxs := rfl
@[simp] theorem State.emit_harness (o : Out) : (s.emit o).harness = s.harness := rfl
@[simp] theorem State.emit_host (o : Out) : (s.emit o).host = s.host := rfl
@[simp] theorem State.emit_cmdq (o : Out) : (s.emit o).cmdq = s.cmdq := rfl
@[simp] theorem State.emit_power (o : Out) : (s.emit o).power = s.power := rfl
@[simp] theorem State.emit_boot (o : Out) : (s.emit o).boot = s.boot := rfl
@[simp] theorem State.emit_img (o : Out) : (s.emit o).img = s.img := rfl
@[simp] theorem State.emit_svc (o : Out) : (s.emit o).svc = s.svc := rfl

/-! ### withPending -/

@[simp] theorem State.withPending_pending (q : List Instr) : (s.withPending q).pending = q := rfl
@[simp] theorem State.withPending_nonce (q : List Instr) : (s.withPending q).nonce = s.nonce := rfl
@[simp] theorem State.withPending_out (q : List Instr) : (s.withPending q).out = s.out := rfl
@[simp] theorem State.withPending_regs (q : List Instr) : (s.withPending q).regs = s.regs := rfl
@[simp] theorem State.withPending_dev (q : List Instr) : (s.withPending q).dev = s.dev := rfl
@[simp] theorem State.withPending_tacks (q : List Instr) : (s.withPending q).tacks = s.tacks := rfl
@[simp] theorem State.withPending_unborn (q : List Instr) : (s.withPending q).unborn = s.unborn := rfl
@[simp] theorem State.withPending_serial (q : List Instr) : (s.withPending q).serial = s.serial := rfl
@[simp] theorem State.withPending_chans (q : List Instr) : (s.withPending q).chans = s.chans := rfl
@[simp] theorem State.withPending_dies (q : List Instr) : (s.withPending q).dies = s.dies := rfl
@[simp] theorem State.withPending_ctl (q : List Instr) : (s.withPending q).ctl = s.ctl := rfl
@[simp] theorem State.withPending_media (q : List Instr) : (s.withPending q).media = s.media := rfl
@[simp] theorem State.withPending_anyBlocks (q : List Instr) : (s.withPending q).anyBlocks = s.anyBlocks := rfl
@[simp] theorem State.withPending_progSeq (q : List Instr) : (s.withPending q).progSeq = s.progSeq := rfl
@[simp] theorem State.withPending_life (q : List Instr) : (s.withPending q).life = s.life := rfl
@[simp] theorem State.withPending_arbs (q : List Instr) : (s.withPending q).arbs = s.arbs := rfl
@[simp] theorem State.withPending_drift (q : List Instr) : (s.withPending q).drift = s.drift := rfl
@[simp] theorem State.withPending_store (q : List Instr) : (s.withPending q).store = s.store := rfl
@[simp] theorem State.withPending_intc (q : List Instr) : (s.withPending q).intc = s.intc := rfl
@[simp] theorem State.withPending_therm (q : List Instr) : (s.withPending q).therm = s.therm := rfl
@[simp] theorem State.withPending_obs (q : List Instr) : (s.withPending q).obs = s.obs := rfl
@[simp] theorem State.withPending_xlat (q : List Instr) : (s.withPending q).xlat = s.xlat := rfl
@[simp] theorem State.withPending_blocks (q : List Instr) : (s.withPending q).blocks = s.blocks := rfl
@[simp] theorem State.withPending_cache (q : List Instr) : (s.withPending q).cache = s.cache := rfl
@[simp] theorem State.withPending_ctxs (q : List Instr) : (s.withPending q).ctxs = s.ctxs := rfl
@[simp] theorem State.withPending_harness (q : List Instr) : (s.withPending q).harness = s.harness := rfl
@[simp] theorem State.withPending_host (q : List Instr) : (s.withPending q).host = s.host := rfl
@[simp] theorem State.withPending_cmdq (q : List Instr) : (s.withPending q).cmdq = s.cmdq := rfl
@[simp] theorem State.withPending_power (q : List Instr) : (s.withPending q).power = s.power := rfl
@[simp] theorem State.withPending_boot (q : List Instr) : (s.withPending q).boot = s.boot := rfl
@[simp] theorem State.withPending_img (q : List Instr) : (s.withPending q).img = s.img := rfl
@[simp] theorem State.withPending_svc (q : List Instr) : (s.withPending q).svc = s.svc := rfl

end Sys2Proof.Machine
end

