-- ==== Sys2Proof/Machine/RegRead.lean ====
section
/-! DEFINITION. What a register reads as (R8, R9, R11): RW, W1C and counter fields hold their own bits, read-only fields are views of
the state, WO and reserved fields and offsets no table assigns read 0. Reads with an effect of their own are rows (CLAIM,
COUNTER_LO_READ, AGE_LO_READ, EVT_WIN_READ); here they read 0. -/

namespace Sys2Proof.Machine

/-- Word `i` of a wide value. -/
def word32 (v i : Nat) : Nat := v / 2 ^ (32 * i) % 2 ^ 32

/-- A 16-bit signed field. -/
def int16 (t : Int) : Nat := (t % 65536).toNat

/-- The bits of a predicate over 32 places from `base`. -/
def bitWord (base : Nat) (p : Nat → Bool) : Nat := ofBits ((List.range 32).map (fun n => p (base + n)))

/-- DEV (Tables 1.12 to 1.14). -/
def State.readDev (s : State) (off : Nat) : Nat :=
  match off with
  | 0x00 => 0x09600410
  | 0x04 => 22 * 2 ^ 24 + 8 * 2 ^ 16 + 96
  | 0x08 => s.dev.unitId.toNat
  | 0x10 => s.dev.seq.toNat * 256 + s.dev.prev.code * 16 + s.dev.state.code
  | 0x14 => s.devFlags
  | 0x18 => s.reg off
  | 0x20 => word32 s.boundMask 0
  | 0x24 => word32 s.boundMask 1
  | 0x28 => word32 s.boundMask 2
  | _ => 0

def QState.code (q : QState) : Nat := match q with | .idle => 0 | .running => 1 | .stopping => 2 | .error => 3

/-- The registers of a pair (Table 10.2). ENABLE reads 1 while the pair is RUNNING or in ERROR. -/
def State.readQueue (s : State) (q : Fin 1024) (off : Nat) : Nat :=
  let x := s.queue q.val
  match off with
  | 0x00 => word32 x.sqBase 0
  | 0x04 => word32 x.sqBase 1
  | 0x08 => word32 x.cqBase 0
  | 0x0C => word32 x.cqBase 1
  | 0x10 => x.cqLast * 65536 + x.sqLast
  | 0x14 => flag (x.st == .running || x.st == .error) * 2 ^ 31 + flag x.lock * 2 ^ 30 + x.lockCtx * 2 ^ 18 + x.weight
  | 0x18 => flag x.intEn * 2 ^ 31 + x.vector * 2 ^ 16 + x.coalUs * 2 ^ 8 + x.coalCount
  | 0x1C => x.st.code * 2 ^ 30 + flag x.fetchErr * 2 ^ 29 + flag x.dbErr * 2 ^ 28 + flag x.cfgErr * 2 ^ 27 + s.pairBusy q * 2 ^ 16 + x.sqHead
  | _ => 0

/-- FETCH_PAUSED (R326, R345): fetching is stopped, a device-wide limit is reached, or every running pair is at its own limit. -/
def State.fetchPaused (s : State) : Bool :=
  let running := s.cmdq.queues.filter (fun e => e.2.st == .running)
  s.fetches && (!s.mayFetch || s.slotsFull || decide (1024 ≤ s.hostBusy)
    || (!running.isEmpty && running.all (fun e => if h : e.1 < 1024 then decide (256 ≤ s.pairBusy ⟨e.1, h⟩) else true)))

/-- CMDQ (Tables 10.1 to 10.3). -/
def State.readCmdq (s : State) (off : Nat) : Nat :=
  if off < 0x14000 then 0
  else if off < 0x1C000 then
    let q := (off - 0x14000) / 32
    if h : q < 1024 then s.readQueue ⟨q, h⟩ ((off - 0x14000) % 32) else 0
  else if off = 0x1F000 then 0xFFFF03FF
  else if off = 0x1F004 then flag s.fetchPaused * 2 ^ 18 + flag s.anyQueueErr * 2 ^ 17 + s.hostBusy
  else if 0x1F100 ≤ off ∧ off < 0x1F180 then bitWord (8 * (off - 0x1F100)) (fun q => (s.queue q).st == .error)
  else 0

/-- The status word of a target (Table 14.5). -/
def Target.status (x : Target) : Nat := flag x.eoiErr * 512 + flag x.notified * 256 + x.stack.length * 16 + x.runPrio

/-- INTC (Tables 14.3 to 14.6). -/
def State.readIntc (s : State) (off : Nat) : Nat :=
  if off = rIntcStatus then s.reg off
  else if 0x21000 ≤ off ∧ off < 0x22000 then
    let n := (off - 0x21000) / 8
    if !isSource n then 0
    else if off % 8 = 0 then
      if 256 ≤ n ∧ n ≤ 319 then 0
      else
        let r := Tab.get s.intc.host n Route.init
        flag (s.pendingRoute n r) * 2 ^ 31 + flag r.active * 2 ^ 30 + flag (levelSource n) * 2 ^ 29 + flag (levelSource n && s.levelCond n) * 2 ^ 28
          + r.target * 256 + r.prio
    else if off % 8 = 4 then
      let r := Tab.get s.intc.core n Route.init
      flag (s.pendingRoute n r) * 2 ^ 31 + flag r.active * 2 ^ 30 + r.target * 256 + r.prio
    else 0
  else if 0x22000 ≤ off ∧ off < 0x22800 then
    let x := Tab.get s.intc.targets ((off - 0x22000) / 32) Target.init
    match off % 32 with
    | 8 => flag x.enable * 2 ^ 31 + x.vector
    | 12 => x.status
    | _ => 0
  else if 0x22800 ≤ off ∧ off < 0x22880 then
    (if off % 16 = 0 then (Tab.get s.intc.coreTargets ((off - 0x22800) / 16) Target.init).status else 0)
  else if 0x23000 ≤ off ∧ off < 0x23040 then
    bitWord (8 * (off - 0x23000)) (fun n => isSource n && s.pendingRoute n (Tab.get s.intc.host n Route.init))
  else 0

/-- ARB_CH_STATUS (Table 3.9). A requester is guarded at 64 losses (R97). -/
def Arb.status (a : Arb) : Nat :=
  flag a.unbound * 2 ^ 31 + flag a.drfOvr * 2 ^ 30 + flag a.skvRaised * 2 ^ 29 + flag (decide (a.sinceGuard < 15)) * 2 ^ 28 + a.lastWinner * 2 ^ 16
    + ofBits ((List.range 10).map (fun c => decide (64 ≤ Tab.get a.losses c 0)))

/-- ARB_CH_TICKETS_i as they show (Table 3.8, R107). -/
def State.readTickets (s : State) (ch i : Nat) : Nat :=
  let t := s.tickets ch
  match i with
  | 0 => t 0 + 2 ^ 8 * t 1 + 2 ^ 16 * t 2 + 2 ^ 24 * t 3
  | 1 => t 4 + 2 ^ 8 * t 5 + 2 ^ 16 * t 6 + 2 ^ 24 * t 7
  | _ => t 8 + 2 ^ 8 * t 9

/-- ARB (Tables 3.3 to 3.11). -/
def State.readArb (s : State) (off : Nat) : Nat :=
  if off = 0x30008 then s.arbStatus
  else if off = rArbProfile ∨ off = rArbSeed ∨ off = rArbOvrCount then s.reg off
  else if 0x30010 ≤ off ∧ off < 0x3001C then word32 s.drfOvrMask ((off - 0x30010) / 4)
  else if 0x30020 ≤ off ∧ off < 0x3002C then word32 s.unsafeMask ((off - 0x30020) / 4)
  else if 0x31000 ≤ off ∧ off < 0x31000 + 96 * 0x40 then
    let ch := (off - 0x31000) / 0x40
    match off % 0x40 with
    | 0x04 => s.readTickets ch 0
    | 0x08 => s.readTickets ch 1
    | 0x0C => s.readTickets ch 2
    | 0x10 => (s.arbOf ch).status
    | 0x14 => (s.arbOf ch).lfsr.toNat
    | 0x00 | 0x18 | 0x1C => s.reg off
    | _ => 0
  else 0

def ChState.code (c : ChState) : Nat :=
  match c with
  | .off => 0 | .reset => 1 | .init => 2 | .training => 3 | .ready => 4 | .retraining => 5 | .offline => 6 | .fault => 7

/-- A mask of the dies of a channel. -/
def State.dieMask (s : State) (ch : Nat) (p : DieCtl → Bool) : Nat := ofBits ((List.range 8).map (fun d => p (s.ctlOf (dieKey ch d))))

/-- MEDIA_CH_DIE_d (Table 2.26). -/
def DieCtl.word (c : DieCtl) (susp : Nat) : Nat :=
  int16 c.temp * 65536 + susp % 32 * 2 ^ 11 + c.seen.toNat * 16 + flag c.online * 2 + flag c.present

/-- MEDIA (Tables 2.17 to 2.26). -/
def State.readMedia (s : State) (off : Nat) : Nat :=
  if off < 0x58000 then
    let ch := (off - 0x40000) / 0x400
    let c := s.chan ch
    match off % 0x400 with
    | 0x00 => (if s.dev.state = .held then s.reg off % 2 ^ 8 else s.reg off) + flag (s.chPop ch)
    | 0x04 => s.dieMask ch (fun x => x.online) * 2 ^ 24 + s.dieMask ch (fun x => x.present) * 2 ^ 16 + flag c.alertLow * 2 ^ 11 + flag c.fast * 2 ^ 10
        + c.st.code
    | 0x08 | 0x0C | 0x10 | 0x14 | 0x18 => s.reg off
    | o => if 0x20 ≤ o ∧ o < 0x40 then (let k := dieKey ch ((o - 0x20) / 4); (s.ctlOf k).word (s.die k).suspCount) else 0
  else if off = rMediaCtrl ∨ off = rMediaTempPeriod then s.reg off
  else if 0x58010 ≤ off ∧ off < 0x5801C then bitWord (8 * (off - 0x58010)) (fun ch => (s.chan ch).st == .ready)
  else if 0x58020 ≤ off ∧ off < 0x5802C then bitWord (8 * (off - 0x58020)) (fun ch => s.reg (rChEvents ch) != 0)
  else 0

/-- Item `k` of the reference window (Table 4.15), as 10 bits. -/
def State.refItem (s : State) (k : Nat) : Nat :=
  let sel := s.reg rDriftRefSel
  let v := s.drift.profile.version
  let ten := fun (x : BitVec 8) => (x.toInt % 1024).toNat
  if k = 0 ∨ 15 < k then 0
  else match bits sel 8 2 with
    | 0 => (Config.baseThreshold v (bits sel 4 2) (bits sel 0 4) k).toNat
    | 1 => ten (Config.slope v (bits sel 4 2) (bits sel 0 4) k)
    | 2 => ten (Config.bandOffset v (bits sel 0 4) k)
    | _ => 0

/-- Byte `k` of the offset window: the learned offset of threshold k (Table 4.15). -/
def State.ofsItem (s : State) (k : Nat) : Nat :=
  let sel := s.reg rDriftOfsSel
  let die := bits sel 10 7 * 8 + bits sel 7 3
  let q := (die * 4 + bits sel 5 2) * 17 + bits sel 0 5
  if k = 0 ∨ 15 < k then 0 else (((s.learnedAt q).g.getD (k - 1) 0) % 256).toNat

/-- The registers of a die (Table 4.16). AGE_LO is a row; AGE_HI shows the bits taken with it. -/
def State.readAge (s : State) (k off : Nat) : Nat :=
  let a := s.age k
  match off with
  | 4 => (let l := Tab.get s.drift.ageLatch k 0; l % 256 * 65536 + l / 2 ^ 40 % 65536)
  | 8 => a.unpow
  | 12 => a.factor % 65536 * 65536 + a.bandAt * 256 + flag a.reassessed * 128 + flag a.provisional * 32 + flag a.clamped * 16 + flag a.assumed * 8
      + flag a.stale * 4 + a.brandState.toNat
  | _ => 0

/-- DRIFT (Tables 4.12 to 4.16). -/
def State.readDrift (s : State) (off : Nat) : Nat :=
  let d := s.drift
  if off = 0x60004 then s.driftStatus
  else if off = rDriftCtrl ∨ off = rDriftRefreshAge ∨ off = rDriftTune ∨ off = rDriftRefSel ∨ off = rDriftOfsSel then s.reg off
  else if off = 0x6000C then d.profile.readLimit
  else if off = 0x60014 then d.brandMedian
  else if off = 0x60018 then d.brandSpread
  else if off = 0x6001C then d.lastE.getD 0
  else if 0x60040 ≤ off ∧ off < 0x60058 then d.profile.factors.getD ((off - 0x60040) / 4) 0
  else if (rDriftLadder ≤ off ∧ off < rDriftLadder + 32) ∨ (rDriftUncorr ≤ off ∧ off ≤ rDriftLate) then s.reg off
  else if 0x60104 ≤ off ∧ off < 0x60124 then (let n := (off - 0x60104) / 4; s.refItem (2 * n + 2) * 65536 + s.refItem (2 * n + 1))
  else if 0x60144 ≤ off ∧ off < 0x60154 then
    (let n := (off - 0x60144) / 4; s.ofsItem (4 * n + 1) + 2 ^ 8 * s.ofsItem (4 * n + 2) + 2 ^ 16 * s.ofsItem (4 * n + 3) + 2 ^ 24 * s.ofsItem (4 * n + 4))
  else if 0x61000 ≤ off ∧ off < 0x61000 + 768 * 16 then s.readAge ((off - 0x61000) / 16) (off % 16)
  else 0

/-- XLAT (Tables 5.9 to 5.12). -/
def State.readXlat (s : State) (off : Nat) : Nat :=
  let x := s.xlat
  let welt := match s.newestWelt with | some w => w.seq | none => 0
  match off with
  | 0x70004 => s.xlatStatus
  | 0x70010 => word32 welt 0
  | 0x70014 => word32 welt 1
  | 0x70020 => word32 x.jHead 0
  | 0x70024 => word32 x.jHead 1
  | 0x70028 => word32 (x.jCommit.getD 0) 0
  | 0x7002C => word32 (x.jCommit.getD 0) 1
  | 0x70034 => s.pinnedCount
  | 0x70080 => s.spaceGood
  | 0x70084 => s.spaceFree
  | 0x70088 => s.leafNeed
  | 0x7008C => s.mapNeed
  | 0x70090 => spaceFloor
  | 0x700A0 => flag x.peekOk * 2 ^ 31 + x.peek
  | 0x700A4 => word32 x.peekWord 0
  | 0x700A8 => word32 x.peekWord 1
  | 0x70000 | 0x70008 | 0x7000C | 0x70018 | 0x70030 | 0x70038 | 0x70040 | 0x70044 | 0x70048 => s.reg off
  | _ =>
    if 0x70060 ≤ off ∧ off < 0x70080 then
      match Tab.find x.spares ((off - 0x70060) / 4) with
      | some sp => (match sp.line with | some l => 2 ^ 31 + l | none => 0) + flag sp.bad * 2 ^ 30
      | none => 0
    else 0

/-- CACHE (Tables 7.11 to 7.14). -/
def State.readCache (s : State) (off : Nat) : Nat :=
  let c := s.cache
  match off with
  | 0x80004 => s.cacheStatus
  | 0x80008 => c.ceiling
  | 0x80014 => s.dirtyLines
  | 0x80018 => s.lockedLines
  | 0x80020 => c.lfsr.toNat
  | 0x80054 => s.reg off + flag c.rng.isSome * 2 ^ 31 + flag (match c.rng with | some r => r.cmd.isSome | none => false) * 2 ^ 28 + c.rngOp
  | 0x80058 => c.lockFull * 65536 + c.skipped
  | 0x80000 | 0x8000C | 0x80010 | 0x8001C | 0x80040 | 0x80044 | 0x80048 | 0x8004C | 0x80050 => s.reg off
  | _ => if rCacheTagPar ≤ off ∧ off ≤ rCachePoison then s.reg off else 0

/-- CTX (Table 9.1). -/
def State.readCtx (s : State) (off : Nat) : Nat := ofLe (((s.ctxEntry ((off - 0x90000) / 32)).drop (off % 32)).take 4)

/-- PWR (Tables 11.10 to 11.13). In HELD the BD fields read 0 (R11). -/
def State.readPwr (s : State) (off : Nat) : Nat :=
  let p := s.power
  let held := s.dev.state == .held
  match off with
  | 0xB0004 => s.pwrStatus
  | 0xB0010 => if held then 0 else s.reg off
  | 0xB0014 => if held then s.reg off / 2 ^ 13 * 2 ^ 13 else s.reg off
  | 0xB0018 => p.bankC
  | 0xB001C => p.bankEsr
  | 0xB0020 => p.bankE
  | 0xB0024 => s.measHours * 65536 + p.measFlags.toNat
  | 0xB0030 => p.octetOff.toNat
  | 0xB0008 | 0xB000C | 0xB0028 | 0xB002C | 0xB0034 | 0xB0038 | 0xB003C => s.reg off
  | _ =>
    if 0xB0100 ≤ off ∧ off < 0xB01A0 then
      (let n := (off - 0xB0100) / 4; flag (inWindow n (s.adcMv n)) * 2 ^ 31 + s.adcMv n % 65536)
    else 0

/-- THERM (Tables 14.10 to 14.12). THERM_LIMITS reads 0x0073_695F in HELD as the note below Table 14.11 has it, though its fields are
marked BD, which R11 lets read 0 there (DEDUCED, log 55). -/
def State.readTherm (s : State) (off : Nat) : Nat :=
  let t := s.therm
  match off with
  | 0xC0004 => s.reg off + flag t.fallback * 16 + flag t.diodeMode * 8 + flag t.fast * 4 + flag t.throttle * 2 + flag t.warn
  | 0xC0008 => if t.accepted && s.dev.state != .held then s.reg off else 0x0073695F
  | 0xC000C => int16 t.junction
  | 0xC0018 | 0xC001C =>
    (let n := (off - 0xC0018) / 4
     Tab.get t.dramBand n 0 * 2 ^ 20 + flag (t.refreshDue.contains n) * 2 ^ 18 + int16 (Tab.get t.dramTemp n 0))
  | 0xC0020 => if t.diodeMode then int16 t.diode else 0x8000
  | 0xC0000 | 0xC0010 | 0xC0014 => s.reg off
  | _ =>
    if 0xC0040 ≤ off ∧ off < 0xC00A0 then
      (let i := (off - 0xC0040) / 4
       flag (t.suspects.contains i) * 2 ^ 31 + (if t.diodeMode then 0x8000 else int16 (t.sensors.getD i 0)))
    else 0

/-- PSTORE (Tables 13.10, 13.11). Store and event writes end inside their rows, so BUSY and EVT_BUSY show 0 (log 1). -/
def State.readPstore (s : State) (off : Nat) : Nat :=
  match off with
  | 0xD0000 => s.store.bootAction.toNat * 64 + s.reg off + flag (s.store.evCount == 2048) * 8
  | 0xD000C => Nat.min 0xFFFF s.store.opsCompleted * 65536 + Nat.min 0xFFFF s.store.opsRolledBack
  | 0xD0010 => s.store.evCount
  | 0xD0014 => s.store.evOverflow
  | 0xD0004 | 0xD0008 | 0xD0018 | 0xD001C => s.reg off
  | _ => 0

/-- A programmable counter's registers; HI shows the bits captured with LO (R441). -/
def ObsCnt.read (c : ObsCnt) (off : Nat) : Nat :=
  match off with
  | 0x00 => c.cfg
  | 0x04 => c.flt
  | 0x0C => c.capture
  | 0x10 => word32 c.reload 0
  | 0x14 => word32 c.reload 1
  | _ => 0

/-- Word `off` of a channel's slot counters. -/
def SlotCnt.read (x : SlotCnt) (off : Nat) : Nat := ofLe ((x.bytes.drop off).take 4)

/-- OBS (Tables 15.7 to 15.9). -/
def State.readObs (s : State) (off : Nat) : Nat :=
  if 0xF0000 ≤ off then
    (let i := s.reg rSmpWinSel * 1024 + (off - 0xF0000) / 64; ofLe (((Tab.get s.obs.ring i []).drop (off % 64)).take 4))
  else if 0xE1000 ≤ off ∧ off < 0xE1000 + 64 * 96 then
    (Tab.get s.obs.shadows ((off - 0xE1000) / 64) SlotCnt.init).read (off % 64)
  else if 0xE0100 ≤ off ∧ off < 0xE0300 then (Tab.get s.obs.counters ((off - 0xE0100) / 32) ObsCnt.init).read (off % 32)
  else match off with
    | 0xE0004 => s.reg off + flag (s.smpFill == 4194303) * 4 + flag (decide (s.reg rSmpWater ≤ s.smpFill)) * 2 + flag s.obs.snapValid
    | 0xE0408 => s.obs.head
    | 0xE040C => s.obs.tail
    | 0xE0410 => s.smpFill
    | 0xE0000 | 0xE0400 | 0xE0404 | 0xE0414 | 0xE0418 | 0xE041C | 0xE0500 | 0xE0504 | 0xE0508 | 0xE050C => s.reg off
    | _ => 0

/-- SVC (Tables 16.8 to 16.10). -/
def State.readSvc (s : State) (off : Nat) : Nat :=
  let v := s.svc
  match off with
  | 0x100000 | 0x10001C => s.reg off
  | 0x100004 => s.reg off + v.eid.toNat * 256 + (match v.bus with | .idle => 0 | .smbus => 1 | .i3c => 2)
  | 0x100008 => flag (v.fifo.any (fun b => b.2)) * 2 ^ 14 + flag (v.fifo.length % 32 != 0) * 2 ^ 13 + v.fifo.length
  | 0x10000C => v.dyn.toNat * 256 + 0x4D
  | 0x100010 => s.imgState
  | 0x100014 => s.img.received
  | 0x100018 => s.rollbackReg
  | 0x100020 => word32 (s.slotVersion s.slotPtr.active) 0
  | 0x100024 => word32 (s.slotVersion s.slotPtr.active) 1
  | 0x100028 => word32 (headerVersion s.stagedHeader) 0
  | 0x10002C => word32 (headerVersion s.stagedHeader) 1
  | _ => 0

/-- An HDM decoder's registers; its control shows Committed. -/
def State.readHdm (s : State) (i off : Nat) : Nat :=
  if off = 0x10 then s.reg (rHdm i + 0x10) % 1024 + 1024 * flag (Tab.find s.host.decoders i).isSome else s.reg (rHdm i + off)

/-- CXLC and CXLD while the link runs CXL: the capability headers, HDM decoders, device status, mailbox and memory device status in the CXL
standard's layout (R279, log 70). The media are not ready in POWERING, HELD and MOUNTING. -/
def State.readCxl (s : State) (off : Nat) : Nat :=
  if !s.host.cxl then 0
  else if 0x111110 ≤ off ∧ off < 0x111190 then s.readHdm ((off - 0x111110) / 0x20) ((off - 0x111110) % 0x20)
  else match off with
    | 0x111000 => 0x01110001
    | 0x111004 => 0x10030005
    | 0x111100 => 0x302
    | 0x120000 => 0x01010000
    | 0x120004 => 3
    | 0x120010 => 0x00010001
    | 0x120014 => 0x40
    | 0x120018 => 8
    | 0x120020 => 0x00010002
    | 0x120024 => 0x1000
    | 0x120028 => 0x1020
    | 0x120030 => 0x00014000
    | 0x120034 => 0x60
    | 0x120038 => 8
    | 0x120060 => (if s.dev.state = .powering ∨ s.dev.state = .held ∨ s.dev.state = .mounting then 0 else 4) + 16
    | 0x121000 => 12
    | 0x121014 => s.host.mailboxCode
    | _ => if off = 0x111104 ∨ off = 0x121008 ∨ off = 0x12100C ∨ (0x121020 ≤ off ∧ off < 0x122020) then s.reg off else 0

/-- BAR0 (Table 8.5). -/
def State.readBar0 (s : State) (off : Nat) : Nat :=
  if off < 0x10000 then s.readDev off
  else if off < 0x20000 then s.readCmdq off
  else if off < 0x30000 then s.readIntc off
  else if off < 0x40000 then s.readArb off
  else if off < 0x60000 then s.readMedia off
  else if off < 0x70000 then s.readDrift off
  else if off < 0x80000 then s.readXlat off
  else if off < 0x90000 then s.readCache off
  else if off < 0xB0000 then s.readCtx off
  else if off < 0xC0000 then s.readPwr off
  else if off < 0xD0000 then s.readTherm off
  else if off < 0xE0000 then s.readPstore off
  else if off < 0x100000 then s.readObs off
  else if off < 0x110000 then s.readSvc off
  else if off < 0x130000 then s.readCxl off
  else 0

/-- The status word of the host-port DVSEC (Table 8.11). -/
def State.dvsecStatus (s : State) : Nat :=
  let h := s.host
  s.dev.state.code * 2 ^ 12 + flag s.dev.readOnly * 256 + flag h.cxl * 128 + flag h.flit * 64 + h.rate * 8
    + (if h.width = 8 then Config.wideWidth.toNat else h.width)

/-- AER's registers (R291). -/
def Aer.read (a : Aer) (off : Nat) : Nat :=
  match off with
  | 0x00 => 0x20020001
  | 0x04 => a.uncStatus.toNat
  | 0x08 => a.uncMask.toNat
  | 0x0C => a.uncSeverity.toNat
  | 0x10 => a.corStatus.toNat
  | 0x14 => a.corMask.toNat
  | 0x18 => a.first.getD 0
  | _ => if 0x1C ≤ off ∧ off < 0x2C then ofLe (((a.headerLog.drop (off - 0x1C)).take 4).reverse) else 0

/-- Configuration space: identity (R270), Command, the BARs with their types (Table 8.4), no Interrupt Pin, Device Control and Completion
Timeout (R290), the sizes and the size of BAR2/3 (R278), the L1 substates (Table 8.2), AER, and in the CXL personality the Register Locator
(R279). The places, and what no rule gives, are PCI Express's and the CXL standard's (logs 69, 70). -/
def State.readConfig (s : State) (off : Nat) : Nat :=
  let h := s.host
  match off with
  | 0x00 => 0x9664 * 2 ^ 16 + Config.vendorId.toNat
  | 0x04 => 2 ^ 20 + flag h.memSpace * 2 + flag h.busMaster * 4
  | 0x08 => (if h.cxl then 0x050210 else 0x058000) * 256 + Config.revisionId.toNat
  | 0x10 => h.bar0.toNat % 2 ^ 32 + 4
  | 0x14 => h.bar0.toNat / 2 ^ 32
  | 0x18 => h.bar2.toNat % 2 ^ 32 + 12
  | 0x1C => h.bar2.toNat / 2 ^ 32
  | 0x20 => h.bar4.toNat % 2 ^ 32 + 4
  | 0x24 => h.bar4.toNat / 2 ^ 32
  | 0x2C => s.bd 0x110 2 * 2 ^ 16 + s.bd 0x10E 2
  | 0x48 => h.mrrs * 4096 + (if h.mps = 128 then 0 else if h.mps = 256 then 32 else 64)
  | 0x64 => 2 ^ 11 + 16 + 14
  | 0x68 => flag h.ctoDisable * 16 + h.ctoValue
  | 0x100 => 0x12010015
  | 0x104 => total ((List.range 19).map (fun i => 2 ^ (12 + i)))
  | 0x108 => (h.barBits - 20) * 256 + 32 + 2
  | 0x120 => 0x1401001E
  | 0x124 => 16 + flag (bit h.l1ss 1) * 5 + flag (bit h.l1ss 0) * 10
  | 0x200 => if h.cxl then 0x00010023 else 0
  | 0x204 => if h.cxl then 0x02401E98 else 0
  | 0x208 => if h.cxl then 0x00000008 else 0
  | 0x20C => if h.cxl then 0x00110100 else 0
  | 0x214 => if h.cxl then 0x00120300 else 0
  | _ => if 0x140 ≤ off ∧ off < 0x16C then h.aer.read (off - 0x140) else 0

/-- The MSI-X table and pending-bit array (Table 8.4), and the registers of configuration space that the model holds. -/
def State.readOther (s : State) (off : Nat) : Nat :=
  let h := s.host
  if 0x2008000 ≤ off then (if off < 0x2008100 then bitWord (8 * (off - 0x2008000)) (fun v => h.pba.contains v) else 0)
  else if 0x2000000 ≤ off then (if off % 16 = 12 then flag (!h.unmasked.contains ((off - 0x2000000) / 16)) else s.reg off)
  else if off = rDvsec + 0x0C then s.dvsecStatus
  else if off = rHpWdog ∨ off = rHpRefused ∨ off = rHpPoison ∨ off = rHpDowns then s.reg off
  else if cfgBase ≤ off then s.readConfig (off - cfgBase)
  else 0

/-- What the word at an aligned offset reads as. -/
def State.readReg (s : State) (off : Nat) : Nat :=
  if off % 4 ≠ 0 then 0 else if 0x1000000 ≤ off then s.readOther off else s.readBar0 off

end Sys2Proof.Machine
end

