-- ==== Sys2Proof/Tests/Slice0.lean ====
section
/-! SUPPORT. Tests of the model: the checks of WellFormed refuse a bad term, each statement's hypotheses hold somewhere
(at a boundary where a clause has a range), and single steps whose outcome a rule of spec/ gives. -/

namespace Sys2Proof.Tests
set_option Elab.async false
open Sys2Proof Sys2Proof.Machine

/-! ### Small states -/

/-- Reset, with the link up, both enables set, and the device SERVING. -/
def up : State :=
  { State.reset with
    dev := { Dev.reset with state := .serving }
    host := { HostPort.reset with up := true, memSpace := true, busMaster := true } }

/-- `up` in another device state. -/
def upIn (d : DevState) : State := { up with dev := { up.dev with state := d } }

/-- Reset, with die 0 as given. -/
def dieIs (x : Die) : State := { State.reset with dies := [(0, x)] }

def dieIdle : Die := { Die.init with st := .idle }
def prog0 : ArrayOp := { erase := false, planes := 1, block := 1039, page := 1023, tmode := 5 }
def erase0 : ArrayOp := { erase := true, planes := 15, block := 1039, page := 0, tmode := 0 }
def sense0 (k : SenseKind) : Sense := { kind := k, planes := 15, block := 1039, page := 1023, delta := 63 }
def dieOp (st : DieState) (o : ArrayOp) : Die := { Die.init with st := st, op := some o }
def dieSensed (k : SenseKind) : Die := { dieIdle with done := some { sense := sense0 k, cells := [], sets := [], stamp := 0 } }
def check9 : List Byte := [0x31, 0x32, 0x33, 0x34, 0x35, 0x36, 0x37, 0x38, 0x39]

/-! ### Witnesses: dies -/

theorem witness_die_answers : (dieIs dieIdle).die (dieKey 0 0) = dieIdle ∧ dieIdle.awake = true ∧ dieIdle.st ≠ .off := by decide +kernel

theorem witness_train_and_references :
    (dieIs dieIdle).die 0 = dieIdle ∧ dieIdle.awake = true ∧ dieIdle.st ≠ .sense ∧ (List.replicate 64 (7 : Byte)).length = 64 ∧
    (2 : BitVec 2) ≠ 3 ∧ (15 : BitVec 4) ≠ 0 ∧
    (let ws := (List.range 15).map (fun i => BitVec.ofNat 12 (1009 + i))
     ws.length = 15 ∧ (∀ w ∈ ws, w.toNat < 1024) ∧ ws.Pairwise (fun a b => a.toNat < b.toNat)) ∧
    (let ws := List.replicate 15 (1023 : BitVec 12)
     ws.length = 15 ∧ (∀ w ∈ ws, w.toNat < 1024) ∧ ¬ ws.Pairwise (fun a b => a.toNat < b.toNat)) := by decide +kernel

theorem witness_sense_frames :
    (15 : BitVec 4) ≠ 0 ∧ (1039 : BitVec 12).toNat ≤ 1039 ∧ (1023 : BitVec 12).toNat ≤ 1023 ∧ 1 ≤ (63 : BitVec 12).toNat ∧
    (63 : BitVec 12).toNat ≤ 63 ∧
    (∀ x ∈ [dieIdle, dieOp .susp prog0], (dieIs x).die 0 = x ∧ (x.st = .idle ∨ x.st = .susp)) ∧
    (∀ x ∈ [dieOp .suspending prog0], (dieIs x).die 0 = x ∧ x.st = .suspending ∧ x.qSense = none) ∧
    (∀ x ∈ [dieOp .prog prog0, dieOp .erase erase0, { dieOp .suspending prog0 with qSense := some (sense0 .page) }],
      (dieIs x).die 0 = x ∧ (x.st = .prog ∨ x.st = .erase ∨ x.st = .sense ∨ (x.st = .suspending ∧ x.qSense ≠ none))) := by decide +kernel

theorem witness_xfer (k : SenseKind) : (dieIs (dieSensed k)).die 0 = dieSensed k ∧ (dieSensed k).st = .idle ∧
    (dieSensed k).done = some { sense := sense0 k, cells := [], sets := [], stamp := 0 } ∧ (sense0 k).kind = k ∧
    (15 : BitVec 4) ≠ 0 ∧ (15 : BitVec 4) &&& ~~~(sense0 k).planes = 0 ∧ (255 : BitVec 12).toNat ≤ 255 := by
  cases k <;> decide +kernel

/-- An IDLE die that LOADs page 1,023 of block 1,039, with the slots of a map. -/
def dieLoaded (m : BitVec 32) : Die := { dieIdle with loadAt := some (1039, 1023), loadMap := m }

theorem witness_load_start_erase :
    (dieLoaded 0xFF).st = .idle ∧ (1039 : BitVec 12).toNat ≤ 1039 ∧ (1023 : BitVec 12).toNat ≤ 1023 ∧ (5 : BitVec 12).toNat ≤ 5 ∧
    (1 : BitVec 4) ≠ 0 ∧ (dieLoaded 0xFF).loadAt = some ((1039 : BitVec 12).toNat, (1023 : BitVec 12).toNat) ∧
    crc32c check9 = (0xE3069283 : Word).toNat ∧ crc32c check9 ≠ (0 : Word).toNat ∧
    slotMask 1 &&& ~~~(dieLoaded 0xFF).loadMap = 0 ∧ slotMask 1 &&& ~~~(dieLoaded 0x7F).loadMap ≠ 0 := by decide +kernel

theorem witness_suspend_resume :
    (∀ x ∈ [{ dieOp .prog prog0 with suspCount := 15 }, dieOp .erase erase0], x.op ≠ none ∧ ((x.st = .prog ∧ x.suspCount < 16) ∨ x.st = .erase)) ∧
    (let x := { dieOp .prog prog0 with suspCount := 16 }; x.op = some prog0 ∧ x.st = .prog ∧ x.suspCount = 16) ∧
    (dieOp .susp erase0).st = .susp ∧ (dieOp .sense prog0).st = .sense ∧
    (let x := dieOp .suspending prog0
     x.op = some prog0 ∧ x.st = .suspending ∧ x.qSense = none ∧ x.qResume = false ∧ prog0.erase = false) := by decide +kernel

theorem witness_sense_end :
    (∀ x ∈ [{ dieIdle with st := .sense, sense := some (sense0 .soft) }, { dieOp .sense prog0 with sense := some (sense0 .page) },
      { dieOp .sense erase0 with sense := some (sense0 .hist), qResume := true }],
      (dieIs x).die 0 = x ∧ x.st = .sense ∧ x.sense.isSome = true) := by decide +kernel

theorem witness_program_and_erase_end :
    (dieOp .prog prog0).op = some prog0 ∧ prog0.erase = false ∧ (dieOp .prog prog0).st = .prog ∧ prog0.block ≤ 1039 ∧ prog0.page ≤ 1023 ∧
    prog0.planes.getLsbD 0 = true ∧ Tab.find (dieIs (dieOp .prog prog0)).media (mla 0 0 0 1039 1023 7) = none ∧
    (dieOp .erase erase0).op = some erase0 ∧ erase0.erase = true ∧ (dieOp .erase erase0).st = .erase := by decide +kernel

theorem witness_reset_of_a_die :
    (dieOp .prog prog0).st ≠ .off ∧ (dieOp .susp erase0).st ≠ .off ∧ dieIdle.op = none ∧ { Die.init with st := .rst }.st = .rst ∧
    Die.init.st = .off := by decide +kernel

theorem witness_frames :
    (0b000000 : BitVec 6).getLsbD 1 = false ∧ (0b000010 : BitVec 6).getLsbD 1 = true ∧ (List.replicate 15 (0x3FF : BitVec 12)).length = 15 ∧
    (List.replicate 14 (0x3FF : BitVec 12)).length < 15 ∧
    (0x05 : BitVec 6) ∉ ([0x00, 0x01, 0x02, 0x03, 0x04, 0x08, 0x10, 0x11, 0x12, 0x20, 0x21, 0x28, 0x29, 0x3F] : List (BitVec 6)) := by decide +kernel

/-- Frames written out from Tables 2.7 and 2.8: a SENSE of planes 3 and 1 for READ_SOFT, block 1,039, page 1,023, DELTA 63; a START of plane
2 in TMODE 5; a LOAD into plane 3, slot 7; a STATUS scan with CLEAR and SEL 3; an XFER of codewords 0 and 7. -/
theorem test_frames :
    frameCommand 1 2 [0b010001_1010_00, 0b0_10000001111, 0b00_1111111111, 0b000000_111111] [] 0 0 =
      some (.amc2ReadSoftSense 1 2 0b101000 1039 1023 63) ∧
    frameCommand 1 2 [0b100000_0100_01, 0b0_10000001111, 0b00_1111111111, 0b101] [] 0 0 = some (.amc2ProgramStart 1 2 0b010001 1039 1023 5) ∧
    frameCommand 1 2 [0b100000_11_0000, 0, 0, 7] [] 0xAB 0 = some (.amc2ProgramLoad 1 2 0b110000 0 0 7 [] 0xAB) ∧
    frameCommand 1 2 [0b000010_00_11_1_1] [] 0 0 = some (.amc2StatusScan 1 0b001111) ∧
    frameCommand 1 2 [0b010000_1111_01, 0b10000001] [] 0 0 = some (.amc2ReadPageXfer 1 2 0b111101 0x81) := by decide +kernel

/-! ### Witnesses: arbitration and sequencer -/

def readAt (a : MediaAddr) (p : ReadPhase) : MediaRead :=
  { addr := a, phase := p, hist := false, histTaken := none, noAge := false, repeats := 0, waited := false, ctx := 0, leaf := 0
    rest := [], members := [], lost := 0 }

/-- A skiver's read of codeword 0 of the device in a phase of its own. -/
def tackRead (p : ReadPhase) : Tack := { Tack.engine .skvRead engSkiver 0 true with rd := some (readAt 0 p) }

def chanIs (st : ChState) (f : Channel → Channel) : Tab Channel := [(0, f { Channel.init with st := st })]

/-- Die 0 IDLE, online and with its age, on a READY channel, with one read in a phase at tack 16,384. -/
def reading (p : ReadPhase) : State :=
  { up with chans := chanIs .ready id, dies := [(0, dieIdle)], ctl := [(0, { DieCtl.init with present := true, online := true })]
            drift := { Drift.reset with dies := [(0, { DieAge.init with restored := true })] }
            tacks := [(16384, tackRead p)] }

theorem witness_draw : ((reading .ready).chan 0).st = .ready ∧ ((reading .ready).arbOf 0).slot ≠ .data ∧
    (reading .ready).presentOn 0 = [5] ∧ (reading .ready).oldestReady 0 5 = some 16384 ∧
    0 < (reading .ready).effective 0 5 (decide (0 = 5)) ((reading .ready).arbOf 0).drfOvr := by decide +kernel

theorem witness_draw_winner :
    (∀ e ∈ [(0, 0), (1, 40), (9, 1)], Tab.get (Tab.put [] 1 63 : Tab Nat) e.1 0 < 64) ∧ ([(0, 0), (1, 40), (9, 1)].map (fun e => e.1)).Nodup ∧
    0 < total ([(0, 0), (1, 40), (9, 1)].map (fun e => e.2)) := by decide +kernel

theorem witness_bar_open : up.barOpen = true := by decide +kernel

theorem witness_custom : ∀ c < 10, up.tickets 95 c < 256 := by decide +kernel

theorem witness_sense_issue :
    ((reading .queued).ctlOf 0).online = true ∧ ((reading .queued).chan 0).st = .ready ∧ ((reading .queued).age 0).restored = true ∧
    ((reading .queued).die 0).st = .idle ∧ ((reading .queued).nextRead 0 (fun _ => true)).isSome = true ∧
    (reading .queued).readsOn 0 (fun p => p == .sensing || p == .ready) = [] ∧ (up.ctlOf 767).online = false := by decide +kernel

def prog1 : Program :=
  { die := 0, page := 1023, cws := [], offers := [], groups := [(1039, [0])], loaded := 0x7F, started := false, rejected := false, encoded := true
    stamp := some (7, 9), what := .parity 0 1023 false }

theorem witness_load_complete :
    (let s := { reading .queued with
                  tacks := [(16384, { Tack.engine .parityProgram engBurnish 0 true with pg := some prog1 })]
                  arbs := [(0, { Arb.init 0 with slot := .data, grant := some 16384 })] }
     (s.arbOf 0).grant = some 16384 ∧ (Tab.find s.tacks 16384).map (fun t => t.pg) = some (some prog1) ∧ (s.chan 0).st = .ready) ∧
    prog1.toLoad = 7 :: [] ∧ prog1.groups = (1039, [0]) :: [] ∧ prog1.stamp = some (7, 9) ∧ prog1.rejected = false := by decide +kernel

theorem witness_transfer_then_decode :
    (let s := { reading .ready with arbs := [(0, { Arb.init 0 with slot := .data, grant := some 16384 })] }
     (s.arbOf 0).grant = some 16384 ∧ Tab.find s.tacks 16384 = some (tackRead .ready) ∧ (s.chan 0).st = .ready) ∧
    (∀ p ∈ [ReadPhase.ready, .decoding], (tackRead p).rd = some (readAt 0 p) ∧ (tackRead p).draining = false ∧ (readAt 0 p).hist = false ∧
      (tackRead p).retry < 5 ∧ (readAt 0 p).repeats < 3 ∧ (tackRead p).retry < 3) ∧
    Tab.find (reading .decoding).tacks (16384 : BitVec 16).toNat = some (tackRead .decoding) ∧ (readAt 0 .decoding).phase = .decoding := by
  decide +kernel

/-! A row of one member: its parity P holds the member's own bytes, and gives them back. -/

theorem le_length (n v : Nat) : (le n v).length = n := by
  induction n generalizing v with
  | zero => rfl
  | succ k ih => simp [le, ih]

def trailer0 : Trailer := { leaf := 0, ctx := 0, kind := .hostData, gen := 0, progAge := 0, addr := 0, seq := 0 }
def cell0 : Cell := .written [] none trailer0
def data0 : List Byte := storedData [] none 0
/-- The bytes of `trailer0` before DATA_CRC. -/
def head0 : List Byte := zeros 10 ++ [1, 1] ++ zeros 48

theorem data0_length : data0.length = 4096 := by simp [data0, storedData]

theorem trailer0_bytes (crc : Nat) : trailer0.bytes crc = head0 ++ le 4 crc := rfl

theorem cell0_protected : Cell.protected (some cell0) = data0 ++ (head0 ++ le 4 (crc32c data0)) := by
  have h : (data0 ++ (head0 ++ le 4 (crc32c data0))).length = 4160 := by
    rw [List.length_append, List.length_append, data0_length, le_length]; rfl
  show (encodeCw (data0 ++ (head0 ++ le 4 (crc32c data0))) ++ zeros 4160).take 4160 = _
  rw [encodeCw, List.append_assoc, List.take_append_of_le_length (by omega), List.take_of_length_le (by omega)]

theorem own_byte (j : Nat) (h : ownByte j = true) :
    (zeros 4106 ++ [1, 1] ++ zeros 12 ++ le 5 0 ++ zeros 35).getD j 0 = (Cell.protected (some cell0)).getD j 0 := by
  have hj : j = 4106 ∨ j = 4107 ∨ j = 4120 ∨ j = 4121 ∨ j = 4122 ∨ j = 4123 ∨ j = 4124 := by
    simp [ownByte] at h; omega
  have e : (Cell.protected (some cell0)).getD j 0 = (head0 ++ le 4 (crc32c data0)).getD (j - 4096) 0 := by
    rw [cell0_protected, List.getD_append_right _ _ _ _ (by rw [data0_length]; omega), data0_length]
  have l : head0.length = 60 := rfl
  rw [e, List.getD_append head0 _ _ _ (by rw [l]; omega)]
  rcases hj with rfl | rfl | rfl | rfl | rfl | rfl | rfl <;> decide +kernel

theorem cell0_rebuilt : rebuild 0 [] [(0, 0)] (some (Cell.protected (some cell0))) none = Cell.protected (some cell0) := by
  have h : (Cell.protected (some cell0)).length = 4160 := by
    rw [cell0_protected, List.length_append, List.length_append, data0_length, le_length]; rfl
  apply List.ext_getElem
  · rw [h]; simp [rebuild]
  · intro j hj hj'
    have g : (Cell.protected (some cell0)).getD j 0 = (Cell.protected (some cell0))[j] := by
      rw [List.getD_eq_getElem?_getD, List.getElem?_eq_getElem hj']; rfl
    rw [← g]
    simp only [rebuild, List.getElem_map, List.getElem_range, List.map_cons, List.map_nil, List.nil_append, combine, List.foldl_cons,
      List.foldl_nil, Nat.zero_xor, Nat.xor_zero, Bool.false_eq_true, if_false]
    split
    · rename_i ho
      rw [own_byte j ho]; simp
    · simp

def parity0 : Cell := .raw (Cell.protected (some cell0))
theorem parity0_protected : Cell.protected (some parity0) = Cell.protected (some cell0) := by
  have h : (Cell.protected (some cell0)).length = 4160 := by
    rw [cell0_protected, List.length_append, List.length_append, data0_length, le_length]; rfl
  show (((Cell.protected (some cell0)) ++ zeros 4608).take 4608 ++ zeros 4160).take 4160 = _
  have hz : (zeros 4608).length = 4608 := List.length_replicate
  rw [List.take_append_of_le_length (by rw [List.length_take, List.length_append, h, hz]; omega), List.take_take,
    List.take_append_of_le_length (by rw [h]; omega), List.take_of_length_le (by rw [h]; omega)]

/-- A CLOSED stitch whose member 0 holds block 0 of die 0, both its parity rows of row 0 programmed. -/
def stitch0 : Stitch :=
  { Stitch.init with st := .closed, positions := [(0, 0), (16, 2048), (17, 4096)], lastPage := [(0, 1023)], rows := [(0, 3)] }

def wornRead : State :=
  { reading .stitch with blocks := { Blocks.reset with stitches := [(0, stitch0)] }, media := [(0, cell0), (mla 0 1 0 0 0 0, parity0)] }

/-- With Q lost, P rebuilds the member. -/
theorem wornRead_rebuilt : wornRead.rebuiltCell stitch0 0 0 0x20000 = some cell0 := by
  have hm : wornRead.rowMembers stitch0 0 (0x20000 ||| BitVec.ofNat 18 (2 ^ 0)) = [] := by decide +kernel
  have ha : ((List.range 16).filterMap (fun i => if (0x20000 ||| BitVec.ofNat 18 (2 ^ 0)).getLsbD i && (i == 0 || decide (pageOf 0 < stitch0.next i)) then
      (wornRead.inPosition stitch0 i 0).map (fun b => (i, b)) else none)) = [(0, 0)] := by decide +kernel
  have hi : wornRead.inPosition stitch0 16 0 = some 67108864 := by decide +kernel
  have hw : wornRead.cell 67108864 = some parity0 := by
    have h' : mla 0 1 0 0 0 0 = 67108864 := by decide +kernel
    simp [State.cell, wornRead, reading, up, State.reset, Tab.find, h']
  have hq : (!((0x20000 ||| BitVec.ofNat 18 (2 ^ 0)).getLsbD 16) && (Tab.get stitch0.rows (pageOf 0) 0).getLsbD 0) = true := by decide +kernel
  have hr : (!((0x20000 ||| BitVec.ofNat 18 (2 ^ 0)).getLsbD 17) && (Tab.get stitch0.rows (pageOf 0) 0).getLsbD 1) = false := by decide +kernel
  have hc : wornRead.cell (0 : MediaAddr).toNat = some cell0 := rfl
  have hg : (0x20000 : BitVec 18) ||| stitch0.goneAt (pageOf 0) = 0x20000 := by decide +kernel
  unfold State.rebuiltCell
  simp only [hg, hm, ha, hi, Option.map_some, hw, hq, hr, hc, if_true, if_false, Bool.false_eq_true, parity0_protected, cell0_rebuilt]

theorem witness_stitch_rebuild :
    Tab.find wornRead.tacks (16384 : BitVec 16).toNat = some (tackRead .stitch) ∧ (tackRead .stitch).rd = some (readAt 0 .stitch) ∧
    (readAt 0 .stitch).phase = .stitch ∧ (tackRead .stitch).draining = false ∧ (readAt 0 .stitch).members = [] ∧
    wornRead.memberOf (wornRead.dbOf (readAt 0 .stitch).addr) = some (0, 0) ∧ Tab.find wornRead.blocks.stitches 0 = some stitch0 ∧
    wornRead.tacks.any (fun e => e.2.op == .parityRead && e.2.parent == some 16384) = false ∧
    stitch0.missing 0 (pageOf (readAt 0 .stitch).addr) 0x20000 = 2 ∧ stitch0.missing 0 (pageOf (readAt 0 .stitch).addr) 0x30000 = 3 ∧
    wornRead.trailerOk (tackRead .stitch) { readAt 0 .stitch with lost := 0x20000 } (wornRead.rebuiltCell stitch0 0 0 0x20000) = true := by
  rw [wornRead_rebuilt]
  decide +kernel

theorem witness_alerts :
    (up.chan 95).alertStuck = false ∧ (up.chan 95).hk.all (fun e => e.1 != .alertScan) = true ∧
    (let s := { reading .queued with chans := chanIs .ready (fun c => { c with alertLow := true }) }
     (s.chan 0).alertLow = true ∧ (s.chan 0).alertStuck = false ∧ s.anyAlert 0 = false) ∧
    (let s := { reading .queued with chans := chanIs .ready (fun c => { c with alertStuck := true }) }
     (s.chan 0).alertStuck = true) := by decide +kernel

theorem witness_retraining_ends :
    (let s := { up with chans := chanIs .retraining id }; (s.chan 0).st = .retraining ∧ (s.chan 0).retrainTry = 0) := by decide +kernel

/-- Table 2.16, step 12: the start reads the dies' temperatures before READY (45 °C is 720 sixteenths). -/
theorem test_channel_start_ends :
    (match execRetrainDone 0 true 0 0 0 (List.replicate 8 720) { reading .queued with chans := chanIs .training id } with
     | .next t => decide ((t.chan 0).st = .ready ∧ (t.ctlOf 0).temp = 720 ∧ (t.ctlOf 0).tempAtTraining = some 720)
     | _ => false) = true := by decide +kernel

theorem witness_retrain_commands :
    (reading .queued).barOpen = true ∧ ((reading .queued).chan 0).st = .ready ∧ (4 : Word).getLsbD 2 = true ∧
    ((reading .queued).arbOf 0).grant = none ∧
    (let s := { reading .ready with arbs := [(0, { Arb.init 0 with slot := .data, grant := some 16384 })] }
     s.barOpen = true ∧ (s.chan 0).st = .ready ∧ (s.arbOf 0).grant ≠ none) ∧ (0x100 : Word).getLsbD 8 = true := by decide +kernel

theorem witness_die_timeout :
    (let s := { up with dies := [(0, dieOp .prog prog0)] }
     (s.die 0).st = .prog ∧ (s.ctlOf 0).running = none ∧ s.tacks = [] ∧ s.boot.step = .none ∧ s.cache.requests = [] ∧ s.cmdq.cmds = [] ∧
     s.cache.enabled = true ∧ s.cache.lines = []) := by decide +kernel

theorem witness_housekeeping :
    (let s := { up with chans := chanIs .ready (fun c => { c with hk := [(HkItem.getTemp 7, 0)] }) }
     (s.chan 0).st = .ready ∧ s.hkItems 0 = [(HkItem.getTemp 7, 0)]) := by decide +kernel

/-! ### Witnesses: events, store, interrupts, observation, thermal -/

def event1 : Event := { code := 0x0303, path := 5, params := [], tack := 0xFFFF }
def record1 : EvRec := { EvRec.empty with code := 0x0303, path := 5, repeats := 0xFFFF, valid := 0x4554 }

/-- A log of `n` records, the last as given, with one event waiting at port 15. -/
def logged (n : Nat) (r : EvRec) : State :=
  { up with store := { Store.reset with evlog := [(n - 1, r)], evCount := n, ports := [(15, [event1])] } }

theorem witness_event_grant :
    (logged 2047 EvRec.empty).store.nextEvent = some (15, event1, []) ∧
    (logged 2047 EvRec.empty).store.matchesLast event1 = false ∧ (logged 2047 EvRec.empty).store.evCount < 2048 ∧
    (logged 2048 record1).store.matchesLast event1 = true ∧ (logged 2048 EvRec.empty).store.matchesLast event1 = false ∧
    (logged 2048 EvRec.empty).store.evCount = 2048 := by decide +kernel

theorem witness_seconds_and_saves : up.dev.state ≠ .standby ∧ State.reset.dev.state = .standby ∧
    { Store.reset with evOverflow := 1, evOverflowDirty := true }.evOverflowDirty = true := by decide +kernel

theorem witness_evt_window :
    (0xD4000 ≤ (0xD7FFC : BitVec 24).toNat ∧ (0xD7FFC : BitVec 24).toNat ≤ 0xD7FFF ∧ (0xD7FFC : BitVec 24).toNat % 4 = 0) ∧
    (logged 512 record1).barOpen = true ∧ ((logged 512 record1).evtWord 0xD7FFC).2 = false ∧
    (logged 512 { record1 with bad := 8 }).evtWord 0xD7FFC = (0xFFFFFFFF, true) := by decide +kernel

def route1 : Route := { Route.init with prio := 15, edge := true }
def target1 (p : Nat) : Target := { Target.init with enable := true, runPrio := p, stack := [0] }

/-- One route of source 508 to target 0. -/
def routed (r : Route) (p : Nat) : State :=
  { up with intc := { host := [(508, r)], core := [], targets := [(0, target1 p)], coreTargets := [] } }

theorem witness_interrupts :
    (routed route1 1).bestRoute 0 1 = some (508, route1) ∧ Tab.find (routed route1 1).intc.host 508 = some route1 ∧
    Tab.get (routed route1 1).intc.targets 0 Target.init = target1 1 ∧ (target1 1).runPrio = 1 ∧
    (routed route1 15).bestRoute 0 15 = none ∧ (target1 15).notified = false ∧
    bits (508 : Word).toNat 0 9 = 508 ∧ (target1 15).stack = 0 :: [] ∧
    (let r := { route1 with active := true }; Tab.find (routed r 15).intc.host 508 = some r ∧ r.active = true ∧ r.activeAt = 0) ∧
    route1.prio ≠ 0 := by decide +kernel

theorem witness_counters :
    (let c : ObsCnt := { ObsCnt.init with cfg := 2 ^ 31, count := 2 ^ 48 - 1 }
     let s := { up with obs := { Obs.reset with counters := [(15, c)] } }
     Tab.get s.obs.counters 15 ObsCnt.init = c ∧ c.count < 2 ^ 48 ∧ s.barOpen = true ∧ bit c.cfg 31 = true ∧
     bit (s.reg rObsCtrl) 0 = false ∧ c.count + 0 < 2 ^ 48 ∧ 2 ^ 48 ≤ c.count + 1) := by decide +kernel

def retired1 : Retired := { header := 0, hostAddr := 0, ctx := 0, media := 0, losses := 0, senses := 0 }
def waiting1 (head : Nat) : State := { up with obs := { Obs.reset with waiting := [retired1], head := head } }

theorem witness_sample_ring :
    (waiting1 4194302).obs.waiting = retired1 :: [] ∧ (waiting1 4194302).smpFill ≠ 4194303 ∧ (waiting1 4194303).smpFill = 4194303 ∧
    bit ((waiting1 4194303).reg rSmpCfg) 29 = false ∧ (waiting1 1).barOpen = true ∧
    (bits (1 : Word).toNat 0 22 + 4194304 - (waiting1 1).obs.tail) % 4194304 ≤ (waiting1 1).smpFill ∧
    (waiting1 1).smpFill < (bits (2 : Word).toNat 0 22 + 4194304 - (waiting1 1).obs.tail) % 4194304 ∧
    (0x40000000 : Word).getLsbD 30 = true := by decide +kernel

def tracing (due : Bool) (lost : Nat) : State :=
  { up with regs := [(rTrcCfg, 0x8F000000)], obs := { Obs.reset with trace := [(1, [])], traceTimeDue := due, traceLost := lost } }

theorem witness_trace : (∀ due, ∀ lost < 2, bit ((tracing due lost).reg rTrcCfg) 31 = true ∧
    (tracing due lost).obs.trace = (1, []) :: [] ∧ (tracing due lost).obs.traceTimeDue = due ∧ (tracing due lost).obs.traceLost = lost) := by
  decide +kernel

theorem witness_thermal : up.dev.state ≠ .standby ∧ up.limits = (1520, 1680, 1840) ∧ up.diodeNow = true ∧ (1839 : Int) < 1840 ∧
    (1520 : Int) ≤ 1520 ∧ (1519 : Int) < 1520 := by decide +kernel

theorem witness_clocks :
    Tab.get up.therm.dramBand 1 0 ≠ 5 ∧
    (let s := { up with chans := chanIs .ready id, ctl := (List.range 8).map (fun i => (i, { DieCtl.init with present := true, online := true })) }
     s.chans = [((0 : Chan).val, { Channel.init with st := .ready })] ∧ (s.ctlOf (dieKey 0 7)).online = true ∧
     ∀ d : Fin 8, (s.ctlOf (dieKey 0 d)).present = true) ∧
    State.reset.mounted = false ∧ State.reset.chans = [] := by decide +kernel

/-! ### Witnesses: memory window, CXL.mem, line cache -/

def host0 : HostPort := up.host
def upCxl (d : DevState) : State := { upIn d with host := { host0 with cxl := true } }

theorem witness_window_takes :
    (∀ d ∈ [DevState.serving, .maintenance, .cinch], (upCxl d).host.up = true ∧ (upCxl d).host.d3hot = false ∧ (upCxl d).dev.state = d ∧
      (upCxl d).host.memSpace = true ∧ (upCxl d).host.cxl = true) ∧
    (BitVec.ofNat 46 (2 ^ 46 - 64)).toNat + (List.replicate 64 (0 : Byte)).length ≤ 2 ^ up.host.barBits ∧
    (BitVec.ofNat 46 (2 ^ 46 - 1)).toNat ≤ 2 ^ up.host.barBits ∧
    (upCxl .cinch).dpaOf 0 = none ∧ (upCxl .cinch).tacks = [] := by decide +kernel

/-- A committed HDM decoder of 64 GiB, and the device address of a host address that it takes. -/
def decoding : State :=
  { upCxl .serving with host := { host0 with cxl := true, decoders := [(0, { hpa := 2 ^ 40, base := 64, size := 2 ^ 36, ways := 1, gran := 256 })] } }

theorem witness_host_addresses :
    decoding.host.cxl = true ∧ decoding.dpaOf (2 ^ 40 + 2 ^ 36 - 64 : BitVec 64).toNat = some (BitVec.ofNat 46 (2 ^ 36)).toNat ∧
    decoding.host.up = true ∧ decoding.host.d3hot = false ∧ decoding.cache.enabled = true ∧ decoding.dev.state = .serving := by decide +kernel

theorem witness_window_refuses :
    (∀ d ∈ [DevState.held, .mounting, .powering, .fault], (upIn d).host.up = true ∧ (upIn d).host.d3hot = false ∧
      (upIn d).host.memSpace = true ∧ (upIn d).dev.state = d ∧ (upIn d).tacks = []) ∧
    (BitVec.ofNat 46 (2 ^ 46 - 64)).toNat + 64 ≤ 2 ^ up.host.barBits := by decide +kernel

def req1 : HostReq :=
  { write := false, addr := 64, len := 128, tag := 9, data := [], poison := false, cxl := false, ev := AccessEv.none }
def tackHost (op : TackOp) : Tack := { Tack.of op (.ctx 5) 0 0 with req := some req1 }
def line0 : Line := { Line.empty 0 5 false with valid := 6 }
def leafIn (st : LeafSt) : LeafEntry := { st := st, gen := 0, hole := false, addr := 0 }

/-- Granule 0 bound to context 5, its segment in slot 0 with leaf 0 in a state, the lines as given, one read at tack 0. -/
def window (st : LeafSt) (ls : Tab Line) : State :=
  { up with
      tacks := [(0, tackHost .hostRead)]
      cache := { Cache.reset with enabled := false, lines := ls }
      ctxs := [(5, { Ctx.init with valid := true })]
      xlat := { Xlat.reset with
                  dirUp := true
                  dir := [(0, { ctx := 5, st := .resident, pinned := false, dirty := false, loc := 0 })]
                  slots := [(0, { index := 0, st := .clean, firstDirty := none, imageRseq := 0, primary := 0, mirror := 0
                                  leaves := [(0, leafIn st)] })] } }

theorem witness_read_piece :
    (∀ st ∈ [LeafSt.mapped, .unmapped, .poisoned], ∀ ls ∈ [[(0, line0)], []],
      Tab.find (window st ls).tacks 0 = some (tackHost .hostRead) ∧ (tackHost .hostRead).req = some req1 ∧ ((window st ls).entry 0).bound = true ∧
      (window st ls).lineHeld 0 = false ∧
      ((window st ls).updTack 0 (fun x => x.direct 5 ((window st ls).ctx 5))).mustWait (tackHost .hostRead) = false ∧
      (window st ls).cache.commits = [] ∧ 0 < req1.len ∧ ((window st ls).ctx 5).key = .none ∧ req1.ev = AccessEv.none ∧
      (window st ls).cache.enabled = false) ∧
    (window .mapped [(0, line0)]).lineAt 0 = some (0, line0) ∧ line0.poisoned = false ∧ line0.bad = 0 ∧
    touched (req1.addr.toNat % 4096) req1.len &&& ~~~line0.valid = 0 ∧
    (∀ st, (window st []).lineAt 0 = none ∧ (window st []).leafEntry 0 = some (leafIn st)) ∧
    (leafIn .unmapped).st = .unmapped ∧ (leafIn .poisoned).st = .poisoned := by
  refine ⟨by decide +kernel, by decide +kernel, by decide +kernel, rfl, by decide +kernel, ?_, rfl, rfl⟩
  intro st; cases st <;> decide +kernel

theorem witness_bad_requests : up.host.up = true ∧ up.barOpen = true ∧
    (∀ e ∈ [AerError.malformed, .unsupported], e ≠ .corrected ∧ up.host.aer.uncMask.getLsbD e.bit = false ∧ up.host.aer.first = none) ∧
    up.host.aer.uncSeverity.getLsbD AerError.malformed.bit = true ∧ (BitVec.allOnes 32).getLsbD AerError.unsupported.bit = true := by decide +kernel

theorem witness_watchdog_and_late :
    (let s := { up with tacks := [(65535, tackHost .hostRead)] }
     s.tacks = [((65535 : BitVec 16).toNat, tackHost .hostRead)] ∧ (tackHost .hostRead).req = some req1 ∧
     (tackHost .hostRead).op = .hostRead ∧ (tackHost .hostRead).draining = false ∧ s.cache.pause = false ∧ (tackHost .hostRead).rd = none ∧
     (∀ e ∈ s.arbs, e.2.grant ≠ some 65535 ∧ e.2.next ≠ some 65535) ∧ s.cache.requests = [] ∧ s.cmdq.cmds = [] ∧
     s.cache.enabled = true ∧ s.cache.lines = []) ∧
    (let t := { tackHost .hostRead with deadline := 4000, cls := 1 }
     let s := { up with tacks := [(0, t)] }
     Tab.find s.tacks (0 : BitVec 16).toNat = some t ∧ t.flag fLate = false ∧ t.deadline ≠ 0xFFFF ∧ t.op = .hostRead ∧
     t.origin = .ctx 5 ∧ t.cls = 1) := by decide +kernel

theorem witness_flush_decoders_hints :
    (∀ d ∈ [DevState.held, .serving], (upCxl d).host.cxl = true ∧ (upCxl d).dev.state = d ∧ (upCxl d).cache.dirtyList = [] ∧
      (upCxl d).cache.enabled = true) ∧
    (let c := { Cache.reset with gpf := true }; c.gpf = true ∧ c.gpfLate = false) ∧
    (BitVec.ofNat 64 (2 ^ 46 - 2 ^ 28)).toNat + (BitVec.ofNat 64 (2 ^ 28)).toNat ≤ 2 ^ 46 ∧ 8 ∈ [1, 2, 4, 8] ∧
    16384 ∈ [256, 512, 1024, 2048, 4096, 8192, 16384] ∧ 2 ^ 46 < (BitVec.ofNat 64 (2 ^ 46)).toNat + (1 : BitVec 64).toNat ∧
    ((upCxl .serving).birth { Tack.engine .prefetch engRange 7 false with wait := .leaf } none).2 = some 16384 := by decide +kernel

def dirty0 : Line := { line0 with dirty := 2, named := true }

theorem witness_writeback_and_rebuild :
    (let s := { window .mapped [(0, dirty0)] with cache := { Cache.reset with lines := [(0, dirty0)], dirtyList := [0] }, tacks := [] }
     s.mapUp = true ∧ s.nextWriteback = some 0 ∧ s.cache.dirtyList ≠ [] ∧ s.dev.state ≠ .standby) ∧
    Tab.find (window .mapped []).cache.lines ((262143 : BitVec 18).toNat * 16 + (15 : Fin 16).val) = none ∧
    Tab.find (window .mapped [(0, line0)]).cache.lines ((0 : BitVec 18).toNat * 16 + (0 : Fin 16).val) = some line0 ∧
    setOf (BitVec.ofNat 34 (2 ^ 18 * 2 ^ 16)).toNat = (0 : BitVec 18).toNat ∧
    (window .mapped [(0, line0)]).cache.dirtyList.contains 0 = false ∧ line0.firstCopy [.lost, .lost, .lost, .lost] = none ∧ line0.leaf < 2 ^ 34 ∧
    (let m : MetaCopy := { leaf := BitVec.ofNat 34 (2 ^ 18 * 2 ^ 16), ctx := 9, locked := true, wt := false }
     line0.firstCopy [.lost, .other m] = some m) := by decide +kernel

/-- MAINTENANCE, granule 0 bound, and the range registers at the last leaf before granule 1. -/
def ranged (n : Nat) (r : Option RangeOp) : State :=
  { window .mapped [] with
      dev := (upIn .maintenance).dev
      tacks := []
      cache := { Cache.reset with rng := r }
      regs := [(rRngAddr, BitVec.ofNat 32 (4095 * 4096)), (rRngCount, BitVec.ofNat 32 n)] }

def rangeOp1 : RangeOp := RangeOp.start 4 5 0 1 true none

theorem witness_range_starts :
    (ranged 1 none).barOpen = true ∧ (Instr.rangeGoDiscard 0x80050002, 2) ∈ [(Instr.rangeGoDiscard 0x80050002, 2)] ∧
    ((ranged 1 none).reg (rRngAddr + 4) % 2 ^ 14 * 2 ^ 32 + (ranged 1 none).reg rRngAddr) / 4096 = 4095 ∧
    (ranged 1 none).reg (rRngCount + 4) % 8 * 2 ^ 32 + (ranged 1 none).reg rRngCount = 1 ∧ bits (0x80050002 : Word).toNat 16 12 = 5 ∧
    (ranged 1 none).cmdq.cmds = [] ∧ (ranged 1 (some rangeOp1)).cache.rng.isSome = true ∧
    (ranged 1 none).cache.rng = none ∧ (ranged 1 none).cache.disableWaits = false ∧ (ranged 1 none).cache.draining = false ∧
    (ranged 1 none).cache.rngQueue = [] ∧ (ranged 1 none).dev.state = .maintenance ∧ (ranged 1 none).mapUp = true ∧
    (ranged 1 none).cache.enabled = true ∧ 4095 + 1 ≤ 2 ^ 34 ∧ (ranged 1 none).bindsRun 5 4095 1 = true ∧
    (ranged 0 none).reg (rRngCount + 4) % 8 * 2 ^ 32 + (ranged 0 none).reg rRngCount = 0 := by decide +kernel

theorem witness_range_leaf_and_drain :
    (let s := ranged 1 (some rangeOp1)
     s.cache.rng = some rangeOp1 ∧ s.mapUp = true ∧ s.dev.state ≠ .cinch ∧ rangeOp1.next ≤ rangeOp1.last ∧
     s.tacks.any (fun e => s.rangeUntaken e.2) = false) ∧
    (∀ r ∈ ([{ rangeOp1 with op := 1 }, { rangeOp1 with op := 2 }, { rangeOp1 with op := 3 }] : List RangeOp),
     let s := { up with cache := { Cache.reset with lines := [(setOf r.next * 16 + 15, Line.empty r.next 5 false)] } }
     (s.lineAt r.next).map (fun e => (e.1, e.2.locked, e.2.poisoned, e.2.wbBusy, e.2.isDirty)) = some (setOf r.next * 16 + 15, false, false, false, false) ∧
     s.locksOf r.next < 12) ∧
    up.barOpen = true ∧ up.dev.state = .serving ∧ up.cache.draining = false ∧ up.cache.disableWaits = false ∧ up.cache.enabled = true ∧
    up.cache.rng = none ∧
    (let s := { up with cache := { Cache.reset with draining := true } }; s.cache.draining = true ∧ s.advance = s ∧ s.cache.lines = []) := by
  decide +kernel

/-! ### Witnesses: command packets -/

/-- A packet from its fields: offset and value. -/
def pk (l : List (Nat × Nat)) : Packet := BitVec.ofNat 512 (total (l.map (fun f => f.2 * 2 ^ (8 * f.1))))

/-- Queue pair 0 RUNNING with one entry to fetch, in a state of the device. -/
def paired (s : State) (d : DevState) : State :=
  { s with
      dev := { s.dev with state := d }
      cmdq := { Cmdq.reset with queues := [(0, { Queue.init with st := .running, sqLast := 1, cqLast := 1, sqTail := 1 })] } }

/-- Whether a packet of an opcode starts on pair 0, in a state and as a command that meet a condition. -/
def startsIn (code : Nat) (s : State) (pkt : Packet) (p : State → Cmd → Bool) : Bool :=
  pkt.u 0 1 == code &&
  match s.arrive (.sq 0) pkt with
  | some (s1, c) => !s1.fenced c && (s1.checkPacket (.sq 0) pkt).isNone && c.pkt == pkt && p s1 c
  | none => false

/-- What `startsIn` finds is a witness of `Starts`. -/
theorem starts_of_startsIn {code : Nat} {s : State} {pkt : Packet} {p : State → Cmd → Bool} (h : startsIn code s pkt p = true) :
    ∃ s1 c, Starts code (.sq 0) pkt s s1 c ∧ c.pkt = pkt ∧ p s1 c = true := by
  unfold startsIn at h
  rw [Bool.and_eq_true] at h
  obtain ⟨h0, h⟩ := h
  split at h
  · rename_i s1 c ha
    simp only [Bool.and_eq_true, Bool.not_eq_true', beq_iff_eq, Option.isNone_iff_eq_none] at h
    exact ⟨s1, c, ⟨by simpa using h0, ha, h.1.1.1, h.1.1.2⟩, h.1.2, h.2⟩
  · cases h

/-- Any condition. -/
def any' : State → Cmd → Bool := fun _ _ => true

def rng : List (Nat × Nat) := [(0x18, 4095 * 4096), (0x20, 1)]
def unit0 (l : Nat) : Nat × Nat := (8, l * 2 ^ 24)

theorem witness_reports :
    startsIn 0x01 (paired up .fault) (pk [(0, 0x01), (0xC, 128)]) any' = true ∧
    startsIn 0x02 (paired up .held) (pk [(0, 0x02), (0xC, 64)]) any' = true ∧
    startsIn 0x03 (paired up .serving) (pk [(0, 0x03), (0xC, 264), unit0 3]) (fun _ _ => (unitOf (3 * 2 ^ 24)).1 != 4) = true ∧
    startsIn 0x23 (paired up .maintenance) (pk [(0, 0x23), (0xC, 64)]) any' = true ∧
    startsIn 0x63 (paired up .held) (pk [(0, 0x63), (0xC, 24), (0x18, 0x0901)]) (fun s1 _ => (s1.paramValue 0x0901).isSome) = true ∧
    startsIn 0x73 (paired up .fault) (pk [(0, 0x73), (0xC, 48), (0x18, 2047)]) any' = true ∧
    startsIn 0x81 (paired up .fault) (pk [(0, 0x81), (0xC, 64)]) any' = true ∧
    startsIn 0x92 (paired up .serving) (pk [(0, 0x92), (0xC, 64)]) any' = true ∧
    startsIn 0x50 (paired up .serving) (pk [(0, 0x50), (0xC, 64)]) any' = true ∧
    startsIn 0x45 (paired up .serving) (pk [(0, 0x45), (0xC, 128), unit0 0]) any' = true ∧
    startsIn 0x46 (paired up .serving) (pk [(0, 0x46), (0xC, 128), unit0 2, (0x18, 1600)]) any' = true ∧
    startsIn 0x71 (paired up .held) (pk [(0, 0x71), (0xC, 184), (0x18, 95), (0x19, 1)]) any' = true := by decide +kernel

/-- `window` of a mapped leaf with nothing cached and no tack. -/
def bound : State := { window .mapped [] with tacks := [], cache := Cache.reset }

def ctx5 (code : Nat) (l : List (Nat × Nat)) : Packet := pk ([(0, code), (4, 5)] ++ l)

theorem witness_context_reports :
    startsIn 0x13 (paired bound .serving) (ctx5 0x13 [(0xC, 48)]) any' = true ∧
    startsIn 0x35 (paired bound .serving) (ctx5 0x35 [(0xC, 64)]) any' = true ∧
    startsIn 0x32 (paired bound .serving) (ctx5 0x32 ([(0xC, 24)] ++ rng)) (fun s1 c => s1.bindsRun c.ctxOf 4095 1) = true ∧
    startsIn 0x32 (paired bound .serving) (ctx5 0x32 [(0xC, 24), (0x18, 4095 * 4096), (0x20, 2)]) (fun s1 c => !s1.bindsRun c.ctxOf 4095 2) =
      true := by decide +kernel

def other : Cmd :=
  { id := 0, port := .sq 0, pkt := pk [(0, 0x51)], posts := true, step := .measure, done := 0, holed := 0, code := 0 }

/-- `s` with a command of pair 0 before the next one. -/
def withOther (s : State) (x : Cmd) : State := { s with cmdq := { s.cmdq with cmds := [x], nextId := x.id + 1 } }

theorem witness_checks :
    ((paired up .serving).arrive (.sq 0) (pk [(0, 0xFF)])).isSome = true ∧ opRowOf 0xFF = none ∧
    (opRowOf 0x05).any (fun r => r.admin) = true ∧ (1023 : Fin 1024).val ≠ 0 ∧ (opRowOf 0x14).any (fun r => r.svc == .no) = true ∧
    ((paired up .serving).queue 0).lock = false ∧
    (opRowOf 0x02).any (fun r => r.svc != .no && (paired up .serving).badField r (.sq 0) (pk [(0, 0x02), (0xC, 56)]) == some 0xC) = true ∧
    (paired up .serving).checkPacket (.sq 0) (pk [(0, 0x44), (0xC, 32), unit0 0]) = some (0x03, 0) ∧
    (paired up .serving).checkPacket (.sq 0) (ctx5 0x15 []) = some (0x04, 0) ∧
    ((withOther (paired up .serving) other).arrive (.sq 0) (pk [(0, 0x02), (1, 1), (0xC, 64)])).any (fun x => x.1.fenced x.2) = true := by
  decide +kernel

def cmdOf (port : Port) : Cmd :=
  { id := 3, port := port, pkt := pk [(0, 0x02), (2, 0xFFFF)], posts := true, step := .fetched, done := 0, holed := 0, code := 0 }

theorem witness_completions :
    (∀ p ∈ [Port.svc, .sq 0], (cmdOf p).posts = true ∧ (cmdOf p).port = p) ∧
    ((paired up .serving).queue 0).ready = [] ∧ ((paired up .serving).queue 0).room = true ∧
    (let s := up.setQueue 0 { Queue.init with st := .running, cqLast := 0 }; (s.queue 0).ready = [] ∧ (s.queue 0).room = false) := by
  decide +kernel

theorem witness_device_commands :
    startsIn 0x04 (paired up .held) (pk [(0, 0x04), (0x18, 2 ^ 64 - 1)]) any' = true ∧
    startsIn 0x05 (paired up .serving) (pk [(0, 0x05)]) (fun s1 _ => s1.dev.state == .serving) = true ∧
    startsIn 0x05 (paired up .maintenance) (pk [(0, 0x05)]) (fun s1 _ => s1.dev.state == .maintenance) = true ∧
    startsIn 0x06 (paired up .maintenance) (pk [(0, 0x06)])
      (fun s1 _ => s1.dev.state == .maintenance && !s1.cmdq.cmds.any Cmd.needsMaintenance) = true ∧
    startsIn 0x06 (withOther (paired up .maintenance) { cmdOf (.sq 0) with pkt := pk [(0, 0x44)], step := .rails 11 }) (pk [(0, 0x06)])
      (fun s1 _ => s1.dev.state == .maintenance && s1.cmdq.cmds.any Cmd.needsMaintenance) = true ∧
    (let found := fun (s1 : State) (c : Cmd) =>
       s1.cmdq.cmds.find? (fun x => x.id != c.id && x.port == targetPort (c.pkt.u 0x18 2) && x.pkt.u 2 2 == c.pkt.u 0x1A 2)
     startsIn 0x08 (paired up .serving) (pk [(0, 0x08), (0x18, 1023), (0x1A, 7)]) (fun s1 c => (found s1 c).isNone) = true ∧
     startsIn 0x08 (withOther (paired up .serving) (cmdOf (.sq 0))) (pk [(0, 0x08), (0x1A, 0xFFFF)])
       (fun s1 c => match found s1 c with | some x => x.step == .fetched && x.opcode != 0x08 | none => false) = true) ∧
    startsIn 0x07 (paired up .serving) (pk [(0, 0x07), (0xC, 128), (0x18, 65536 - 640)])
      (fun s1 c => s1.power.shutdown == .none && s1.cmdq.stopped.isNone && s1.cmdq.cmds == [c]) = true ∧
    (let s := paired up .serving
     let x := { cmdOf (.sq 0) with pkt := pk [(0, 0x07), (0xC, 128)] }
     startsIn 0x07 { withOther s x with cmdq := { (withOther s x).cmdq with stopped := some 9 } } (pk [(0, 0x07), (0xC, 128)])
      (fun s1 _ => s1.power.shutdown != .held && s1.cmdq.stopped.isSome) = true) := by decide +kernel

def op20 (op : Nat) : Packet := ctx5 0x20 ([(0xC, 64), (0x28, op), (0x29, 1)] ++ rng)

theorem witness_cache_commands :
    (∀ op ∈ List.range 6, startsIn 0x20 (paired bound .maintenance) (op20 op) (fun s1 c => (c.pkt.u 0x28 1 == op) && s1.rangeStateOk op &&
      s1.bindsRun c.ctxOf (c.pkt.u 0x18 8 / 4096) (c.pkt.u 0x20 8) && !(s1.ctx c.ctxOf).rdOnly && decide (s1.cache.rngQueue.length < 16)) = true) ∧
    startsIn 0x21 (paired up .serving) (pk [(0, 0x21)]) (fun s1 _ => !s1.cache.draining) = true ∧
    startsIn 0x21 (paired { up with cache := { Cache.reset with draining := true } } .serving) (pk [(0, 0x21)]) (fun s1 _ => s1.cache.draining) = true ∧
    startsIn 0x22 (paired { up with cache := { Cache.reset with enabled := false } } .serving) (pk [(0, 0x22)])
      (fun s1 _ => !s1.cache.enabled && !s1.cache.draining && !s1.cache.disableWaits) = true ∧
    startsIn 0x22 (paired up .serving) (pk [(0, 0x22)])
      (fun s1 _ => s1.cache.enabled && !s1.cache.draining && !s1.cache.disableWaits && s1.cache.rng.isNone) = true := by decide +kernel

theorem witness_map_commands :
    (let ok := fun (s1 : State) (c : Cmd) => s1.bindsRun c.ctxOf (c.pkt.u 0x18 8 / 4096) (c.pkt.u 0x20 8) && !(s1.ctx c.ctxOf).rdOnly
     startsIn 0x30 (paired bound .serving) (ctx5 0x30 ([(0xC, 16)] ++ rng)) ok = true ∧
     startsIn 0x31 (paired bound .serving) (ctx5 0x31 ([(0xC, 16)] ++ rng)) (fun s1 c => ok s1 c && !s1.dev.readOnly) = true ∧
     startsIn 0x31 (paired { bound with dev := { up.dev with readOnly := true } } .serving) (ctx5 0x31 ([(0xC, 16)] ++ rng))
       (fun s1 c => ok s1 c && s1.dev.readOnly) = true) ∧
    (let s := { bound with xlat := { bound.xlat with dir := [(0, { ctx := 5, st := .absent, pinned := true, dirty := false, loc := 0 })] } }
     startsIn 0x33 (paired s .serving) (ctx5 0x33 [(0x24, 1)]) (fun s1 c => s1.runBound c.ctxOf 0 1 &&
       (granuleRun 0 1).all (fun g => (s1.entry g).pinned) && decide (s1.pinDemand ≤ s1.pinLimit)) = true ∧
     startsIn 0x34 (paired s .serving) (ctx5 0x34 [(0x24, 1)]) (fun s1 c => s1.runBound c.ctxOf 0 1) = true) ∧
    (let ro := { up with dev := { up.dev with readOnly := true } }
     startsIn 0x36 (paired ro .serving) (pk [(0, 0x36)]) (fun s1 _ => s1.dev.readOnly && decide (s1.spaceGood < s1.need + 7865)) = true ∧
     startsIn 0x36 (paired { ro with ctl := (List.range 24).map (fun i => (i, { DieCtl.init with present := true, online := true })) } .serving)
       (pk [(0, 0x36)]) (fun s1 _ => s1.dev.readOnly && decide (s1.need + 7865 ≤ s1.spaceGood)) = true) := by decide +kernel

def keyed (k : KeyState) : State :=
  { bound with ctxs := [(5, { Ctx.init with valid := true, enc := true, key := k })]
               store := Store.reset.writeRecord recKek (zeros 32) }

theorem witness_contexts :
    startsIn 0x10 (paired up .serving) (ctx5 0x10 [(0x18, 0x7F000000 - 2 ^ 29)])
      (fun s1 c => !s1.ctxBusy c.ctxOf && attrOk (0x7F000000 - 2 ^ 29) && s1.runUnbound 0 0 && decide (s1.pinDemand ≤ s1.pinLimit)) = true ∧
    startsIn 0x10 (paired up .serving) (ctx5 0x10 [(0x18, 0x60000000)]) (fun s1 c => !s1.ctxBusy c.ctxOf && !attrOk 0x60000000) = true ∧
    startsIn 0x11 (paired bound .serving) (ctx5 0x11 [(0x18, 2 ^ 26), (0x1C, 2 ^ 26)]) (fun s1 c => !s1.ctxBusy c.ctxOf &&
      (let x := (s1.ctx c.ctxOf).modified (2 ^ 26) (2 ^ 26)
       x.enc == (s1.ctx c.ctxOf).enc && attrOk x.attr && ((x.cls == 2#2) == ((s1.ctx c.ctxOf).cls == 2#2)) && x.wt == (s1.ctx c.ctxOf).wt)) = true ∧
    startsIn 0x11 (paired bound .serving) (ctx5 0x11 [(0x18, 2 ^ 24), (0x1C, 2 ^ 24)]) (fun s1 c => !s1.ctxBusy c.ctxOf &&
      (((s1.ctx c.ctxOf).modified (2 ^ 24) (2 ^ 24)).enc != (s1.ctx c.ctxOf).enc)) = true ∧
    startsIn 0x12 (paired bound .serving) (ctx5 0x12 []) (fun s1 c => !s1.ctxBusy c.ctxOf && (s1.ctx c.ctxOf).key != .loaded) = true ∧
    startsIn 0x15 (paired (keyed .loaded) .serving) (ctx5 0x15 []) (fun s1 c => !s1.ctxBusy c.ctxOf && (s1.ctx c.ctxOf).key == .loaded) = true ∧
    startsIn 0x15 (paired (keyed .empty) .serving) (ctx5 0x15 []) (fun s1 c => !s1.ctxBusy c.ctxOf && (s1.ctx c.ctxOf).key != .loaded) = true := by
  decide +kernel

def keyBlob : List Byte := [1, 1, 5, 0, 0, 0, 0, 0] ++ zeros 72

/-- KEY_LOAD, with a blob that the key of the store unwraps to two different halves (a figure of the board, log 12). -/
theorem witness_key_load (hu : ∀ k w, Config.unwraps k w = true) (hs : ∀ k w, Config.sameHalves k w = false) :
    startsIn 0x14 (paired (keyed .empty) .serving) (ctx5 0x14 []) (fun s1 c => !s1.ctxBusy c.ctxOf && c.ctxOf == 5) = true ∧
    keyBlob.length = 80 ∧ recField keyBlob 1 1 = 1 ∧ (keyed .empty).keyFault 5 keyBlob = none := by
  refine ⟨by decide +kernel, by decide +kernel, by decide +kernel, ?_⟩
  have h1 : ((keyed .empty).ctx 5).valid = true := by decide +kernel
  have h2 : ((keyed .empty).ctx 5).key = .empty := by decide +kernel
  have h3 : ((keyed .empty).store.record recKek).isNone = false := by decide +kernel
  have h4 : recField keyBlob 0 1 = 1 ∧ recField keyBlob 1 1 = 1 ∧ recField keyBlob 2 2 = 5 ∧ recField keyBlob 4 4 = 0 := by decide +kernel
  simp [State.keyFault, h1, h2, h3, h4, hu, hs]

/-- Die 0 online, with plane-block 0 BURNISHED. -/
def media0 : State :=
  { up with ctl := [(0, { DieCtl.init with present := true, online := true })]
            blocks := { Blocks.reset with pbs := [(0, { PbRec.initAt false 0 with st := .burnished, lastPage := some 1023 })] } }

theorem witness_media_commands :
    startsIn 0x40 (paired media0 .serving) (pk [(0, 0x40), (0xC, 32), unit0 0]) (fun s1 _ => (s1.holdingOn 0 1).filter s1.stillBurnished == [0]) = true ∧
    startsIn 0x41 (paired media0 .serving) (pk [(0, 0x41), (0xC, 32), unit0 3]) (fun s1 _ => s1.burnishOrder == [] && s1.blocks.burnishing == []) = true ∧
    startsIn 0x42 (paired media0 .serving) (pk [(0, 0x42), (0xC, 32), unit0 1]) (fun s1 _ => s1.holdingOn 0 8 == [0]) = true ∧
    startsIn 0x43 (paired up .serving) (pk [(0, 0x43), (0xC, 32), unit0 2]) (fun s1 _ => !(unitDies 0 64).any (fun d => (s1.ctlOf d).online)) = true ∧
    startsIn 0x43 (paired media0 .serving) (pk [(0, 0x43), (0xC, 32), unit0 0]) (fun s1 _ => (unitDies 0 1).any (fun d => (s1.ctlOf d).online) &&
      let s0 := (unitDies 0 1).foldl (fun s d => (s.closeOpen d).closeFill (dbKey d (Tab.get s.xlat.mapFill d (2048, 0)).1)) s1
      ((s0.dataBlocks 0 1).foldl State.force s0).blocks.leaving == []) = true ∧
    startsIn 0x44 (paired media0 .maintenance) (pk [(0, 0x44), (0xC, 32), unit0 2]) (fun s1 _ => !s1.power.octetOff.getLsbD 0) = true := by decide +kernel

theorem witness_limits_and_parameters :
    startsIn 0x52 (paired up .serving) (pk [(0, 0x52), (0x18, 1), (0x1A, 256)]) (fun _ c => c.pkt.u 0x18 1 == 1) = true ∧
    startsIn 0x52 (paired up .maintenance) (pk [(0, 0x52), (0x18, 4), (0x1E, 11400)]) (fun _ c => c.pkt.u 0x18 1 == 4) = true ∧
    startsIn 0x64 (paired up .held) (pk [(0, 0x64), (0x18, 0x0606), (0x20, 32)]) any' = true ∧
    startsIn 0x51 (paired { up with power := { Power.reset with overvolt := true } } .serving) (pk [(0, 0x51), (0xC, 64)]) (fun s1 _ => s1.power.overvolt) = true ∧
    startsIn 0x51 (paired up .serving) (pk [(0, 0x51), (0xC, 64)]) (fun s1 _ => !s1.power.overvolt) = true ∧
    (up.paramRecord 0x0606).isSome = true := by decide +kernel

theorem witness_observation_commands :
    startsIn 0x70 (paired up .held) (pk [(0, 0x70), (0x18, 15), (0x19, 1)]) (fun _ c => bit (c.pkt.u 0x19 1) 0) = true ∧
    startsIn 0x70 (paired up .held) (pk [(0, 0x70), (0x18, 15), (0x19, 6), (0x28, 2 ^ 48 - 1)]) (fun _ c => !bit (c.pkt.u 0x19 1) 0) = true ∧
    startsIn 0x72 (paired up .serving) (pk [(0, 0x72), (0x18, 7), (0x1A, 4095), (0x1C, 2 ^ 24 - 1), (0x20, 95)]) (fun _ c => decide (c.pkt.u 0x1A 2 < 4096) &&
      decide (c.pkt.u 0x18 1 < 8) && decide (c.pkt.u 0x20 1 ≤ 95)) = true ∧
    startsIn 0x74 (paired up .serving) (pk [(0, 0x74)]) (fun s1 c => c.pkt.u 0x18 2 == s1.store.evCount) = true ∧
    startsIn 0x74 (paired up .serving) (pk [(0, 0x74), (0x18, 1)]) (fun s1 c => c.pkt.u 0x18 2 != s1.store.evCount) = true := by decide +kernel

/-! ### Witnesses: board description, images, harness, shutdown -/

/-- A board description that passes every check of Table 12.3: dies 0 of channels 0-15, 24, 48 and 72. -/
def goodBody : List Byte :=
  let f := fun (l : List (Nat × Nat × Nat)) (i : Nat) => (l.filter (fun e => decide (e.1 ≤ i) && decide (i < e.1 + e.2.1))).foldl
    (fun (_ : Byte) (e : Nat × Nat × Nat) => BitVec.ofNat 8 (e.2.2 / 2 ^ (8 * (i - e.1)))) (0 : Byte)
  (List.range 508).map (fun i =>
    if 0x020 ≤ i ∧ i < 0x080 then (if i - 0x020 < 16 ∨ i - 0x020 ∈ [24, 48, 72] then 1 else 0)
    else f [(0, 4, 0x42445343), (4, 2, 1), (6, 2, 512), (0x0C, 3, devId / 256), (0x10, 12, 0xFFFF + 2 ^ 24 + 2 ^ 48 + 2 ^ 72), (0x80, 2, 0x24B)
            , (0x0F0, 4, 120000), (0x0F4, 2, 8000), (0x0F6, 2, 50), (0x0F8, 2, 20000), (0x102, 2, 70), (0x104, 2, 100), (0x106, 2, 115)
            , (0x108, 1, 3), (0x109, 1, 6), (0x10A, 1, 8)] i)
def goodBoard : List Byte := goodBody ++ le 4 (crc32c goodBody)

/-- `up` with a PENDING record. -/
def withPending (b : List Byte) : State := { up with store := Store.reset.writeRecord recBoardPending b }

set_option maxRecDepth 1000000 in
theorem witness_board_commands :
    startsIn 0x60 (paired up .fault) (pk [(0, 0x60), (0xC, 520), (0x1C, 512), (0x20, 1)]) any' = true ∧
    startsIn 0x61 (paired up .held) (pk [(0, 0x61), (0x18, 504), (0x1C, 8)]) any' = true ∧
    startsIn 0x62 (paired up .held) (pk [(0, 0x62)]) (fun s1 _ => s1.pendingFault == some (2, 0x1FC)) = true ∧
    startsIn 0x62 (paired (withPending goodBoard) .held) (pk [(0, 0x62)]) (fun s1 _ => s1.pendingFault.isNone && s1.dev.state == .held) = true ∧
    startsIn 0x62 (paired (withPending goodBoard) .maintenance) (pk [(0, 0x62)]) (fun s1 _ => s1.pendingFault.isNone && s1.dev.state != .held) = true := by
  decide +kernel

/-- Staging in a state, with `n` bytes received of an image of 16,384 bytes and rollback index 65,535, written at two positions. -/
def staging (st : StageSt) (n : Nat) : State :=
  { up with
      ctl := [(0, { DieCtl.init with online := true }), (192, { DieCtl.init with online := true })]
      img := { Images.reset with st := st, received := n, writing := 3, header := zeros 8 ++ le 4 16384 ++ zeros 52 ++ [0xFF, 0xFF] ++ zeros 4030 } }

def stage (o n : Nat) : Packet := pk [(0, 0x80), (0x20, o), (0x24, n)]
def copy0 : ImgCopy := { block := 1034, erased := true, pages := 1, again := false }

theorem witness_image_commands :
    (let free := fun (s1 : State) (c : Cmd) => !s1.cmdq.cmds.any (fun x => x.id != c.id && x.opcode == 0x80 && x.step != CmdStep.fetched) && s1.svc.consumer.isNone
     startsIn 0x80 (paired (staging .receiving 4096) .serving) (stage 4096 8) (fun s1 c => free s1 c && s1.img.received == 4096 && s1.img.st == .receiving &&
       decide (4096 ≤ s1.img.header.length) && decide (4096 + 8 < headerLen s1.img.header)) = true ∧
     startsIn 0x80 (paired (staging .empty 0) .maintenance) (stage 0 4088) (fun s1 c => free s1 c && s1.img.st != .verifying && s1.img.st != .activating) = true ∧
     startsIn 0x80 (paired (staging .receiving 4096) .serving) (stage 4104 1048576) (fun s1 c => free s1 c && s1.img.received != 4104 &&
       s1.img.st == .receiving) = true) ∧
    (let i := { (staging .verifying 16384).img with copies := [(0, copy0), (1, { copy0 with again := true })] }
     i.st = .verifying ∧ i.copies.all (fun e => e.2.erased && decide (i.formed ≤ e.2.pages)) = true ∧
     i.copies.all (fun e => (3 : BitVec 4).getLsbD e.1) = true ∧ i.copies.any (fun e => (0 : BitVec 4).getLsbD e.1) = false ∧
     (1 : BitVec 4).getLsbD 0 = true ∧ (1 : BitVec 4).getLsbD 1 = false) ∧ up.img.st ≠ .verifying ∧
    startsIn 0x82 (paired up .serving) (pk [(0, 0x82)]) (fun s1 _ => s1.img.st != .staged) = true ∧
    startsIn 0x83 (paired (staging .staged 16384) .serving) (pk [(0, 0x83)]) (fun s1 _ => s1.img.st == .staged) = true ∧
    startsIn 0x83 (paired (staging .empty 0) .serving) (pk [(0, 0x83)]) (fun s1 _ => s1.img.st == .empty) = true ∧
    startsIn 0x83 (paired (staging .activating 0) .serving) (pk [(0, 0x83)]) (fun s1 _ => s1.img.st == .activating) = true ∧
    { Cache.reset with pause := true }.pause = true := by decide +kernel

/-- IMAGE_ACTIVATE, under fuses and a manufactured image (figures of the device, log 12) whatever they are. -/
theorem witness_image_activate :
    startsIn 0x82 (paired (staging .staged 16384) .serving) (pk [(0, 0x82)]) (fun s1 _ => s1.img.st == .staged && s1.cmdq.stopped.isNone) = true ∧
    (staging .staged 16384).rollbackFloor ≤ headerRollback (staging .staged 16384).img.header := by
  refine ⟨by decide +kernel, ?_⟩
  have h : headerRollback (staging .staged 16384).img.header = 65535 := by decide +kernel
  have h2 : (staging .staged 16384).slotPtr.trial = false := by decide +kernel
  have h3 : (staging .staged 16384).slotPtr.active = 0 := by decide +kernel
  have h4 : Tab.find (staging .staged 16384).img.slots 0 = none := by decide +kernel
  have a := Config.fuseFloor.isLt
  have b := Config.factoryRollback.isLt
  simp only [h, State.rollbackFloor, State.slotRollback, h2, h3, h4]
  simp
  omega

def member1 : Harness := { Harness.reset with role := 1, parent := 2 ^ 24 }
def pushing1 : Harness := { member1 with pushing := some 9 }

theorem witness_harness :
    startsIn 0x90 (paired up .serving) (pk [(0, 0x90), (0x18, 16383), (0x1A, 1), (0x20, 2 ^ 63)])
      (fun s1 c => !bit (c.pkt.u 0x1A 1) 1 && bit (c.pkt.u 0x1A 1) 0 && s1.host.busMaster) = true ∧
    startsIn 0x90 (paired up .serving) (pk [(0, 0x90), (0x18, 1), (0x1A, 2), (0x28, 2 ^ 24)])
      (fun s1 c => bit (c.pkt.u 0x1A 1) 1 && !s1.mailboxOk (c.pkt.u 0x28 8)) = true ∧
    startsIn 0x91 (paired { up with harness := member1 } .serving) (pk [(0, 0x91)]) (fun _ c => !bit (c.pkt.u 0x1A 1) 0) = true ∧
    (let s := { up with harness := member1 }
     s.dev.state = .serving ∧ s.harness.member = true ∧ s.harness.pushing = none ∧ s.harness.silent = false ∧ s.engines = true) ∧
    pushing1.pushing = some 9 ∧ (le 8 9).length = 8 ∧ ofLe (le 8 9) = 9 ∧ ofLe (le 8 8) ≠ 9 ∧
    pushing1.pushFails + 1 < { up with harness := pushing1 }.harnessLost ∧
    { Harness.reset with role := 2 }.leader = true ∧ { Harness.reset with role := 2 }.mailboxLost = false ∧
    (∀ b ∈ [true, false], let s := { up with harness := { Harness.reset with role := 2, reading := b } }
     s.dev.state = .serving ∧ s.engines = true ∧ s.harness.reading = b ∧ s.mailboxReads none = [] ∧ s.mailboxBusy = false ∧ s.cmdq.cmds = []) := by decide +kernel

def slotBytes : List Byte := let b := le 4 (3 * 2 ^ 24 + 16383 * 2 ^ 10) ++ [0, 1] ++ zeros 234 ++ le 8 7 ++ zeros 4; b ++ le 4 (crc32c b)

theorem witness_slot_classes :
    slotValid 16383 slotBytes = true ∧ recField slotBytes 0xF0 8 = 7 ∧ recField (zeros 256) 5 1 = 0 ∧
    (0 : Nat) / 2 ^ 30 ≠ 2 ∧ (2 ^ 30 : Nat) / 2 ^ 30 = 1 ∧
    (let x : MemberSlot := { cls := .present, seq := 7, same := 0, record := [], accepted := 0 }; x.cls ≠ .empty ∧ x.seq = recField slotBytes 0xF0 8 ∧ x.same + 1 < 2 ∧
      1 ≤ x.same + 1) ∧
    (let x : MemberSlot := { cls := .present, seq := 7, same := 1, record := [], accepted := 0 }; 2 ≤ x.same + 1) := by decide +kernel

def shutting (st : Shutdown) : State := { up with power := { Power.reset with shutdown := st } }

theorem witness_clean_shutdown :
    (∀ st ∈ [Shutdown.none, .held], (shutting st).dev.state = .serving ∧ (shutting st).power.shutdown = st) ∧
    (shutting .running).flushPath.2 = true ∧ (shutting .running).flushPath.1.harness.member = false ∧
    ({ shutting .running with cache := { Cache.reset with dirtyList := [0], lines := [(0, dirty0)] } }).flushPath.2 = false ∧
    (shutting .noted).drift.assessing = false ∧ (shutting .noted).xlat.run = none ∧ (shutting .noted).journalDone = true ∧
    (shutting .welt).power.shutdown = .welt ∧ (shutting .welt).xlat.run = none ∧ (shutting .welt).journalDone = true ∧ (shutting .welt).cmdq.cmds = [] ∧
    (shutting .welt).power.offAsked = false := by decide +kernel

/-! ### Witnesses: queue pairs, link, registers, CXL mailbox, service port -/

def ring (st : QState) : Queue := { Queue.init with st := st, sqLast := 65535, cqLast := 65535, cqTail := 65535, cqBase := 2 ^ 20 }
def withPair (x : Queue) : State := { up with cmdq := { Cmdq.reset with queues := [(1023, x)] } }

theorem witness_doorbells :
    (∀ st ∈ [QState.idle, .running, .stopping, .error], (withPair (ring st)).barOpen = true ∧ (withPair (ring st)).queue 1023 = ring st) ∧
    (ring .idle).st ≠ .running ∧ bits (65535 : Word).toNat 0 16 = 65535 ∧ 65535 ≤ (ring .running).sqLast ∧ 65535 ≤ (ring .running).cqLast ∧
    (ring .running).cqSpan 65535 ≤ (ring .running).cqSpan (ring .running).cqTail ∧ (ring .running).ready = [] ∧
    (let x := { ring .running with sqLast := 1, cqLast := 3, cqTail := 1 }
     x.sqLast < 2 ∧ x.cqSpan x.cqTail < x.cqSpan 2 ∧ x.cqLast < 4) := by decide +kernel

theorem witness_enable_disable :
    (ring .idle).st = .idle ∧ bit (0xFFFFFFFF : Word).toNat 31 = true ∧ (ring .idle).sqLast ≠ 0 ∧ (ring .idle).cqLast ≠ 0 ∧
    { ring .idle with cqLast := 0 }.cqLast = 0 ∧ (ring .running).st = .running ∧ (ring .error).st = .error ∧ bit (0x7FFFFFFF : Word).toNat 31 = false ∧
    (withPair (ring .running)).cmdq.cmds = [] := by decide +kernel

theorem witness_fetch_and_post :
    up.nextPair = none ∧ (paired up .serving).nextPair = some 0 ∧ (opRowOf ((pk [(0, 0x92)]).u 0 1)).isSome = true ∧ opRowOf ((pk [(0, 0xFF)]).u 0 1) = none ∧
    (let x := { ring .running with ready := [(zeros 16, false)], cqHead := 1 }; x.ready = [(zeros 16, false)] ∧ x.room = true) ∧
    (let x := { ring .running with coalUs := 1, unsent := 1 }; x.intEn = true ∧ 0 < x.coalUs ∧ 0 < x.unsent) ∧
    (ring .running).coalUs = 0 ∧ (paired up .serving).host.ctoDisable = false ∧
    ({ paired up .serving with host := { up.host with ctoDisable := true } }).nextPair = some 0 := by decide +kernel

theorem witness_link :
    (let s := { up with host := HostPort.reset }
     s.mayTrain 6 8 true false = true ∧ s.linkParam 0x0801 ≤ 6 ∧ s.linkParam 0x0802 ≤ 8 ∧ s.mayTrain 5 8 false false = true ∧ 5 < s.linkParam 0x0801 ∧
     s.mayTrain 6 4 true false = true ∧ 4 < s.linkParam 0x0802) ∧
    up.mayTrain 6 8 true false = false ∧ up.host.up = true ∧ up.holdsReads = false ∧ up.dev.state ≠ .standby := by decide +kernel

theorem witness_register_writes :
    ((upCxl .serving).barOpen = true ∧ (upCxl .serving).host.cxl = true ∧ 0x110000 ≤ (0x12FFFC : BitVec 26).toNat ∧ (0x12FFFC : BitVec 26).toNat < 0x130000) ∧
    ((0xFFFC : BitVec 26).toNat < 0x10000 ∧ (0xFFFC : BitVec 26).toNat ≠ rDevFlagsChg) ∧
    (let s := { up with boot := { State.reset.boot with bd := some [] } }; s.barOpen = true ∧ s.boot.bd ≠ none) ∧
    State.reset.host.up = false ∧ 0x1000000 ≤ (0x1000000 : BitVec 26).toNat ∧ State.reset.barOpen = false ∧ (0xFFFFFC : BitVec 26).toNat < 0x1000000 ∧
    (let s := { up with host := { up.host with pba := [2047] } }
     s.barOpen = true ∧ bit (0 : Word).toNat 0 = false ∧ (0x2007FFC : BitVec 26).toNat = 0x200000C + 16 * (2047 : Fin 2048).val ∧
     s.host.pba.contains (2047 : Fin 2048).val = true) := by decide +kernel

theorem witness_latched_reads :
    (let s := { up with xlat := { Xlat.reset with dirUp := true } }
     s.barOpen = true ∧ s.xlat.dirUp = true ∧ s.lineHeld (lineOf (4194303 : BitVec 22).toNat) = false ∧
     s.lineCorrupt (lineOf (4194303 : BitVec 22).toNat) = false) := by decide +kernel

theorem witness_cxl_mailbox :
    (upCxl .serving).mailboxUp = true ∧ (upCxl .serving).notReady = false ∧ (upCxl .serving).drift.holeFull = false ∧
    (upCxl .held).mailboxUp = true ∧ (upCxl .held).notReady = true ∧ up.mailboxUp = false := by decide +kernel

theorem witness_service_transactions :
    up.svcBus = some .smbus ∧ ({ up with svc := { Svc.reset with dyn := 0x10 } }).svcBus = some .i3c ∧
    ({ up with regs := [(rSvcCtrl, 0)] }).svcBus = none ∧ (1 : Byte) ≠ 0 ∧ (1 : Byte) ≠ 0xFF ∧ (1 : Byte) ≠ 0x7E := by decide +kernel

def requestBody : List Byte := [1, 0, 0, 0] ++ le 64 (pk [(0, 0x02), (2, 9)]).toNat
def svcCmd (i : Nat) : Cmd := { cmdOf .svc with id := i, pkt := pk [(0, 0x61)], step := .fifo }
def consuming : State :=
  { up with cmdq := { Cmdq.reset with cmds := (List.range 4).map svcCmd, nextId := 4 }, svc := { Svc.reset with consumer := some 0 } }

theorem witness_service_messages :
    requestBody.length = 68 ∧ recField requestBody 0 1 = kindRequest ∧ zeroAt requestBody 1 3 = true ∧
    BitVec.ofNat 512 (ofLe (requestBody.drop 4)) = pk [(0, 0x02), (2, 9)] ∧ up.svcBusy < 4 ∧ up.slotsFull = false ∧ up.mayFetch = true ∧
    (opRowOf ((pk [(0, 0x02), (2, 9)]).u 0 1)).isSome = true ∧ 4 ≤ consuming.svcBusy ∧
    (∀ n ∈ [1, 1024], let b : List Byte := [3, 1, 0, 0] ++ zeros n
      5 ≤ b.length ∧ b.length ≤ 1028 ∧ recField b 0 1 = kindData ∧ recField b 1 1 < 2 ∧ zeroAt b 2 2 = true ∧
      { Svc.reset with fifo := List.replicate (4096 - n) (0, false) }.fifo.length + (b.length - 4) ≤ 4096) ∧
    up.consumer = none ∧ (2 : Word).getLsbD 1 = true ∧ consuming.consumer = some (svcCmd 0) ∧ (svcCmd 0).opcode = 0x61 := by decide +kernel

theorem witness_fifo_words :
    (let q : List (Byte × Bool) := List.replicate 32 (0, false); 32 ≤ q.length ∧ 31 < q.length ∧ q.length ≤ 32 ∧ ∀ b ∈ q, b.2 = false) ∧
    (let q : List (Byte × Bool) := List.replicate 30 (0, false) ++ [(0, true)]; fifoWord q = some (q, []) ∧ q[30]? = some (0, true) ∧ 30 + 1 < 32) ∧
    (let q : List (Byte × Bool) := List.replicate 31 (0, false); q.length < 32 ∧ q.getLast? = some (0, false)) := by decide +kernel

/-! ### Witnesses: power steward and cinch -/

def powered (d : DevState) (p : Power) : State := { upIn d with power := p }
def powerUp (u : UpStep) : Power := { Power.reset with up := u, rails := [4, 3] }

theorem witness_requests :
    (let p := State.reset.power; State.reset.dev.state = .standby ∧ p.offLatch = false ∧ p.up = .none ∧ p.critLock = false) ∧
    { Power.reset with critLock := true }.critLock = true ∧ up.dev.state ≠ .standby ∧ up.power.shutdown = .none ∧ up.barOpen = true ∧
    (upIn .held).dev.state = .held ∧ (upIn .held).barOpen = true := by decide +kernel

theorem witness_rails :
    (∀ i < 5, let s := powered .powering { powerUp (.rail i) with adcSlot := i }
      s.power.pathHold = false ∧ s.power.adcSlot = i ∧ s.power.up = .rail i ∧ s.dev.state = .powering ∧ s.power.offAsked = false ∧
        s.power.faultWait = none) ∧
    inWindow 1 (713 : BitVec 16).toNat = true ∧ inWindow 1 (787 : BitVec 16).toNat = true ∧ inWindow 1 (712 : BitVec 16).toNat = false ∧
    inWindow 1 (788 : BitVec 16).toNat = false ∧
    (let p := { powerUp .bulk with adcSlot := 30 }; p.pathHold = false ∧ p.adcSlot = 30 ∧ p.up = .bulk) ∧
    (let s := powered .poweringDown (powerUp .none)
     s.dev.state = .poweringDown ∧ s.power.up = .none ∧ s.power.rails = 4 :: [3] ∧ s.arrayBusy = false) ∧
    (let s := { powered .poweringDown (powerUp .none) with dies := [(0, dieOp .susp prog0)] }; s.arrayBusy = true) ∧
    (powered .poweringDown Power.reset).power.rails = [] ∧
    (({ up with chans := chanIs .training id }).chan 0).st = .training ∧ (up.chan 0).st ≠ .training := by decide +kernel

def meas1 (st : MeasStep) (svc : Bool) : Meas := { Meas.charging svc true 5 with step := st }

theorem witness_bank :
    up.barOpen = true ∧ up.field rPwrChgCfg 20 12 ≠ 0 ∧ up.field rPwrChgCfg 20 12 ≤ up.measHours ∧
    ({ up with regs := [(rPwrChgCfg, 0)] }).field rPwrChgCfg 20 12 = 0 ∧
    (upIn .maintenance).dev.state = .maintenance ∧ up.power.meas = none ∧ up.power.overvolt = false ∧
    (∀ st ∈ [MeasStep.dirty, .drain, .charge], ∀ svc,
      (powered .serving { Power.reset with meas := some (meas1 st svc) }).power.meas = some (meas1 st svc) ∧ (meas1 st svc).step = st ∧
      (meas1 st svc).inService = svc) ∧
    up.overCeiling = false ∧ ({ up with cache := { Cache.reset with ceiling := 0, dirtyList := [0], lines := [(0, dirty0)] } }).overCeiling = true := by
  decide +kernel

theorem witness_power_fail_and_aon :
    (let p := { Power.reset with pfwLive := true, aonBack := true }; p.pfwLive = true ∧ p.aonBack = true) ∧
    up.power.pfwLive = false ∧ up.dev.state = .serving ∧ up.power.aonBack = false ∧ State.reset.dev.state = .standby ∧
    State.reset.store.journal.all (fun e => !e.2.opened) = true := by decide +kernel

def cinching (st : CinchStep) (f : Option Nat) : State :=
  powered .cinch { Power.reset with cinch := some { why := .pfw, fault := f, step := st, deltaRseq := some 7 }, pathHold := true, pllLost := true }

theorem witness_cinch :
    (∀ st ∈ [CinchStep.accept, .writeback, .parity, .journal, .delta], ∀ f ∈ [none, some 3],
      (cinching st f).power.cinch = some { why := .pfw, fault := f, step := st, deltaRseq := some 7 } ∧ (cinching st f).dev.state = .cinch) ∧
    (cinching .writeback none).writtenBack = true ∧
    ({ cinching .writeback none with cache := { Cache.reset with dirtyList := [0] } }).writtenBack = false ∧
    (cinching .parity none).blocks.stitches = [] ∧ (cinching .parity none).tacks = [] ∧ (cinching .journal none).journalDone = true ∧
    ({ cinching .delta none with xlat := { Xlat.reset with jCommit := some 0 } }).committed 7 = true ∧ (cinching .delta none).power.pllLost = true ∧
    (cinching .delta none).power.pathHold = true ∧ (cinching .delta none).power.holdNext = true ∧
    (0 : BitVec 16).toNat ≤ (cinching .delta none).holdFloor ∧ (cinching .delta (some 3)).power.pfwLow = false := by decide +kernel

/-! ### Witnesses: block life -/

/-- A blank device with die 0 of the given channels online. -/
def diesOn (chs : List Nat) : State :=
  { up with ctl := chs.map (fun c => (8 * c, { DieCtl.init with present := true, online := true })), blocks := { Blocks.reset with blank := true } }

/-- Two channels of each octet. -/
def spread : List Nat := (List.range 12).flatMap (fun o => [8 * o, 8 * o + 1])

def offer1 : Offer := { leaf := 0, ctx := 5, data := [], key := none, sub := 0, source := none, tack := none, flush := false }

/-- A FILLING stitch in slot 47 with member 15 on block 0 of die 0, `n` leaves offered by its stream. -/
def filling (copy : Bool) (n : Nat) : State :=
  { diesOn [0] with
      blocks := { Blocks.reset with
                    stitches := [(47, { Stitch.init with copy := copy, positions := [(15, 0), (16, 2048 * 8), (17, 2048 * 16)]
                                                         openMask := 0x8000, order := [15] })]
                    hostOffers := if copy then [] else List.replicate n offer1
                    copyOffers := if copy then List.replicate n offer1 else [] } }

/-- The same with row 0 of member 15 programmed. -/
def filledRow : Stitch := { Stitch.init with positions := [(15, 0), (16, 16384), (17, 32768)], lastPage := [(15, 0)], openMask := 0x8000, order := [15] }

theorem witness_stitch_rows :
    ((filling true 0).openStitch true).isSome = true ∧ State.reset.mounted = false ∧ up.mounted = true ∧ up.engines = true ∧
    up.openStitch false = none ∧ up.blocks.stitches = [] ∧
    ((up.placements (up.blocks.stitchSeq % 96) (List.range 18) []).filter (fun e => decide (e.1 < 16))).length < 8 ∧
    (filling false 32).mayTake 47 15 32 = true ∧ (filling false 31).mayTake 47 15 32 = false ∧
    (filling false 0).mayTake 47 15 1 = false ∧ (filling false 1).mayTake 47 15 1 = true ∧
    (let s := { diesOn [0] with blocks := { Blocks.reset with stitches := [(47, filledRow)] } }
     Tab.find s.blocks.stitches 47 = some filledRow ∧ s.mounted = true ∧ filledRow.st = .filling ∧ s.nextRow 47 filledRow = some 0 ∧
     filledRow.pLost = false ∧ filledRow.qLost = false ∧ Tab.find s.blocks.stitches 0 = none) := by decide +kernel

/-- `State.placements` over a table of the die that each channel gives. -/
def placeBy (f : Nat → Option Nat) (k : Nat) (js : List Nat) (taken : List Nat) : List (Nat × Nat) :=
  match js with
  | [] => []
  | j :: r =>
    match (stitchChans k j).findSome? (fun ch =>
      if taken.contains ch || decide (2 ≤ (taken.filter (fun c => c / 8 == ch / 8)).length) then none else f ch) with
    | some d => (j, d) :: placeBy f k r (d / 8 :: taken)
    | none => placeBy f k r taken

theorem placements_eq_placeBy (s : State) (f : Nat → Option Nat) (k : Nat) (hf : ∀ ch, ch < 96 → s.stitchDie ch = f ch) (js taken : List Nat) :
    s.placements k js taken = placeBy f k js taken := by
  induction js generalizing taken with
  | nil => rfl
  | cons j r ih =>
    have h : s.placePosition k j taken = (stitchChans k j).findSome? (fun ch =>
        if taken.contains ch || decide (2 ≤ (taken.filter (fun c => c / 8 == ch / 8)).length) then none else f ch) := by
      unfold State.placePosition
      have hc : ∀ ch ∈ stitchChans k j, ch < 96 := by
        intro ch hch
        simp only [stitchChans, List.mem_flatMap, List.mem_map, List.mem_range] at hch
        omega
      generalize stitchChans k j = l at hc
      induction l with
      | nil => rfl
      | cons a l ih2 =>
        simp only [List.findSome?_cons, hf a (hc a (by simp)), ih2 (fun ch hch => hc ch (by simp [hch]))]
    simp only [State.placements, placeBy, h]
    split
    · rename_i d hd
      simp only [hd, ih]
    · rename_i hd
      simp only [hd, ih]

theorem leastWorn_of_blank {s : State} {d : Nat} (h : s.isBlank (dbKey d 0) = true) : (s.leastWorn d).isSome = true := by
  unfold State.leastWorn
  dsimp only
  split
  · rfl
  · simp only [Option.isSome_map, List.find?_isSome]
    exact ⟨0, by simp, h⟩

/-- A channel with at most die 0 online gives that die, when it is blank and holds no open stitch. -/
theorem stitchDie_of_blank {s : State} {ch : Nat} (hb : s.isBlank (dbKey (dieKey ch 0) 0) = true) (ho : s.openStitchBlocks (dieKey ch 0) < 2) (hl : s.leavingDie (dieKey ch 0) = false)
    (h : ∀ d < 7, (s.ctlOf (dieKey ch (d + 1))).online = false) :
    s.stitchDie ch = if (s.ctlOf (dieKey ch 0)).online then some (dieKey ch 0) else none := by
  have e : (List.range 8) = [0, 1, 2, 3, 4, 5, 6, 7] := rfl
  have hn := leastWorn_of_blank hb
  simp only [State.stitchDie, e, List.map_cons, List.map_nil, List.foldl_cons, List.foldl_nil, h 0 (by omega), h 1 (by omega), h 2 (by omega),
    h 3 (by omega), h 4 (by omega), h 5 (by omega), h 6 (by omega), hn, ho, hl, Bool.not_false, decide_true, Bool.and_true, Bool.false_and]
  cases (s.ctlOf (dieKey ch 0)).online <;> simp

def spreadDie (ch : Nat) : Option Nat := if ((diesOn spread).ctlOf (dieKey ch 0)).online then some (dieKey ch 0) else none

theorem spread_dies : ∀ ch < 96, (diesOn spread).isBlank (dbKey (dieKey ch 0) 0) = true ∧ (diesOn spread).openStitchBlocks (dieKey ch 0) < 2 ∧
    (diesOn spread).leavingDie (dieKey ch 0) = false ∧
    ∀ d < 7, ((diesOn spread).ctlOf (dieKey ch (d + 1))).online = false := by decide +kernel

theorem witness_stitch_form :
    let ps := (diesOn spread).placements ((diesOn spread).blocks.stitchSeq % 96) (List.range 18) []
    8 ≤ (ps.filter (fun e => decide (e.1 < 16))).length ∧ ps.any (fun e => e.1 == 16) = true ∧ ps.any (fun e => e.1 == 17) = true ∧
    (diesOn spread).dev.spaceLow = false := by
  rw [placements_eq_placeBy _ spreadDie _
    (fun ch hch => stitchDie_of_blank (spread_dies ch hch).1 (spread_dies ch hch).2.1 (spread_dies ch hch).2.2.1 (spread_dies ch hch).2.2.2)]
  decide +kernel

/-- A CLOSED stitch in slot 47 whose member 15 is full. -/
def fullMember : Stitch := { filledRow with st := .closed, lastPage := [(15, 1023)], openMask := 0, order := [] }
def burnishing (l : Tab ReadRun) : State :=
  { diesOn [0] with blocks := { Blocks.reset with stitches := [(47, fullMember)], burnishing := l } }

def burnished0 : ReadRun := { db := 0, toRead := [], waiting := [], bad := 0 }

theorem witness_burnish :
    Tab.find (burnishing []).blocks.stitches 47 = some fullMember ∧ Tab.find fullMember.positions 15 = some 0 ∧
    (burnishing []).engines = true ∧ (burnishing []).burnishOrder.head? = some (burnishKey (47 : Fin 48) (15 : Fin 16)) ∧
    (burnishing []).burnishOrder.head? ≠ some (burnishKey (47 : Fin 48) (14 : Fin 16)) ∧ State.reset.engines = false ∧
    Tab.find (burnishing []).blocks.burnishing (burnishKey (47 : Fin 48) (15 : Fin 16)) = none ∧
    (∀ run ∈ [burnished0, { burnished0 with waiting := [5] }, { burnished0 with bad := 8 }],
      Tab.find (burnishing [(burnishKey (47 : Fin 48) (15 : Fin 16), run)]).blocks.burnishing (burnishKey (47 : Fin 48) (15 : Fin 16)) = some run) ∧
    burnished0.over = true ∧ planesOf burnished0.bad = [] ∧ { burnished0 with waiting := [5] }.over = false ∧
    { burnished0 with bad := 8 }.over = true ∧ planesOf (8 : BitVec 4) ≠ [] := by decide +kernel

def job0 : Job := { db := 0, refresh := false, toRead := [], waiting := [], rseq := none }
/-- A state whose die-block 0 has just been found emptied. -/
def emptied (s : State) : State := (s.passEmptied 0).updDb 0 (fun r => { r with st := if r.st = .retired then .retired else .erasePending })
def withBlocks (f : Blocks → Blocks) : State := { media0 with blocks := f media0.blocks }

theorem witness_skiver_refresh_erase :
    up.engines = true ∧ State.reset.engines = false ∧
    (let s := filling true 32
     s.engines = true ∧ s.openStitch true = some 47 ∧ s.mayTake 47 15 32 = true ∧
     (Tab.find s.blocks.stitches 47).map (fun x => x.order.find? (s.memberReady x)) = some (some 15)) ∧
    (filling true 31).mayTake 47 15 32 = false ∧
    (let s := withBlocks (fun b => { b with jobs := [job0] })
     s.engines = true ∧ s.blocks.jobs = [job0] ∧ s.jobDone job0 = true ∧ s.blocks.erasing.contains job0.db = false ∧
     (s.ctlOf (dbDie job0.db)).online = true ∧ (emptied s).referenced 0 = false) ∧
    (let s := { withBlocks (fun b => { b with jobs := [job0] }) with tacks := [(16384, tackRead .queued)] }; (emptied s).referenced 0 = true) ∧
    (up.engines = true ∧ up.blocks.jobs = [] ∧ up.pendingErase = none) ∧
    (let s := withBlocks (fun b => { b with pbs := (List.range 4).map (fun q => (pbKey 0 q 0, { PbRec.initAt false 0 with st := .erasePending, lastPage := some 1023 })) })
     s.engines = true ∧ s.blocks.jobs = [] ∧ s.pendingErase = some 0) ∧
    (let s := withBlocks (fun b => { b with refreshQ := [0] })
     s.blocks.refreshQ = [0] ∧ dbBlock 0 < 1024 ∧ s.jobCandidate 0 = true) := by decide +kernel

def scrubTack : Tack := { Tack.engine .scrubRead engBurnish 0 true with rd := some (readAt 0 .decoding), retry := 1 }

theorem witness_scrub_and_snapshots :
    media0.engines = true ∧ (media0.dbRec (poolDb (0 : BitVec 20).toNat)).st = .burnished ∧
    (media0.dbRec (poolDb (0 : BitVec 20).toNat)).lastPage = some 1023 ∧ Tab.find media0.blocks.scrubbing (poolDb 0) = none ∧
    (Tab.find (withBlocks (fun b => { b with scrubbing := [(0, burnished0)] })).blocks.scrubbing (poolDb 0)).isSome = true ∧
    (up.dbRec (poolDb 786431)).st ≠ .burnished ∧
    (let s := { withBlocks (fun b => { b with scrubbing := [(0, { burnished0 with waiting := [0] })] }) with tacks := [(16384, scrubTack)] }
     scrubTack.op = .scrubRead ∧ s.blocks.scrubbing.any (fun e => e.2.holds (readAt 0 .decoding).addr) = true ∧ scrubTack.retry ≠ 0 ∧
     s.holdsData (s.dbOf (readAt 0 .decoding).addr) = true ∧ s.blocks.forced.contains (s.dbOf (readAt 0 .decoding).addr) = false ∧
     s.blocks.jobs = []) ∧
    (let s := withBlocks (fun b => { b with refreshQ := [1039] })
     s.engines = true ∧ s.blocks.refreshQ.find? (fun db => decide (1032 ≤ dbBlock db) && (s.ctlOf (dbDie db)).online && !s.blocks.erasing.contains db) =
       some 1039 ∧ s.blocks.renew = none ∧ dbBlock 1039 = 1039 ∧ dbBlock 1034 ≠ 1039 ∧
     (s.startRenew 1034).blocks.renew.isSome = true ∧ (s.startRenew 1034).engines = true) ∧
    up.mounted = true ∧ up.blocks.snapshots.length ≤ 32 ∧ State.reset.mounted = false := by decide +kernel

/-! ### Witnesses: translation, journal, welts, boot, mount -/

def dirtySlot (i : Nat) : SegSlot :=
  { index := i, st := .dirty, firstDirty := some 5, imageRseq := 0, primary := 0, mirror := 0, leaves := [] }

/-- The map up, with the translation as given. -/
def mapped (f : Xlat → Xlat) : State := { up with xlat := f { Xlat.reset with dirUp := true } }

def lastGranule : DirEntry := { ctx := 5, st := .inMedia, pinned := false, dirty := false, loc := 77 }

def segTack : Tack := { Tack.engine .segRead engSegment 4194303 false with wait := .segment 4194303 }

theorem witness_segments_and_lines :
    up.tacks.find? (fun e => e.2.segment? == some (4194303 : BitVec 22).toNat && !e.2.draining && e.2.rd.isNone) = none ∧
    (mapped (fun x => { x with badLines := [524287] })).lineHeld (lineOf (4194303 : BitVec 22).toNat) = true ∧
    (∀ t ∈ [segTack, segTack.setFlag fPoison],
     let s := { mapped (fun x => { x with dir := [(4194303, lastGranule)], slots := [(0, { dirtySlot 4194303 with st := .loading })] }) with tacks := [(16384, t)] }
     s.tacks.find? (fun e => e.2.segment? == some (4194303 : BitVec 22).toNat && !e.2.draining && e.2.rd.isNone) = some (16384, t) ∧
     s.lineHeld (lineOf (4194303 : BitVec 22).toNat) = false ∧
     s.xlat.slots.find? (fun e => e.2.index == (4194303 : BitVec 22).toNat && e.2.st == .loading) = some (0, { dirtySlot 4194303 with st := .loading }) ∧
     (let s0 := (s.markSegment 4194303 t.outside).retire 16384
      (s0.setXlat { s0.xlat with slots := Tab.del s0.xlat.slots 0 }).entry 4194303 = lastGranule)) ∧
    segTack.flag fPoison = false ∧ (segTack.setFlag fPoison).flag fPoison = true ∧ lastGranule.st = .inMedia ∧
    (let s := mapped (fun x => { x with slots := [(0, dirtySlot 7), (1, dirtySlot 9)] })
     s.mapUp = true ∧ (7 : BitVec 22).toNat ∈ s.dirtySlots.map (fun e => e.2) ∧ (8 : BitVec 22).toNat ∉ s.dirtySlots.map (fun e => e.2)) ∧
    (let s := mapped (fun x => { x with badLines := [1, 2, 3, 524287, 5], errs := [{ line := 524287, count := 2, first := 0 }] })
     s.xlat.dirUp = true ∧ (524287 : BitVec 19).toNat ∈ s.xlat.badLines.take 4 ∧
     s.xlat.errs.any (fun e => e.line == (524287 : BitVec 19).toNat && decide (3 ≤ e.count)) = false ∧ s.xlat.pinsDue = [] ∧ s.lineCorrupt 524287 = false ∧ (5 : BitVec 19).toNat ∉ s.xlat.badLines.take 4) ∧
    up.powered = true ∧ bit (up.reg rXlatCtrl) 9 = true ∧ bit (({ up with regs := [(rXlatCtrl, 0)] }).reg rXlatCtrl) 9 = false ∧ up.xlat.spares = [] := by
  decide +kernel

def mapItem1 : MapItem := { leaf := 0, ctx := 5, addr := 77, sub := 0, source := none, tack := none }

/-- A welt of sequence `n` that names nothing. -/
def welt1 (n : Nat) : Welt :=
  { seq := n, setB := false, clean := true, holeFull := false, markRseq := 0, replayFrom := 4096, opSeconds := 0, progSeq := 0, fullSeconds := 0
    dir := [], segTable := [], pbs := [], stitches := [], stitchSeq := 1, mapFill := [], gone := [], pins := [], holes := [], ages := [], learned := [] }
def weltPage : JPage := { jseq := 1, epoch := 0, weltSeq := 0, recs := [.weltDone 1 0], primary := true, mirror := true }

/-- Die-block 3 of the rings of stream 7, every page at JSEQ 0, below REPLAY_FROM of the newest welt. -/
def ringed : State :=
  mapped (fun x => { x with welts := [welt1 1], pages := [weltPage], jCommit := some 0
                            ring := (List.range 1024).map (fun i => (14 * 4096 + 3072 + i, 0)) ++ (List.range 1024).map (fun i => (15 * 4096 + 3072 + i, 0)) })

theorem witness_updater_and_journal :
    (let s := mapped (fun x => { x with queue := [mapItem1] })
     s.mayMap = true ∧ s.xlat.queue.find? (fun i => s.updatable (granuleOf i.leaf)) = some mapItem1 ∧
     s.lineCorrupt (lineOf (granuleOf mapItem1.leaf)) = false ∧
     ((s.setXlat { s.xlat with queue := s.xlat.queue.erase mapItem1 }).mapLeaf mapItem1).pageAwaited = false) ∧
    (let s := mapped (fun x => { x with queue := [mapItem1], dir := [(1, { lastGranule with st := .resident, loc := 393216 })] })
     s.mayMap = true ∧ s.xlat.queue.find? (fun i => s.updatable (granuleOf i.leaf)) = some mapItem1 ∧
     s.lineCorrupt (lineOf (granuleOf mapItem1.leaf)) = true) ∧
    State.reset.mapUp = false ∧ State.reset.xlat.dirUp = false ∧ (List.replicate 4030 (JRec.deltaEnd 0)).length < 4031 ∧
    ringed.xlat.dirUp = true ∧ ringed.newestWelt = some (welt1 1) := by decide +kernel

set_option maxRecDepth 1000000 in
theorem witness_ring_erase :
    (ringed.xlat.ring.filter (fun e => e.1 / 8192 == (7 : Fin 8).val && e.1 / 1024 % 4 == (3 : Fin 4).val)).length = 2048 ∧
    (∀ e ∈ ringed.xlat.ring, e.1 / 8192 = (7 : Fin 8).val → e.1 / 1024 % 4 = (3 : Fin 4).val → e.2 < (welt1 1).replayFrom / 4096) := by
  decide +kernel

theorem witness_welts :
    (let s := mapped (fun x => { x with weltDue := true })
     s.mapUp = true ∧ s.xlat.run = none ∧ s.xlat.weltDue = true ∧ s.mustWrite false = [] ∧ s.imagesUnderWay false = false) ∧
    (let s := mapped (fun x => { x with weltDue := true, markRseq := 6, slots := [(0, dirtySlot 7)] })
     s.mapUp = true ∧ s.xlat.run = none ∧ s.mustWrite false = 7 :: []) ∧
    State.reset.xlat.run = none ∧ State.reset.xlat.weltDue = false ∧
    (∀ st ∈ ([[], [(0, (7, 255))]] : List (Tab (Nat × Nat))),
     let s := mapped (fun x => { x with run := some (.image (welt1 2) [] st) }); s.mapUp = true ∧ s.xlat.run = some (.image (welt1 2) [] st)) ∧
    (mapped id).barOpen = true ∧ (0x100 : Word).getLsbD 8 = true := by decide +kernel

def booting (st : MountStep) (b : List Byte) : State :=
  { upIn .mounting with boot := { State.reset.boot with step := st }, store := Store.reset.writeRecord recSlotPointer b
                        ctl := [(0, { DieCtl.init with online := true })] }

theorem witness_boot_attempts :
    (booting .boot ([255, 0, 1, 3] ++ zeros 4)).slotPtr = { active := 255, previous := 0, trial := true, attempts := 3 } ∧
    (booting .boot ([1, 255, 1, 2] ++ zeros 4)).slotPtr = { active := 1, previous := 255, trial := true, attempts := 2 } ∧
    (let s := booting .boot ([1, 255, 0, 3] ++ zeros 4)
     s.slotPtr = { active := 1, previous := 0xFF, trial := false, attempts := 3 } ∧ s.beginAttempt.2 = none) ∧
    (let s := booting .boot ([0, 255, 0, 0] ++ zeros 4)
     s.dev.state = .mounting ∧ s.boot.step = .boot ∧ s.bootReady = true ∧ s.cmdq.cmds = [] ∧ s.pointTrial.beginAttempt.2 = some 0 ∧
     s.pointTrial.beginAttempt.1.bootable 0 = true) ∧ ({ up with img := { Images.reset with slots := [(1, { header := [], len := 0, copies := 0 })] } }).bootable 1 = false ∧
    up.boot.step ≠ .boot ∧ up.boot.step ≠ .attempt ∧ (booting .attempt []).boot.step = .attempt := by decide +kernel

theorem witness_mount :
    newestOf [welt1 3, welt1 9, welt1 4] = some (welt1 9) ∧ newestOf [] = none ∧
    (∀ st ∈ [MountStep.ready, .welt, .pass1, .replayed], (booting st []).dev.state = .mounting ∧ (booting st []).boot.step = st) ∧
    (let s := { booting .ready [] with xlat := { Xlat.reset with welts := [welt1 1], chosen := some (welt1 1) } }
     s.isBlankDevice = false ∧ s.power.pfwLow = false ∧ s.arrayBusy = false ∧ s.power.faultWait = none ∧
     (s.xlat.welts.filter (fun x => [1].contains x.seq)).filter (s.setXlat { s.xlat with unread := [3] }).usable = [] ∧
     s.xlat.chosen = some (welt1 1)) ∧
    (let s := booting .welt []
     s.firstDies = [0] ∧ s.firstDies.all (fun k => (s.age k).read) = true) ∧
    (let s := { booting .welt [] with drift := { Drift.reset with dies := [(0, { DieAge.init with groups := 64 })] } }
     s.firstDies = [0] ∧ (s.age 0).brandRun = none ∧ (s.age 0).read = false) ∧
    up.xlat.chosen = none ∧ up.dev.state ≠ .mounting := by decide +kernel

theorem witness_brand :
    (let s := { up with drift := { Drift.reset with dies := [(767, { DieAge.init with provisional := true })] } }
     s.dev.state = .serving ∧ (s.age (dieKey 95 7)).provisional = true ∧ (s.age (dieKey 95 7)).read = true) ∧
    (let s := { upIn .maintenance with drift := { Drift.reset with dies := [(767, { DieAge.init with provisional := true, groups := 64 })] } }
     s.dev.state = .maintenance ∧ (s.age (dieKey 95 7)).provisional = true ∧ (s.age (dieKey 95 7)).read = false ∧
     ∀ i : DieNo, (s.age (dieKey 95 i)).brandRun = none) ∧
    (up.age 767).provisional = false ∧ up.barOpen = true ∧ (4 : Word).getLsbD 2 = true ∧ (4 : Word).getLsbD 3 = false ∧ (0 : Word).getLsbD 2 = false := by
  decide +kernel

/-! ### Witnesses: dies that start, faults that wait, further clauses -/

/-- Die 7 of channel 95 in a description that populates it, its octet's rails up, its channel and itself as given. -/
def startingDie (c : ChState) (x : Die) : State :=
  { upIn .powering with
      boot := { up.boot with bd := some (List.replicate 0x7F 0 ++ List.replicate 129 0x80) }
      power := { Power.reset with rails := [28, 29] }
      chans := [(95, { Channel.init with st := c })], dies := [(767, x)]
      ctl := [(767, { DieCtl.init with present := true, reinit := some [(0, [1, 2, 3])] })] }

theorem witness_dies_start :
    (startingDie .init Die.init).diePop (dieKey 95 7) = true ∧ (startingDie .init Die.init).diePop (dieKey 95 6) = false ∧
    (startingDie .init Die.init).power.rails.contains (6 + 2 * (95 / 8)) = true ∧ (startingDie .init Die.init).power.rails.contains (7 + 2 * (95 / 8)) = true ∧
    (∀ c ∈ [ChState.reset, .init, .training, .ready], ∀ x ∈ [Die.init, { Die.init with st := .rst }, dieIdle],
      ((startingDie c x).chan 95).st = c ∧ (startingDie c x).die (dieKey 95 7) = x) ∧
    ((startingDie .ready Die.init).ctlOf (dieKey 95 7)).reinit = some [(0, [1, 2, 3])] ∧ (up.ctlOf 0).reinit = none ∧
    (startingDie .init Die.init).diesOf 95 = [767] ∧ ((startingDie .init Die.init).diesOf 95).any (fun k => ((startingDie .init Die.init).ctlOf k).online) = false ∧
    (let s := { startingDie .init Die.init with ctl := [(767, { DieCtl.init with online := true })] }
     (s.diesOf 95).any (fun k => (s.ctlOf k).online) = true) := by decide +kernel

theorem witness_fault_waits :
    (let s := { dieIs (dieOp .prog prog0) with power := { Power.reset with faultWait := some causeBoot } }
     s.die 0 = dieOp .prog prog0 ∧ s.power.faultWait = some causeBoot ∧ s.arrayBusy = true) ∧ up.power.faultWait = none ∧
    ({ up with dies := [(0, dieOp .prog prog0)] }.ctlOf 0).timedOutAt = none := by decide +kernel

/-- A decode that has a decoder, and one that waits; a written codeword, and an erased one. -/
theorem witness_decode_ends :
    (reading .decoding).drift.decodeQ.contains 16384 = false ∧ (reading .decoding).cell (readAt 0 .decoding).addr.toNat = none ∧
    (readAt 0 .decoding).repeats = 0 ∧ (tackRead .decoding).op ≠ .burnishRead ∧
    Cell.erased ({ reading .decoding with media := [(0, cell0)] }.cell (readAt 0 .decoding).addr.toNat) false = false ∧
    Cell.erased none false = true ∧
    ({ reading .decoding with drift := { Drift.reset with decodeQ := [16384] } }).drift.decodeQ.contains 16384 = true := by decide +kernel

theorem witness_read_stages :
    (let t := { tackHost .hostRead with wait := .dirLine 0 }
     let s := { window .mapped [] with tacks := [(0, t)] }
     Tab.find s.tacks 0 = some t ∧ t.wait = .dirLine 0 ∧ (s.entry (granuleOf t.leaf.toNat)).bound = true ∧
     s.lineHeld (lineOf (granuleOf t.leaf.toNat)) = false ∧ (s.entry (granuleOf t.leaf.toNat)).ctx = 5 ∧ s.mustWait t = false) ∧
    (tackHost .hostRead).origin = .ctx 5 ∧ (tackHost .hostRead).wait = .none ∧ (window .mapped []).mustWait (tackHost .hostRead) = false ∧
    ((window .mapped []).ctx 5).key = .none := by decide +kernel

theorem witness_watchdog_unborn :
    (let s := { up with cache := { Cache.reset with requests := [{ req1 with write := true }, req1] } }
     Tab.find s.tacks 0xFFFF = none ∧ s.cache.pause = false ∧ s.cache.requests.find? (fun r => !r.write) = some req1) ∧
    ({ up with cache := { Cache.reset with pause := true } }).cache.pause = true := by decide +kernel

theorem witness_pins :
    (let s := { bound with xlat := { bound.xlat with dir := [(0, { ctx := 5, st := .absent, pinned := false, dirty := false, loc := 0 })] } }
     startsIn 0x33 (paired s .serving) (ctx5 0x33 [(0x24, 1)]) (fun s1 c => s1.runBound c.ctxOf 0 1 && !s1.heldRun 0 1 &&
       ((granuleRun 0 1).filter (fun g => !(s1.entry g).pinned) == [0]) && decide (s1.pinDemand + 1 ≤ s1.pinLimit)) = true ∧
     startsIn 0x34 (paired s .serving) (ctx5 0x34 [(0x24, 1)]) (fun s1 c => s1.runBound c.ctxOf 0 1 && !s1.heldRun 0 1) = true) ∧
    (let s := { bound with xlat := { bound.xlat with badLines := [0], dir := [(0, { ctx := 5, st := .absent, pinned := false, dirty := false, loc := 0 })] } }
     startsIn 0x33 (paired s .serving) (ctx5 0x33 [(0x24, 1)]) (fun s1 c => s1.runBound c.ctxOf 0 1 && s1.heldRun 0 1) = true ∧
     startsIn 0x34 (paired s .serving) (ctx5 0x34 [(0x24, 1)]) (fun s1 c => s1.runBound c.ctxOf 0 1 && s1.heldRun 0 1) = true) ∧
    startsIn 0x10 (paired up .serving) (ctx5 0x10 [(0x18, 0x7F000000 - 2 ^ 29), (0x20, 4194303), (0x24, 1)])
      (fun s1 c => !s1.ctxBusy c.ctxOf && attrOk (0x7F000000 - 2 ^ 29) && s1.runUnbound 4194303 1 && decide (s1.pinDemand + 1 ≤ s1.pinLimit)) = true := by
  decide +kernel

theorem witness_shutdown_brand :
    (shutting (.brand [0])).power.shutdown = .brand [0] ∧ ((shutting (.brand [])).brandAll []).2 = true ∧
    (let s := { shutting (.brand [5]) with tacks := [(0, { Tack.engine .brandHist engBrand 0 true with pg := some { prog1 with what := .brand 0 0 } })] }
     (s.brandAll []).2 = false) := by decide +kernel

/-! ### Witnesses: the whole machine -/

theorem witness_front_command : (up.withPending [.opSecondsTick, .reseed]).pending ≠ [] ∧
    step (up.withPending [.opSecondsTick, .reseed]) = exec .opSecondsTick (up.withPending [.reseed]) ∧ step up = .next up := by
  refine ⟨by decide +kernel, rfl, rfl⟩

theorem witness_command_answers : (match exec .opSecondsTick up with | .next _ => true | _ => false) = true := by decide +kernel

/-- The log is full, a port holds an event, and the step of EVENT_GRANT answers. -/
theorem witness_log_invariant : ((logged 2048 record1).withPending [.eventGrant]).LogOk ∧
    (match step ((logged 2048 record1).withPending [.eventGrant]) with | .next _ => true | _ => false) = true := by
  refine ⟨⟨by decide +kernel, ?_⟩, by decide +kernel⟩
  intro p
  show (Tab.get (logged 2048 record1).store.ports p []).length ≤ 4
  by_cases hp : p = 15
  · subst hp; decide +kernel
  · have h : ¬ 15 = p := fun e => hp e.symm
    simp [logged, Tab.get, Tab.find, h]

/-- A die in the middle of a program that has been suspended 15 times, and SUSPEND answers. -/
theorem witness_die_invariant : let x := { dieOp .prog prog0 with suspCount := 15, refs := [(0, (List.range 15).map (fun i => 1009 + i))] }
    ((dieIs x).withPending [.amc2Suspend 0 0 0]).DiesOk ∧
    (match step ((dieIs x).withPending [.amc2Suspend 0 0 0]) with | .next t => (t.die 0).st == .suspending && (t.die 0).suspCount == 15 | _ => false) = true := by
  intro x
  refine ⟨?_, by decide +kernel⟩
  intro k
  have hx : x.Ok := by
    refine ⟨by decide +kernel, fun h => absurd h (by decide +kernel), fun _ => ⟨prog0, rfl, rfl⟩, fun h => absurd h (by decide +kernel),
      fun h => absurd h (by decide +kernel), by decide +kernel⟩
  have hi : Die.init.Ok := by
    refine ⟨by decide +kernel, fun h => absurd h (by decide +kernel), fun h => absurd h (by decide +kernel), fun h => absurd h (by decide +kernel),
      fun h => absurd h (by decide +kernel), by decide +kernel⟩
  show (Tab.get (dieIs x).dies k Die.init).Ok
  by_cases hk : k = 0
  · subst hk; exact hx
  · have h : ¬ 0 = k := fun e => hk e.symm
    have e : Tab.get (dieIs x).dies k Die.init = Die.init := by simp [dieIs, Tab.get, Tab.find, h]
    rw [e]; exact hi

/-- Each clause of the completion rule: SUSPENDING with and without a queued sense, PROGRAM at 15 suspensions, ERASE. -/
theorem witness_completion_prevails :
    (∀ x ∈ [{ dieOp .suspending prog0 with qResume := true }, { dieOp .suspending erase0 with qSense := some (sense0 .soft) }],
      (dieIs x).die (dieKey 0 0) = x ∧ x.op.isSome = true ∧ x.st = .suspending) ∧
    (let x := { dieOp .prog prog0 with suspCount := 15 }
     x.op = some prog0 ∧ x.st = .prog ∧ prog0.erase = false ∧ x.suspCount < 16) ∧
    (dieOp .erase erase0).op = some erase0 ∧ erase0.erase = true := by decide +kernel

/-- A requester at 64 losses with no guarded win in the last 15 draws, on a channel whose slot has not been drawn for. -/
theorem witness_loss_counts :
    let s := (reading .ready).setArb 0 { (reading .ready).arbOf 0 with losses := [(5, 64)], sinceGuard := 15 }
    (s.chan 0).st = .ready ∧ ¬ ((s.arbOf 0).slot = .data ∧ (s.arbOf 0).drawn = true) ∧ 5 ∈ s.presentOn 0 ∧
    64 ≤ Tab.get (s.arbOf 0).losses 5 0 ∧ 15 ≤ (s.arbOf 0).sinceGuard := by decide +kernel

theorem witness_matching_event :
    (logged 2048 record1).store.nextEvent = some (15, event1, []) ∧ (logged 2048 record1).store.matchesLast event1 = true ∧
    (logged 2048 record1).store.evAt 2047 = record1 ∧ (logged 2048 EvRec.empty).store.matchesLast event1 = false := by decide +kernel

theorem witness_no_word : decodeTableWord 16 0 = none ∧ decodeTableWord 512 1 = none ∧ up.withFetchWord 512 1 = up := by
  refine ⟨by decide, by decide, rfl⟩

/-! ### Well-formedness -/

def hist64 : List Nat := List.replicate 64 0
/-- Events whose sector counts more bytes than a sector holds. -/
def ev65 : AccessEv := { dirCrc := false, sectors := [(0, 73)] }
def ev64 : AccessEv := { dirCrc := true, sectors := [(63, 3)] }
def cut1 (done n : Nat) : StoreCut := { erase := false, items := List.replicate n (0, []), opened := false, done := done }

/-- A packet of opcode 0, which no row has. -/
theorem test_wf_packets_refused :
    [Instr.identify .svc 0, .getState .svc 0, .getHealth .svc 0, .setWalltime .svc 0, .enterMaintenance .svc 0, .leaveMaintenance .svc 0,
      .prepareShelfDown .svc 0, .abort .svc 0, .ctxCreate .svc 0, .ctxModify .svc 0, .ctxDelete .svc 0, .ctxQuery .svc 0,
      .keyLoad .svc 0 .failed, .keyDestroy .svc 0, .cacheEnable .svc 0, .cacheDisable .svc 0, .cacheStatus .svc 0, .unmapRange .svc 0,
      .zeroRange .svc 0, .mapQuery .svc 0, .pinSegments .svc 0, .unpinSegments .svc 0, .getHoles .svc 0, .clearReadOnly .svc 0,
      .scrubNow .svc 0, .burnishNow .svc 0, .refreshNow .svc 0, .retireUnit .svc 0, .restoreUnit .svc 0, .mediaReport .svc 0,
      .retentionReport .svc 0, .powerStatus .svc 0, .holdupMeasure .svc 0, .setLimits .svc 0, .boardGet .svc 0, .boardSet .svc 0 .failed,
      .boardCommit .svc 0, .paramGet .svc 0, .paramSet .svc 0, .counterConfig .svc 0, .counterRead .svc 0, .sampleConfig .svc 0,
      .eventRead .svc 0, .eventClear .svc 0, .imageStage .svc 0 .failed, .imageStatus .svc 0, .imageActivate .svc 0, .imageDiscard .svc 0,
      .harnessJoin .svc 0, .harnessLeave .svc 0, .harnessQuery .svc 0].all (fun i => !i.wf) = true := by decide +kernel

/-- CACHE_RANGE packets with the operation of another row, a blob of 79 bytes, board data of another length. -/
theorem test_wf_operands_refused :
    [Instr.cacheRangeClean .svc (op20 1), .cacheRangeInvalidate .svc (op20 2), .cacheRangeDiscard .svc (op20 3), .cacheRangeLock .svc (op20 4),
      .cacheRangeUnlock .svc (op20 5), .cacheRangePrefetch .svc (op20 0), .keyLoad .svc (pk [(0, 0x14)]) (.bytes (zeros 79)),
      .boardSet .svc (pk [(0, 0x61), (0x1C, 8)]) (.bytes (zeros 7)), .registerWrite 2 0, .evtWinRead 3, .linkTraining 0 1 0 false,
      .linkTraining 7 1 0 false, .linkTraining 6 3 0 false].all (fun i => !i.wf) = true := by decide +kernel

theorem test_wf_accesses_refused :
    [Instr.memoryWindowRead 0 0 0 ev64, .memoryWindowRead 0 4097 0 ev64, .memoryWindowRead 0 1 0 ev65, .memoryWindowWrite 0 [] false ev64,
      .memoryWindowWrite 0 (zeros 4097) false ev64, .memoryWindowWrite 0 [0] false ev65, .cxlMemRd 0 0 ev65, .cxlMemWr 0 [] false ev64,
      .cxlMemWr 0 (zeros 65) false ev64, .cxlMemWr 0 [0] false ev65, .cxlClearEventRecords 0 0, .counterOverflow 0 0].all (fun i => !i.wf) = true := by
  decide +kernel

theorem test_wf_events_refused :
    [Instr.aonReset (some (cut1 2 1)) none, .aonReset (some (cut1 9 9)) none,
      .thermalSample (List.replicate 23 0) 0 0 0, .xferComplete 0 0 (List.replicate 63 0), .decodeDone 0 (.good 0 (List.replicate 14 0)),
      .amc2TrainWrStore 0 0 0 (zeros 63), .amc2SetRef 0 0 1 (List.replicate 14 0), .amc2ProgramLoad 0 0 1 0 0 0 (zeros 4607) 0,
      .retrainDone 0 true 0 0 0 (List.replicate 7 0), .scrubPatrol (BitVec.ofNat _ 786432) () (), .harnessPushReadback (.bytes (zeros 7))].all (fun i => !i.wf) = true := by decide +kernel

theorem test_wf_accepted :
    [Instr.getState .svc (pk [(0, 2)]), .cacheRangePrefetch .svc (op20 5), .keyLoad .svc (pk [(0, 0x14)]) (.bytes (zeros 80)),
      .boardSet .svc (pk [(0, 0x61), (0x1C, 8)]) (.bytes (zeros 8)), .registerWrite 4 0, .linkTraining 6 8 0 true, .memoryWindowRead 0 4096 0 ev64,
      .memoryWindowWrite 0 (zeros 4096) true ev64, .cxlMemWr 0 (zeros 64) false ev64, .aonReset (some (cut1 8 8)) none,
      .thermalSample (List.replicate 24 0) 0 0 0, .xferComplete 0 0 hist64, .xferComplete 0 0 [], .decodeDone 0 .erased,
      .amc2SetRef 0 0 1 (List.replicate 15 0), .amc2ProgramLoad 0 0 1 0 0 0 (zeros 4608) 0].all Instr.wf = true := by decide +kernel

/-! ### Worked examples of spec/ -/

/-- Unit paths of channel 43, die 5 and of octet 5 of device 291 (R2, the example of 00_scope.md). -/
theorem test_unit_paths : unitPath 0 291 5 3 5 = 0x00048D5D ∧ unitPath 2 291 5 0 0 = 0x02048D40 ∧ unitPath 3 291 0 0 0 = 0x03048C00 := by decide +kernel

/-- The media address of channel 43, die 5, plane 2, block 617, page 300, slot 6 (the example of 02_media_channels.md). -/
theorem test_media_address : mla 43 5 2 617 300 6 = 0x5764D2966 ∧ (dieOf 0x5764D2966) = 43 * 8 + 5 := by decide +kernel

/-- Draw 1 of channel 40 (the example of 03_channel_arbitration.md). -/
theorem test_draw_with_hr1 :
    let ts := [(0, 160), (2, 24), (3, 16), (5, 8)]
    lfsrStep 0x60000000 = 0xC0000000 ∧ (scramble 0xC0000000).toNat = 2003580780 ∧
    drawWinner (Arb.init 40) 0xC0000000 ts = (some 0, false) ∧ (afterDraw (Arb.init 40) ts (some 0)).hints = [(2, 8), (3, 13), (5, 15)] := by
  decide +kernel

/-- Draw 2: without HR1 the space override raises SKV to 96, and SKV wins; at its own 8 tickets MAP would have won. -/
theorem test_draw_with_the_space_override :
    let ts := [(2, 24), (3, 16), (5, 96)]
    let s := { up with dev := { up.dev with spaceLow := true } }
    lfsrStep 0xC0000000 = 0x80000001 ∧ (scramble 0x80000001).toNat = 1408978112 ∧
    s.effective 40 5 true false = 8 ∧ s.effective 40 5 false false = 96 ∧ s.effective 40 2 false false = 24 ∧
    drawWinner (Arb.init 40) 0x80000001 ts = (some 5, false) ∧ (afterDraw (Arb.init 40) ts (some 5)).hints = [(2, 5), (3, 8)] ∧
    drawWinner (Arb.init 40) 0x80000001 [(2, 24), (3, 16), (5, 8)] = (some 2, false) := by decide +kernel

/-- The bound under BALANCED and with the integrity override (R103). -/
theorem test_bound_safety : boundSafe (preset 0) = true ∧ boundSafe (fun c => if c = 7 then 128 else preset 0 c) = false ∧
    boundSafe (preset 1) = true ∧ boundSafe (preset 2) = true ∧ boundSafe (preset 3) = true := by decide +kernel

/-- Log age, bucket and centre of the reading example of 04_drift_reading.md, and its slope term. -/
theorem test_log_age : logAge 23997056 = 390 ∧ bucketOf 390 = 14 ∧ centreOf 14 = 392 ∧ rnd (72 * (-2)) 256 = -1 ∧ logAge 1023 = 160 ∧
    classOf Profile.standard.edges 512 = 1 := by decide +kernel

/-- The brand example of 04_drift_reading.md: the age of 14.5 octaves, and the lower bound of 30 days. -/
theorem test_brand_age : brandAge (29 / 2) / 256 = 23726566 ∧ unpowered (23726566 * 256) (40 * 256) 0 = 23726526 * 256 ∧
    bounded (23726526 * 256) (some 34560000) = (23726526 * 256, false) ∧ bounded (41000 * 256) (some 2592000) = (129600 * 256, true) := by
  decide +kernel

/-- The directory and leaf entries of the example of 05_translation.md. -/
theorem test_map_entries : granuleOf 0x123456789 = 0x123456 ∧ lineOf 0x123456 = 149130 ∧
    ({ ctx := 167, st := .resident, pinned := true, dirty := false, loc := 76864 } : DirEntry).word = 0x0A7A000000012C40 ∧
    ({ st := .mapped, gen := 0x153, hole := false, addr := 0x5764D2966 } : LeafEntry).word = 0x8054C005764D2966 := by decide +kernel

/-- The channels of STITCH_SEQ 29 (the example of 06_block_life.md). -/
theorem test_stitch_channels : (List.range 18).map (fun j => (stitchChans 29 j).headD 96) =
    [42, 51, 60, 69, 78, 87, 88, 1, 10, 19, 28, 37, 46, 55, 56, 65, 74, 83] := by decide +kernel

/-- The set, the choice among 13 ways and the tag word of the example of 07_line_cache.md. -/
theorem test_line_tag : setOf 0x123456789 = 0x044CD ∧ (0xB1C4 * 13) / 2 ^ 16 = 9 ∧
    ({ Line.empty 0x123456789 167 false with valid := BitVec.allOnes 64, dirty := 2 ^ 41 }).tagWord = 0xB00A748D10000044 := by decide +kernel

/-- The ceilings of the examples of 07_line_cache.md and 11_power.md. -/
theorem test_ceilings : State.reset.rawCeiling 24900 = 1759 ∧ State.reset.rawCeiling 17873 = 1105 ∧ State.reset.rawCeiling 25040 = 1772 := by
  decide +kernel

/-- The usable energies of the measurement example of 11_power.md, at 30.0 V and at 34.5 V. -/
theorem test_bank_energy :
    let s := { State.reset with regs := [(rPwrHoldCfg, 150 * 2 ^ 16 + 14000)] }
    s.energyAt 53000 95000 30000 = 17873 ∧ s.energyAt 52000 100000 34500 = 25040 := by decide +kernel

/-- Step 4 of the nested claim of Table 14.7, and an EOI with PFW still set, upon which vector 40 fires at once: source 3 at priority 15 over source 107 at 4. -/
def nested : State :=
  { up with
    regs := [(rPwrStatus, 2 ^ 5)]
    host := { up.host with unmasked := [40] }
    intc := { host := [(3, { Route.init with prio := 15, target := 5 }), (107, { Route.init with prio := 4, target := 5, active := true, activeAt := 5 })]
              core := [], targets := [(5, { Target.init with enable := true, vector := 40, runPrio := 4, stack := [0] })], coreTargets := [] } }

theorem test_nested_claim :
    (match exec (.claim 5) nested with
      | .next t => (let x := Tab.get t.intc.targets 5 Target.init; x.runPrio == 15 && x.stack == [4, 0]) && t.out.getLast? == some (.regRead 0x220A0 3)
      | _ => false) = true := by decide +kernel

theorem test_nested_eoi :
    (match exec (.claim 5) nested with
      | .next t => (match exec (.eoi 5 3) t with
        | .next u => let x := Tab.get u.intc.targets 5 Target.init; (x.runPrio == 4 && x.stack == [0]) && u.out.getLast? == some (.msix 40)
        | _ => false)
      | _ => false) = true := by decide +kernel

/-- Sensor 9 suspect and left out, sensor 14 not (the example of 14_interrupts_thermal.md): 95.0 degrees. -/
theorem test_junction :
    let l : List Int := (List.replicate 8 1280) ++ [1312, 1888, 1328, 1328, 1328, 1408, 1520, 1376] ++ List.replicate 8 1280
    suspect l 9 = true ∧ suspect l 14 = false ∧ junctionOf l = 1520 := by decide +kernel

/-- The check value of CRC-32C (R3). -/
theorem test_crc : crc32c check9 = 0xE3069283 := by decide +kernel

end Sys2Proof.Tests
end

section
/-! SUPPORT. `State.kept`: what no access, tack, command, journal record or event changes, lemma by lemma up to `advance`. -/

namespace Sys2Proof.Machine

/-! ### What accesses, tacks, commands, the journal and events keep -/

/-- The state of the block that is not theirs: the queue of commands, DEV_STATE, the power steward (but for whether the credits of a
cinch are frozen and whether a shutdown has begun), the pins, PFW_COUNT, the channels and the dies with the medium. -/
structure Kept where
  pending : List Instr
  state : DevState
  power : Power
  pins : List Out
  pfwCount : Nat
  chans : Tab Channel
  dies : Tab Die
  ctl : Tab DieCtl
  media : Tab Cell

/-- Whether an output is a level driven on a pin. -/
def Out.isPin (o : Out) : Bool := match o with | .pin _ _ => true | _ => false

/-- A cinch once its credits are frozen. -/
def Cinch.accepted (x : Cinch) : Cinch := if x.step = .accept then { x with step := .writeback } else x

/-- The power steward as `Kept` has it. -/
def Power.kept (p : Power) : Power := { p with cinch := p.cinch.map Cinch.accepted, shutdown := .none }

def State.kept (s : State) : Kept :=
  { pending := s.pending, state := s.dev.state, power := s.power.kept, pins := s.out.filter Out.isPin, pfwCount := s.reg rPwrPfwCount
    chans := s.chans, dies := s.dies, ctl := s.ctl, media := s.media }

section
variable (s : State)

theorem kept_foldl {α : Type} {f : State → α → State} (hf : ∀ s a, (f s a).kept = s.kept) (l : List α) : (l.foldl f s).kept = s.kept :=
  List.foldlRecOn l f (motive := fun t => t.kept = s.kept) rfl (fun _ ih a _ => (hf _ a).trans ih)

/-! #### Updates -/

@[simp] theorem kept_setCache (c : Cache) : (s.setCache c).kept = s.kept := by rfl
@[simp] theorem kept_setXlat (x : Xlat) : (s.setXlat x).kept = s.kept := by rfl
@[simp] theorem kept_setBlocks (b : Blocks) : (s.setBlocks b).kept = s.kept := by rfl
@[simp] theorem kept_setStore (st : Store) : (s.setStore st).kept = s.kept := by rfl
@[simp] theorem kept_setCmdq (c : Cmdq) : (s.setCmdq c).kept = s.kept := by rfl

@[simp] theorem rHpPoison_ne : rHpPoison ≠ rPwrPfwCount := by decide
@[simp] theorem rHpRefused_ne : rHpRefused ≠ rPwrPfwCount := by decide

@[simp] theorem kept_setReg {off : Nat} (v : Nat) (h : off ≠ rPwrPfwCount) : (s.setReg off v).kept = s.kept := by
  simp [State.kept, State.reg_setReg, h]

@[simp] theorem kept_emit {o : Out} (h : ∀ n l, o ≠ .pin n l) : (s.emit o).kept = s.kept := by
  have hp : o.isPin = false := by
    cases o with
    | pin n l => exact absurd rfl (h n l)
    | _ => rfl
  simp [State.kept, State.emit, hp, State.reg]

/-- A choice between states that `kept` does not tell from `s`. -/
theorem kept_ite {c : Prop} [Decidable c] {s a b : State} (ha : a.kept = s.kept) (hb : b.kept = s.kept) :
    (if c then a else b).kept = s.kept := by
  split
  · exact ha
  · exact hb

@[simp] theorem kept_setField {off : Nat} (lo w x : Nat) (h : off ≠ rPwrPfwCount) : (s.setField off lo w x).kept = s.kept := kept_setReg s _ h
@[simp] theorem kept_setBit {off : Nat} (i : Nat) (h : off ≠ rPwrPfwCount) : (s.setBit off i).kept = s.kept := kept_setReg s _ h
@[simp] theorem kept_bump {off : Nat} (lo w k : Nat) (h : off ≠ rPwrPfwCount) : (s.bump off lo w k).kept = s.kept := kept_setReg s _ h

@[simp] theorem kept_event (port code path : Nat) (params : List Byte) (tack : Nat) : (s.event port code path params tack).kept = s.kept := by
  simp only [State.event]
  split
  · rfl
  · simp

/-- An update of fields that `kept` does not show. -/
@[simp] theorem kept_update (nonce : Nat) (tacks : Tab Tack) (unborn : List Tack) (serial : Nat) (anyBlocks : List Nat) (progSeq : Nat)
    (life : Tab Life) (arbs : Tab Arb) (drift : Drift) (store : Store) (intc : Intc) (therm : Therm) (obs : Obs) (xlat : Xlat)
    (blocks : Blocks) (cache : Cache) (ctxs : Tab Ctx) (harness : Harness) (host : HostPort) (cmdq : Cmdq) (boot : Boot) (img : Images)
    (svc : Svc) :
    State.kept { s with nonce := nonce, tacks := tacks, unborn := unborn, serial := serial, anyBlocks := anyBlocks, progSeq := progSeq,
                        life := life, arbs := arbs, drift := drift, store := store, intc := intc, therm := therm, obs := obs, xlat := xlat,
                        blocks := blocks, cache := cache, ctxs := ctxs, harness := harness, host := host, cmdq := cmdq, boot := boot,
                        img := img, svc := svc } = s.kept := by rfl

@[simp] theorem kept_raise (id : Nat) : (s.raise id).kept = s.kept := by rfl

@[simp] theorem kept_msix (v : Nat) : (s.msix v).kept = s.kept := by
  simp only [State.msix]
  split
  · simp
  · rfl

@[simp] theorem kept_addCount (k inc : Nat) : (s.addCount k inc).kept = s.kept := by
  simp only [State.addCount]
  split
  · rfl
  · split <;> simp

@[simp] theorem kept_count (code : Nat) (t : Tag) (isT : Bool) : (s.count code t isT).kept = s.kept := by
  simp only [State.count]
  split
  · rfl
  · exact kept_foldl s (fun s e => by split <;> simp) _

/-! #### Tacks -/

@[simp] theorem kept_setTack (k : Nat) (t : Tack) : (s.setTack k t).kept = s.kept := by rfl
@[simp] theorem kept_updTack (k : Nat) (f : Tack → Tack) : (s.updTack k f).kept = s.kept := by rfl

@[simp] theorem kept_frame (ty : Byte) (payload : List Byte) : (s.frame ty payload).kept = s.kept := by
  simp only [State.frame]
  repeat' split
  all_goals simp

@[simp] theorem kept_retire (k : Nat) : (s.retire k).kept = s.kept := by
  simp only [State.retire]
  repeat' split
  all_goals simp

@[simp] theorem kept_birthAt (k : Nat) (t : Tack) (ch : Option Nat) : (s.birthAt k t ch).kept = s.kept := by
  simp only [State.birthAt, kept_count]
  rfl

@[simp] theorem kept_birth (t : Tack) (ch : Option Nat) : (s.birth t ch).1.kept = s.kept := by
  simp only [State.birth]
  repeat' split
  all_goals simp

theorem kept_of_birth {s t : State} {x : Tack} {ch o : Option Nat} (h : s.birth x ch = (t, o)) : t.kept = s.kept := by
  simpa [h] using kept_birth s x ch

@[simp] theorem kept_ask (t : Tack) : (s.ask t).1.kept = s.kept := by
  simp only [State.ask]
  split <;> rename_i h <;> simp [kept_of_birth h]

@[simp] theorem kept_bear (p : Tack → Bool) : (s.bear p).kept = s.kept := by
  refine kept_foldl s (fun s t => ?_) _
  split
  · rename_i h
    simp [kept_of_birth h]
  · rfl

/-! #### The journal -/

@[simp] theorem kept_spawnProgram (op : TackOp) (e : BitVec 12) (rein : Option Rein) (db page : Nat) (cws : Tab PageCw) (what : ProgFor) :
    (s.spawnProgram op e rein db page cws what).1.kept = s.kept := kept_ask s _

@[simp] theorem kept_writeJournal (p : JPage) (second : Bool) : (s.writeJournal p second).kept = s.kept := by
  simp [State.writeJournal]

@[simp] theorem kept_closePage : s.closePage.kept = s.kept := by
  simp only [State.closePage]
  repeat' split
  all_goals simp

@[simp] theorem kept_append (r : JRec) : (s.append r).kept = s.kept := by
  simp only [State.append]
  split <;> simp

/-! #### Commands -/

@[simp] theorem kept_setQueue (q : Nat) (x : Queue) : (s.setQueue q x).kept = s.kept := by rfl

@[simp] theorem kept_updCmd (id : Nat) (f : Cmd → Cmd) : (s.updCmd id f).kept = s.kept := by rfl

@[simp] theorem kept_settlePair (q : Fin 1024) : (s.settlePair q).kept = s.kept := by
  simp only [State.settlePair]
  split <;> simp

@[simp] theorem kept_postEntry (q : Nat) (e : List Byte) (n : Bool) : (s.postEntry q e n).kept = s.kept := by
  simp [State.postEntry, apply_ite State.kept]

@[simp] theorem kept_postReady (q n : Nat) : (s.postReady q n).kept = s.kept := by
  induction n generalizing s with
  | zero => rfl
  | succ n ih =>
    simp only [State.postReady]
    repeat' split
    all_goals simp [ih]

@[simp] theorem kept_finish (c : Cmd) (code detail : Nat) (r : Option (List Byte)) : (s.finish c code detail r).kept = s.kept := by
  simp only [State.finish, State.respond]
  repeat' split
  all_goals simp

@[simp] theorem kept_crossedCommands : s.crossedCommands.kept = s.kept :=
  kept_foldl s (fun s c => by split <;> simp) _

/-! #### Errors and credits -/

@[simp] theorem kept_aerCorrectable (b : Nat) : (s.aerCorrectable b).kept = s.kept := by
  simp only [State.aerCorrectable, State.errMessage]
  split <;> simp

@[simp] theorem kept_aer (e : AerError) (h : List Byte) : (s.aer e h).kept = s.kept := by
  simp only [State.aer, State.errMessage]
  repeat' split
  all_goals simp

@[simp] theorem kept_sendCredit (a : HostAddr) (cxl : Bool) : (s.sendCredit a cxl).kept = s.kept := by
  simp [State.sendCredit]

@[simp] theorem kept_updCtx (c : Nat) (f : Ctx → Ctx) : (s.updCtx c f).kept = s.kept := by rfl

/-! #### Lines -/

@[simp] theorem kept_setLine (k : Nat) (l : Line) : (s.setLine k l).kept = s.kept := by rfl

@[simp] theorem kept_keepCommits (p : Commit → Bool) : (s.keepCommits p).kept = s.kept := by
  simp only [State.keepCommits]
  refine (kept_foldl _ (fun s o => ?_) _).trans (kept_setCache s _)
  split <;> simp

@[simp] theorem kept_dropCommits (leaf : Nat) : (s.dropCommits leaf).kept = s.kept := kept_keepCommits s _

@[simp] theorem kept_dropLine (k : Nat) : (s.dropLine k).kept = s.kept := by
  simp only [State.dropLine]
  repeat' split
  all_goals simp

@[simp] theorem kept_poisonDrop (k tack : Nat) : (s.poisonDrop k tack).kept = s.kept := by
  simp only [State.poisonDrop]
  split <;> simp

@[simp] theorem kept_invalidate (k tack : Nat) : (s.invalidate k tack).kept = s.kept := by
  simp only [State.invalidate]
  repeat' split
  all_goals simp

@[simp] theorem kept_listDirty (k : Nat) (wt : Bool) : (s.listDirty k wt).kept = s.kept := by
  simp only [State.listDirty]
  repeat' split
  all_goals simp

@[simp] theorem kept_allocate (leaf tack : Nat) : (s.allocate leaf tack).1.kept = s.kept := by
  simp only [State.allocate]
  repeat' split
  all_goals simp

theorem kept_of_allocate {s t : State} {leaf tack : Nat} {a : Alloc} (h : s.allocate leaf tack = (t, a)) : t.kept = s.kept := by
  simpa [h] using kept_allocate s leaf tack

@[simp] theorem kept_sweepLine (k : Nat) : (s.sweepLine k).kept = s.kept := by
  simp only [State.sweepLine]
  repeat' split
  all_goals simp

/-! #### Segments and leaves -/

@[simp] theorem kept_setEntry (g : Nat) (e : DirEntry) : (s.setEntry g e).kept = s.kept := by rfl
@[simp] theorem kept_updPb (k : Nat) (f : PbRec → PbRec) : (s.updPb k f).kept = s.kept := by rfl

@[simp] theorem kept_evict (k : Nat) : (s.evict k).kept = s.kept := by
  simp only [State.evict]
  split <;> simp

@[simp] theorem kept_segRoom (g : Nat) : (s.segRoom g).1.kept = s.kept := by
  simp only [State.segRoom]
  repeat' split
  all_goals simp

theorem kept_of_segRoom {s t : State} {g : Nat} {o : Option Nat} (h : s.segRoom g = (t, o)) : t.kept = s.kept := by
  simpa [h] using kept_segRoom s g

@[simp] theorem kept_placeSegment (g k : Nat) (leaves : Tab LeafEntry) : (s.placeSegment g k leaves).kept = s.kept := by rfl

@[simp] theorem kept_bringIn (g : Nat) : (s.bringIn g).kept = s.kept := by
  simp only [State.bringIn]
  split
  · rfl
  · split <;> rename_i h <;> simp [kept_of_segRoom h]

@[simp] theorem kept_setLeaf (leaf rseq : Nat) (f : LeafEntry → LeafEntry) : (s.setLeaf leaf rseq f).kept = s.kept := by
  simp only [State.setLeaf]
  split <;> simp

@[simp] theorem kept_unmapOld (e : LeafEntry) : (s.unmapOld e).kept = s.kept := by
  simp only [State.unmapOld, State.subValid]
  split <;> simp

@[simp] theorem kept_voidWritebacks (first n : Nat) : (s.voidWritebacks first n).kept = s.kept := by rfl

@[simp] theorem kept_leafState (st : LeafSt) (first n reason : Nat) (hole : Bool) : (s.leafState st first n reason hole).kept = s.kept := by
  simp only [State.leafState, kept_voidWritebacks]
  refine (kept_foldl _ (fun s i => by simp) _).trans ?_
  split <;> simp

@[simp] theorem kept_enterHoles (h : Hole) : (s.enterHoles h).kept = s.kept := by
  refine kept_foldl s (fun s h => ?_) _
  simp only [State.enterHole]
  repeat' split
  all_goals simp

@[simp] theorem kept_poisonLeaf (leaf reason : Nat) (at' : Option MediaAddr) : (s.poisonLeaf leaf reason at').kept = s.kept := by
  simp only [State.poisonLeaf, State.poisonNow]
  repeat' split
  all_goals simp

/-! #### Reads -/

@[simp] theorem kept_sendPiece (r : HostReq) (c : Nat) (tag : Tag) (bs : List Byte) : (s.sendPiece r c tag bs).kept = s.kept := by
  have h : ∀ (ps : List (List Byte)), (ps.foldl (fun s p => s.emit (r.answer r.poison p)) s).kept = s.kept :=
    kept_foldl s (fun s p => by
      simp only [HostReq.answer]
      split <;> simp)
  simp only [State.sendPiece]
  split <;> simp [h]

@[simp] theorem kept_sendReady (ps : List (Nat × Tack)) : (s.sendReady ps).kept = s.kept := by
  induction ps generalizing s with
  | nil => rfl
  | cons e ps ih =>
    simp only [State.sendReady]
    repeat' split
    all_goals simp [ih]

@[simp] theorem kept_countOutside (t : Tack) : (s.countOutside t).kept = s.kept := by
  simp only [State.countOutside]
  repeat' split
  all_goals simp

@[simp] theorem kept_complete (k : Nat) : (s.complete k).kept = s.kept := by
  simp only [State.complete]
  repeat' split
  all_goals simp

@[simp] theorem kept_deliver (k : Nat) (bs : List Byte) (poison : Bool) : (s.deliver k bs poison).kept = s.kept := by
  simp only [State.deliver]
  repeat' split
  all_goals simp

@[simp] theorem kept_tryComplete (k : Nat) : (s.tryComplete k).kept = s.kept := by
  simp only [State.tryComplete]
  repeat' split
  all_goals simp

@[simp] theorem kept_failRead (r : HostReq) (st : CplStatus) : (s.failRead r st).kept = s.kept := by
  have h : ((s.readsOf r.tag).foldl (fun s e => s.retire e.1) s).kept = s.kept := kept_foldl s (fun s (e : Nat × Tack) => kept_retire s e.1) _
  simp only [State.failRead, HostReq.answer]
  repeat' split
  all_goals simp [h]

@[simp] theorem kept_beginRead (k : Nat) (a : MediaAddr) {lost : State → State} (h : ∀ s, (lost s).kept = s.kept) :
    (s.beginRead k a lost).kept = s.kept := by
  simp only [State.beginRead]
  repeat' split
  all_goals simp [h]

@[simp] theorem kept_spawnFill (k : Nat) (t : Tack) (a : MediaAddr) (ctx : BitVec 12) : (s.spawnFill k t a ctx).kept = s.kept := by
  simp only [State.spawnFill]
  split <;> rename_i h <;> simp [kept_of_birth h]

@[simp] theorem kept_spawnSegRead (g : Nat) (host : Bool) (parent cmd : Option Nat) : (s.spawnSegRead g host parent cmd).kept = s.kept := by
  unfold State.spawnSegRead
  refine kept_ite rfl ?_
  split
  · rfl
  · rename_i u slot h
    extract_lets a sl t t1 t2
    split <;> rename_i hb
    · exact kept_ite (by simp [kept_of_birth hb, kept_of_segRoom h]) (by simp [kept_of_birth hb, kept_of_segRoom h])
    · exact (kept_of_birth hb).trans (kept_of_segRoom h)

@[simp] theorem kept_awaitSegment (k g : Nat) (host : Bool) : (s.awaitSegment k g host).kept = s.kept := by
  simp [State.awaitSegment]

@[simp] theorem kept_dropStale (leaf : Nat) : (s.dropStale leaf).kept = s.kept := by
  simp only [State.dropStale]
  repeat' split
  all_goals simp

@[simp] theorem kept_poisonDue : s.poisonDue.kept = s.kept := by
  refine kept_foldl s (fun s p => ?_) _
  dsimp only
  repeat' split
  all_goals simp

@[simp] theorem kept_updaterReads : s.updaterReads.kept = s.kept := by
  simp only [State.updaterReads]
  split
  · exact kept_foldl s (fun s g => kept_spawnSegRead s _ _ _ _) _
  · rfl

@[simp] theorem kept_sectorLost (leaf sector tack : Nat) : (s.sectorLost leaf sector tack).kept = s.kept := by
  simp only [State.sectorLost]
  repeat' split
  all_goals simp

@[simp] theorem kept_meetBad (leaf : Nat) (m : BitVec 64) (tack : Nat) : (s.meetBad leaf m tack).1.kept = s.kept := by
  refine List.foldlRecOn _ _ (motive := fun (a : State × Bool) => a.1.kept = s.kept) rfl (fun a ih i _ => ?_)
  repeat' split
  all_goals simp [ih]

@[simp] theorem kept_meetFaults (k : Nat) (t : Tack) (ev : AccessEv) (m : BitVec 64) : (s.meetFaults k t ev m).1.kept = s.kept := by
  simp only [State.meetFaults]
  repeat' split
  all_goals simp

@[simp] theorem kept_readMiss (k : Nat) (t : Tack) (r : HostReq) (e : DirEntry) (c : Ctx) (off : Nat) (blocked : Bool) :
    (s.readMiss k t r e c off blocked).kept = s.kept := by
  have start : ∀ (u : State) a, (u.beginRead k a (fun s => s.deliver k [] true)).kept = u.kept := fun u a => kept_beginRead u k a (by simp)
  simp only [State.readMiss]
  split
  · simp
  · split
    · simp
    · refine kept_ite (by simp) ?_
      split
      · exact start s _
      · split <;> rename_i h <;> simp [start, kept_of_allocate h]
    · split <;> simp

@[simp] theorem kept_tryRead (k : Nat) : (s.tryRead k).kept = s.kept := by
  unfold State.tryRead
  split
  · rfl
  split
  · rfl
  rename_i t _ _ r _
  extract_lets leaf g passed e0 e c off u blocked
  have hu : u.kept = s.kept := by rfl
  have hm := kept_meetFaults u k t r.ev (touched off r.len)
  generalize u.meetFaults k t r.ev (touched off r.len) = p at hm ⊢
  obtain ⟨v, lost⟩ := p
  refine kept_ite rfl (kept_ite (by simp) (kept_ite (by simp [hu]) (kept_ite (by simp [hu]) (kept_ite ?_ ?_))))
  · simp_all
  · dsimp only
    split
    · refine kept_ite (by simp_all) (kept_ite ?_ (by simp_all))
      rw [kept_deliver]
      exact kept_ite (by simp_all) (hm.trans hu)
    · simp_all

/-! #### Writes -/

@[simp] theorem kept_noteWrite (t : Tack) (r : HostReq) (ctx : BitVec 12) : (s.noteWrite t r ctx).kept = s.kept := by rfl

@[simp] theorem kept_returnCredit (r : HostReq) : (s.returnCredit r).kept = s.kept := by
  simp only [State.returnCredit]
  split <;> simp

/-- Credits that freeze are what `kept` does not show of a cinch. -/
@[simp] theorem kept_acceptEnds : s.acceptEnds.kept = s.kept := by
  simp only [State.acceptEnds]
  split
  · rename_i x hx
    split
    · rename_i h
      simp [State.kept, Power.kept, Cinch.accepted, State.reg, hx, h.1]
    · rfl
  · rfl

@[simp] theorem kept_acceptFull : s.acceptFull.kept = s.kept := by
  simp only [State.acceptFull]
  split <;> simp

@[simp] theorem kept_mergeWrite (k w : Nat) (t : Tack) (r : HostReq) (l : Line) (off : Nat) : (s.mergeWrite k w t r l off).kept = s.kept := by
  simp [State.mergeWrite]

@[simp] theorem kept_placeLine (k leaf : Nat) (ctx : BitVec 12) (c : Ctx) (poisoned : Bool) :
    (s.placeLine k leaf ctx c poisoned).1.kept = s.kept := by
  simp only [State.placeLine]
  split
  · rfl
  · split <;> rename_i h <;> simp [kept_of_allocate h]

theorem kept_of_placeLine {s t : State} {k leaf : Nat} {ctx : BitVec 12} {c : Ctx} {poisoned : Bool} {o : Option (Nat × Line)}
    (h : s.placeLine k leaf ctx c poisoned = (t, o)) : t.kept = s.kept := by
  simpa [h] using kept_placeLine s k leaf ctx c poisoned

@[simp] theorem kept_tryWrite (k : Nat) : (s.tryWrite k).kept = s.kept := by
  unfold State.tryWrite
  split
  · rfl
  split
  · rfl
  rename_i t _ _ r _
  extract_lets leaf e c off passed
  refine kept_ite rfl (kept_ite rfl ?_)
  have hm := kept_meetFaults s k t r.ev (touched off r.len &&& ~~~covered off r.len)
  generalize s.meetFaults k t r.ev (touched off r.len &&& ~~~covered off r.len) = p at hm ⊢
  obtain ⟨v, lost⟩ := p
  dsimp only at hm ⊢
  split
  · simp [hm]
  · split <;> rename_i h
    · exact (kept_of_placeLine h).trans hm
    · refine kept_ite (by simp [kept_of_placeLine h, hm]) ?_
      split <;> simp [kept_of_placeLine h, hm]

/-! #### Prefetches, write-backs and the range engine -/

@[simp] theorem kept_tryPrefetch (k : Nat) : (s.tryPrefetch k).kept = s.kept := by
  unfold State.tryPrefetch
  split
  · rfl
  extract_lets leaf e c lock u
  have hu : u.kept = s.kept := by rfl
  refine kept_ite hu (kept_ite (by simp [hu]) (kept_ite hu ?_))
  split
  · simp [hu]
  · refine kept_ite (by simp [hu]) ?_
    split <;> rename_i h
    · exact (kept_of_placeLine h).trans hu
    · rename_i v w l
      have hv := (kept_of_placeLine h).trans hu
      extract_lets v1 l1
      have hv1 : v1.kept = s.kept := kept_ite hv hv
      refine kept_ite (by simp [hv1]) ?_
      split <;> simp [hv1]

@[simp] theorem kept_tryWriteback (k : Nat) : (s.tryWriteback k).kept = s.kept := by
  unfold State.tryWriteback
  split
  · rfl
  rename_i t _
  extract_lets leaf
  refine kept_ite rfl (kept_ite rfl ?_)
  have hm := kept_meetBad s leaf (BitVec.allOnes 64) k
  generalize s.meetBad leaf (BitVec.allOnes 64) k = p at hm ⊢
  obtain ⟨v, lost⟩ := p
  dsimp only at hm ⊢
  repeat' split
  all_goals simp [hm]

@[simp] theorem kept_takeVictim (k w : Nat) : (s.takeVictim k w).kept = s.kept := by
  simp only [State.takeVictim]
  repeat' split
  all_goals simp

@[simp] theorem kept_flushLine (k : Nat) (o : CommitFor) : (s.flushLine k o).kept = s.kept := by
  simp only [State.flushLine]
  repeat' split
  all_goals simp

@[simp] theorem kept_rangeLeaf (r : RangeOp) (leaf tack : Nat) : (s.rangeLeaf r leaf tack).1.kept = s.kept := by
  simp only [State.rangeLeaf]
  repeat' split
  all_goals simp

@[simp] theorem kept_tryRange (k : Nat) : (s.tryRange k).kept = s.kept := by
  simp only [State.tryRange]
  split
  · rfl
  split
  · split
    · repeat' split
      all_goals simp
    · simp
  · refine kept_ite rfl ?_
    split
    · rfl
    · rename_i t _ _ _ _ r _
      have hm := kept_rangeLeaf s r t.leaf.toNat k
      generalize s.rangeLeaf r t.leaf.toNat k = p at hm ⊢
      obtain ⟨v, r', e⟩ := p
      dsimp only at hm ⊢
      split <;> simp [hm]

@[simp] theorem kept_tryTack (k : Nat) : (s.tryTack k).kept = s.kept := by
  unfold State.tryTack
  split
  · rfl
  rename_i t _
  extract_lets ready u
  have hu : u.kept = s.kept := by
    simp only [u]
    split
    · exact kept_ite rfl (by simp)
    · rfl
  refine kept_ite rfl (kept_ite rfl ?_)
  repeat' split
  all_goals simp [hu]

/-! #### Requests -/

@[simp] theorem kept_refuseWrite (r : HostReq) (reason : Nat) (abort : Bool) : (s.refuseWrite r reason abort).kept = s.kept := by
  have hc : ∀ (u : State) l, (List.foldl (fun s c => s.updCtx c (fun x => { x with refused := satAdd 0xFFFF x.refused 1 })) u l).kept = u.kept :=
    fun u l => kept_foldl u (fun s c => by simp) l
  unfold State.refuseWrite
  extract_lets s1 s2 s3 s4
  have h1 : s1.kept = s.kept := kept_ite (by simp) (by simp)
  have h2 : s2.kept = s.kept := kept_ite ((hc _ _).trans h1) h1
  have h3 : s3.kept = s.kept := kept_ite h2 (by simp [h2])
  have h4 : s4.kept = s.kept := kept_ite (by simp [h3]) h3
  simp [h4]

@[simp] theorem kept_birthPieces (r : HostReq) : (s.birthPieces r).kept = s.kept := by
  simp only [State.birthPieces]
  refine (kept_foldl _ (fun s k => kept_ite (by simp) (by simp)) _).trans ?_
  refine List.foldlRecOn _ _ (motive := fun (a : State × List Nat) => a.1.kept = s.kept) rfl (fun a ih leaf _ => ?_)
  split <;> rename_i h <;> exact (kept_of_birth h).trans ih

theorem kept_some_ite {c : Prop} [Decidable c] {s : State} {a b : Option State} (ha : ∀ t, a = some t → t.kept = s.kept)
    (hb : ∀ t, b = some t → t.kept = s.kept) (t : State) (h : (if c then a else b) = some t) : t.kept = s.kept := by
  by_cases hc : c
  · exact ha t ((if_pos hc).symm.trans h)
  · exact hb t ((if_neg hc).symm.trans h)

theorem kept_takeIn (r : HostReq) : ∀ t, s.takeIn r = some t → t.kept = s.kept := by
  have waits : ∀ t : State, none = some t → t.kept = s.kept := fun t h => nomatch h
  have refuses (reason : Nat) (abort : Bool) : ∀ t, some (s.refuseWrite r reason abort) = some t → t.kept = s.kept := by simp
  have fails (st : CplStatus) : ∀ t, some (s.failRead r st) = some t → t.kept = s.kept := by simp
  have either (abort : Bool) (st : CplStatus) :
      ∀ t, some (if r.write then s.refuseWrite r 0 abort else s.failRead r st) = some t → t.kept = s.kept := by
    split <;> simp
  have born : ∀ t, some (s.birthPieces r) = some t → t.kept = s.kept := by simp
  unfold State.takeIn
  refine kept_some_ite waits (kept_some_ite (either _ _) (kept_some_ite (either _ _) (kept_some_ite (either _ _)
    (kept_some_ite (refuses _ _) (kept_some_ite waits (kept_some_ite ?_ ?_))))))
  · exact kept_some_ite waits (kept_some_ite (refuses _ _) (kept_some_ite (refuses _ _) (kept_some_ite (refuses _ _)
      (kept_some_ite waits (kept_some_ite waits born)))))
  · exact kept_some_ite (kept_some_ite (fails _) born) waits

@[simp] theorem kept_pump (n : Nat) : (s.pump n).kept = s.kept := by
  induction n generalizing s with
  | zero => rfl
  | succ n ih =>
    simp only [State.pump]
    split
    · rfl
    split
    · rename_i h
      exact (ih _).trans ((kept_takeIn _ _ _ h).trans (kept_setCache s _))
    · refine kept_ite rfl ?_
      split
      · rfl
      split
      · rename_i h
        exact (ih _).trans ((kept_takeIn _ _ _ h).trans (kept_setCache s _))
      · rfl

@[simp] theorem kept_endCommits : s.endCommits.kept = s.kept := kept_keepCommits s _

/-! #### Commands over runs -/

@[simp] theorem kept_save (id : Nat) (p : List Byte) : (s.save id p).kept = s.kept := by rfl
@[simp] theorem kept_storeCtx (c : Nat) (x : Ctx) : (s.storeCtx c x).kept = s.kept := by rfl
@[simp] theorem kept_with_dev {d : Dev} (h : d.state = s.dev.state) : State.kept { s with dev := d } = s.kept := by
  simp [State.kept, State.reg, h]

@[simp] theorem kept_checkSpace : s.checkSpace.kept = s.kept := by
  unfold State.checkSpace
  refine kept_ite rfl ?_
  extract_lets f d u
  have hd (b : Bool) : State.kept { s with dev := { d with spaceLow := b } } = s.kept := rfl
  have hu : u.kept = s.kept := kept_ite (by simp [hd]) (kept_ite (hd _) rfl)
  exact kept_ite (by simp [State.enterReadOnly, hu]) hu

@[simp] theorem kept_leaveHoles (first n : Nat) : (s.leaveHoles first n).kept = s.kept := by
  simp only [State.leaveHoles]
  split <;> simp

@[simp] theorem kept_dropRun (first n : Nat) : (s.dropRun first n).kept = s.kept := kept_foldl s (fun s k => kept_dropLine s k) _

@[simp] theorem kept_clearRun (zero : Bool) (first n : Nat) : (s.clearRun zero first n).kept = s.kept := by
  simp [State.clearRun]

@[simp] theorem kept_clearLeaves (zero : Bool) (first last serial n : Nat) : (s.clearLeaves zero first last serial n).1.kept = s.kept := by
  induction n generalizing s first serial with
  | zero => rfl
  | succ n ih =>
    simp only [State.clearLeaves]
    repeat' split
    all_goals simp [ih]

@[simp] theorem kept_needRunTack (id first : Nat) : (s.needRunTack id first).1.kept = s.kept := by
  simp only [State.needRunTack]
  split
  · rfl
  · split <;> rename_i h <;> exact kept_of_birth h

@[simp] theorem kept_endRunTack (id : Nat) : (s.endRunTack id).kept = s.kept := by
  simp only [State.endRunTack]
  split <;> simp

@[simp] theorem kept_dropSegment (g rseq : Nat) : (s.dropSegment g rseq).kept = s.kept := by
  simp only [State.dropSegment, kept_setEntry, kept_setXlat]
  exact kept_ite rfl rfl

@[simp] theorem kept_unbindGranule (g : Nat) : (s.unbindGranule g).kept = s.kept := by
  simp only [State.unbindGranule, kept_append, kept_setXlat, kept_setEntry, kept_dropSegment, kept_leaveHoles]
  exact (kept_foldl _ (fun s e => kept_unmapOld s e) _).trans (kept_ite (by simp) (by simp))

@[simp] theorem kept_unbindRun (gs : List Nat) : (s.unbindRun gs).1.kept = s.kept := by
  induction gs generalizing s with
  | nil => rfl
  | cons g gs ih =>
    simp only [State.unbindRun]
    split <;> simp [ih]

@[simp] theorem kept_checkMailbox : s.checkMailbox.kept = s.kept := by
  simp only [State.checkMailbox]
  split <;> simp

@[simp] theorem kept_sweepGranule (g : Nat) : (s.sweepGranule g).kept = s.kept := by
  simp [State.sweepGranule]

@[simp] theorem kept_pin (g : Nat) (on : Bool) : (s.pin g on).kept = s.kept := kept_ite rfl rfl

@[simp] theorem kept_pinRun (c first n : Nat) : (s.pinRun c first n).kept = s.kept := by
  simp only [State.pinRun, kept_append]
  exact kept_foldl _ (fun s g => kept_pin s g true) _

@[simp] theorem kept_unpinRun (c first n : Nat) : (s.unpinRun c first n).kept = s.kept := by
  simp only [State.unpinRun, kept_append]
  exact kept_foldl _ (fun s g => kept_pin s g _) _

@[simp] theorem kept_bindRun (c first n : Nat) : (s.bindRun c first n).kept = s.kept := by
  simp only [State.bindRun]
  refine kept_ite rfl ?_
  rw [kept_append]
  exact kept_foldl _ (fun s g => (rfl : (s.bindGranule c g).kept = s.kept)) _

@[simp] theorem kept_stepRunCommand (c : Cmd) : (s.stepRunCommand c).kept = s.kept := by
  simp only [State.stepRunCommand]
  split
  · rename_i zero first last _
    have hn := kept_needRunTack s c.id first
    generalize s.needRunTack c.id first = p at hn ⊢
    obtain ⟨v, _ | ⟨_, t⟩⟩ := p
    · exact hn
    have hc := (kept_clearLeaves v zero first last t.serial (last / 4096 - first / 4096 + 1)).trans hn
    dsimp only
    generalize v.clearLeaves zero first last t.serial (last / 4096 - first / 4096 + 1) = q at hc ⊢
    obtain ⟨w, next⟩ := q
    dsimp only at hc ⊢
    generalize hu : (if next = first ∧ ¬(zero = true ∧ w.dev.readOnly = true) then w else w.endRunTack c.id) = u
    have hk : u.kept = s.kept := hu ▸ kept_ite hc (by simp [hc])
    exact kept_ite (by simp [hk]) (kept_ite (by simp [hk]) (by simp [hk]))
  · rename_i gs _
    have hn := kept_unbindRun s gs
    generalize s.unbindRun gs = p at hn ⊢
    obtain ⟨v, rest⟩ := p
    dsimp only at hn ⊢
    split
    · rw [kept_updCmd, kept_checkMailbox]
      exact kept_ite hn hn
    · exact hn
  · refine kept_ite rfl ?_
    rw [kept_updCmd]
    exact kept_foldl s (fun s k => kept_dropLine s k) _
  · split
    · simp
    · exact kept_ite (by simp) rfl
  · refine kept_ite rfl ?_
    split <;> simp
  · rfl

@[simp] theorem kept_stepRunCommands : s.stepRunCommands.kept = s.kept :=
  kept_ite (kept_foldl s (fun s c => kept_stepRunCommand s c) _) rfl

/-- What follows from a change elsewhere leaves alone what `kept` shows. -/
@[simp] theorem kept_advance : s.advance.kept = s.kept := by
  unfold State.advance
  extract_lets s1 ks s2 s3 s4 s5
  have h1 : s1.kept = s.kept := kept_endCommits s
  have h2 : s2.kept = s.kept := (kept_bear _ _).trans ((kept_foldl _ (fun s k => kept_tryTack s k) _).trans h1)
  have h3 : s3.kept = s.kept := by simp [s3, h2]
  have h4 : s4.kept = s.kept := kept_ite h3 ((kept_foldl _ (fun s k => kept_sweepLine s k) _).trans h3)
  simp [s5, h4]

end

end Sys2Proof.Machine
end

section
/-! SUPPORT. Entry to CINCH and the power-fail warning, as `State.kept` shows them. -/

namespace Sys2Proof.Machine

section
variable (s : State)

/-! ### Registers -/

/-- A word holds every register whose reset value is one. -/
theorem State.reg_lt {off : Nat} (h : regReset off < 2 ^ 32) : s.reg off < 2 ^ 32 := by
  unfold State.reg
  split
  · exact BitVec.isLt _
  · exact h

/-- A counter that fills its register rises up to the largest value of a word. -/
theorem State.reg_bump_word {off : Nat} (h : regReset off < 2 ^ 32) : (s.bump off 0 32 1).reg off = Nat.min 0xFFFFFFFF (s.reg off + 1) := by
  have hv := s.reg_lt h
  have hmod : s.reg off / 2 ^ 0 % 2 ^ 32 = s.reg off := by omega
  have hmin : Nat.min (2 ^ 32 - 1) (s.reg off + 1) < 2 ^ 32 := lt_of_le_of_lt (Nat.min_le_left _ _) (by norm_num)
  simp only [State.bump, State.setField, State.reg_setReg, State.field, setBits, bits, satAdd, if_true, hmod, Nat.mod_eq_of_lt hmin]
  simp

/-! ### Entry to CINCH -/

theorem kept_setPower (p : Power) : (s.setPower p).kept = { s.kept with power := p.kept } := by rfl

theorem kept_goto (st : DevState) : (s.goto st).kept = { s.kept with state := st } := by rfl

@[simp] theorem kept_setArb (ch : Nat) (a : Arb) : (s.setArb ch a).kept = s.kept := by rfl
@[simp] theorem kept_markL1 (ch : Nat) : (s.markL1 ch).kept = s.kept := by rfl
@[simp] theorem kept_markAll : s.markAll.kept = s.kept := by rfl
@[simp] theorem kept_setAge (k : Nat) (a : DieAge) : (s.setAge k a).kept = s.kept := by rfl
@[simp] theorem kept_tick : s.tick.kept = s.kept := by rfl
@[simp] theorem kept_cinchCommands : s.cinchCommands.kept = s.kept := by rfl

@[simp] theorem kept_judge (ch : Nat) : (s.judge ch).kept = s.kept := by
  have hr : rArbOvr ch ≠ rPwrPfwCount := by
    simp only [rArbOvr, arbBase, rPwrPfwCount]
    omega
  unfold State.judge
  extract_lets a unbound off n s1 s2 sum s3
  have h1 : s1.kept = s.kept := kept_setArb s ch _
  have h2 : s2.kept = s.kept := kept_ite (by simp [h1]) h1
  have h3 : s3.kept = s.kept := kept_ite (by simp [h2, hr]) h2
  exact kept_ite rfl (kept_ite (by simp [h3]) h3)

@[simp] theorem kept_judgeAll : s.judgeAll.kept = s.kept := kept_foldl s (fun s ch => kept_judge s ch) _

@[simp] theorem kept_settleProvisional : s.settleProvisional.kept = s.kept := by
  simp only [State.settleProvisional, kept_update]
  exact kept_foldl s (fun s e => kept_ite (by simp) rfl) _

/-- The power steward as a device enters CINCH. -/
def Power.enterCinch (p : Power) (why : CinchWhy) (fault : Option Nat) : Power :=
  { p with cinch := some { why := why, fault := fault, step := .writeback, deltaRseq := none }, meas := none
           pathMain := p.pathMain || why != .pfw, pathHold := p.pathHold && why == .pfw }

/-- Of what `kept` shows, entry to CINCH changes DEV_STATE, the paths, the measurement and the cinch (Table 11.6). -/
theorem kept_enterCinch (why : CinchWhy) (fault : Option Nat) :
    (s.enterCinch why fault).kept = { s.kept with state := .cinch, power := s.power.kept.enterCinch why fault } := by
  have hp : s.settleProvisional.power.kept = s.power.kept := congrArg Kept.power (kept_settleProvisional s)
  simp only [State.enterCinch, kept_advance, kept_judgeAll, kept_cinchCommands, kept_crossedCommands, kept_markAll, kept_goto, kept_update,
    kept_setBlocks, kept_setCache, kept_setPower, kept_settleProvisional, ← hp]
  rfl

theorem kept_drive (name : String) (level : Bool) :
    (s.drive name level).kept = { s.kept with pins := s.kept.pins ++ [.pin name level] } := by
  simp [State.drive, State.emit, State.kept, Out.isPin, State.reg]

theorem kept_bump_pfwCount :
    (s.bump rPwrPfwCount 0 32 1).kept = { s.kept with pfwCount := Nat.min 0xFFFFFFFF (s.reg rPwrPfwCount + 1) } := by
  rw [← s.reg_bump_word (by decide)]
  rfl

/-- The power steward once the power-fail warning has fired outside STANDBY. -/
def Power.warned (p : Power) : Power :=
  { p with pfwLive := true, pfwLow := true, pathHold := true, pathMain := false, chg := false, meas := none }

/-- The power-fail warning takes SERVING to CINCH on the hold path, drives PFW_N low and counts (R371, Table 11.6). -/
theorem kept_pfw_of_serving (h : s.dev.state = .serving) :
    s.pfw.kept = { s.kept with state := .cinch, power := s.power.warned.kept.enterCinch .pfw none, pins := s.kept.pins ++ [.pin "PFW_N" false]
                               pfwCount := Nat.min 0xFFFFFFFF (s.reg rPwrPfwCount + 1) } := by
  have hc : rPwrStatus ≠ rPwrPfwCount := by decide
  have hs : ((((s.setPower s.power.warned).bump rPwrPfwCount 0 32 1).setBit rPwrStatus 5).drive "PFW_N" false).dev.state = .serving := h
  have e : s.pfw = ((((s.setPower s.power.warned).bump rPwrPfwCount 0 32 1).setBit rPwrStatus 5).drive "PFW_N" false).enterCinch .pfw none := by
    simp only [Power.warned] at hs ⊢
    simp only [State.pfw, hs, h, reduceCtorEq, if_false]
  rw [e, kept_enterCinch, kept_drive, kept_setBit _ _ hc, kept_bump_pfwCount, kept_setPower]
  rfl

end

/-! ### From `kept` to what a command answers -/

section
variable {s t : State}

theorem State.Trails.state_eq (h : s.Trails t) : t.dev.state = s.kept.state := congrArg Dev.state h.dev

theorem State.Trails.power_kept (h : s.Trails t) : t.power.kept = s.power.kept := by
  have := congrArg (fun p : Power => p.kept) h.power
  exact this

theorem State.Trails.pin_mem (h : s.Trails t) {o : Out} (ho : o ∈ s.kept.pins) : o ∈ t.out := h.out.subset (List.mem_filter.mp ho).1

end

end Sys2Proof.Machine
end

section
/-! SUPPORT. Power failure and the AON island: loss of power on the medium, the parameter store through an AON boot, and O42. -/

namespace Sys2Proof.Machine

/-! ### Loss of power -/

section
variable {s : State}

/-- No die that the array holds busy runs or holds a program. -/
theorem State.erases_of_not_busy (h : s.arrayBusy = false) {k : Nat} {o : ArrayOp} (ho : (s.die k).op = some o) : o.erase = true := by
  unfold State.die Tab.get at ho
  cases hf : Tab.find s.dies k with
  | none => simp [hf, Die.init] at ho
  | some d =>
    have hd := List.any_eq_false.mp h _ (Tab.mem_of_find _ _ _ hf)
    simpa [show d.op = some o by simpa [hf] using ho] using hd

theorem State.spoil_dies (k : Nat) (o : ArrayOp) : (s.spoil k o).dies = s.dies := by
  unfold State.spoil
  split <;> rfl

theorem State.dieDark_dies (k : Nat) : (s.dieDark k).dies = Tab.del s.dies k := by
  unfold State.dieDark
  dsimp only
  split
  · rw [State.spoil_dies]
  · rfl

theorem State.dieDark_not_busy (h : s.arrayBusy = false) (k : Nat) : (s.dieDark k).arrayBusy = false := by
  unfold State.arrayBusy at h ⊢
  rw [State.dieDark_dies]
  exact List.any_eq_false.mpr fun x hx => List.any_eq_false.mp h x ((Tab.del_sublist _ _).subset hx)

theorem State.dieDark_media (h : s.arrayBusy = false) (k : Nat) : (s.dieDark k).media = s.media := by
  unfold State.dieDark
  dsimp only
  split
  · rename_i o ho
    simp [State.spoil, s.erases_of_not_busy h ho]
  · rfl

/-- Dies that lose power in no program leave the medium as it is (R72). -/
theorem State.darken_media (h : s.arrayBusy = false) (p : Nat → Bool) : (s.darken p).media = s.media :=
  (List.foldlRecOn _ State.dieDark (motive := fun t => t.media = s.media ∧ t.arrayBusy = false) ⟨rfl, h⟩
    fun _ ih k _ => ⟨(State.dieDark_media ih.2 k).trans ih.1, State.dieDark_not_busy ih.2 k⟩).1

end

/-! ### The parameter store -/

section
variable (st : Store)

theorem Store.record_congr {a b : Store} (h : a.copies = b.copies) (id : Nat) : a.record id = b.record id := by
  simp only [Store.record, Store.taken, Store.seqOf, h]

theorem Store.scanLog_copies (i n : Nat) : (st.scanLog i n).copies = st.copies := by
  induction n generalizing st i with
  | zero => rfl
  | succ n ih =>
    simp only [Store.scanLog]
    repeat' split
    all_goals simp [ih]

/-- A scan ends the log at most at the last place that it looks at (R410). -/
theorem Store.scanLog_evCount_le (i n : Nat) : (st.scanLog i n).evCount ≤ i + n := by
  induction n generalizing st i with
  | zero => exact Nat.le_refl i
  | succ n ih =>
    have hs (st : Store) : (st.scanLog (i + 1) n).evCount ≤ i + (n + 1) := (ih st (i + 1)).trans_eq (by omega)
    unfold Store.scanLog
    dsimp only
    split
    · exact Nat.le_add_right i _
    split
    · exact hs _
    split
    · exact hs _
    · exact Nat.le_add_right i _

theorem Store.writeOp_single_copies (id : Nat) (p : List Byte) :
    (st.writeOp [(id, p)]).copies = Tab.put st.copies (2 * id + (st.target id).1) (.valid (st.target id).2 p) := by rfl

theorem Store.target_copy_le (id : Nat) : (st.target id).1 ≤ 1 := by
  unfold Store.target
  repeat' split
  all_goals simp

theorem Store.taken_le {id c : Nat} (h : st.taken id = some c) : c ≤ 1 := by
  unfold Store.taken at h
  repeat' split at h
  all_goals simp only [Option.some.injEq, reduceCtorEq] at h
  all_goals omega

theorem Store.seqOf_writeOp_same (id : Nat) (p : List Byte) (c : Nat) :
    (st.writeOp [(id, p)]).seqOf id c = if (st.target id).1 = c then some (st.target id).2 else st.seqOf id c := by
  by_cases hc : (st.target id).1 = c <;> simp [Store.seqOf, Store.writeOp_single_copies, Tab.find_put, hc]

/-- A read takes the copy that was written last (R401, R402). -/
theorem Store.taken_writeOp_same (id : Nat) (p : List Byte) : (st.writeOp [(id, p)]).taken id = some (st.target id).1 := by
  simp only [Store.taken, Store.seqOf_writeOp_same]
  cases h0 : st.seqOf id 0 with
  | none => cases h1 : st.seqOf id 1 <;> simp [Store.target, h0, h1]
  | some a =>
    cases h1 : st.seqOf id 1 with
    | none => simp [Store.target, h0, h1]
    | some b => by_cases hab : a < b <;> simp [Store.target, h0, h1, hab]

theorem Store.record_writeOp_same (id : Nat) (p : List Byte) : (st.writeOp [(id, p)]).record id = some p := by
  simp [Store.record, Store.taken_writeOp_same, Store.writeOp_single_copies]

/-- The copies of other records stand (R402). -/
theorem Store.record_writeOp_other {id j : Nat} (h : id ≠ j) (p : List Byte) : (st.writeOp [(id, p)]).record j = st.record j := by
  have hc := st.target_copy_le id
  have hf (c : Nat) (h1 : c ≤ 1) : Tab.find (st.writeOp [(id, p)]).copies (2 * j + c) = Tab.find st.copies (2 * j + c) := by
    rw [Store.writeOp_single_copies, Tab.find_put, if_neg (by omega)]
  have ht : (st.writeOp [(id, p)]).taken j = st.taken j := by
    simp only [Store.taken, Store.seqOf, hf 0 (by omega), hf 1 (by omega)]
  unfold Store.record
  rw [ht]
  cases hk : st.taken j with
  | none => rfl
  | some c => simp only [hf c (st.taken_le hk)]

end

/-! ### AON boot -/

section
variable {s : State}

theorem State.recoverAll_of_none_open (h : s.store.journal.all (fun e => !e.2.opened) = true) :
    s.recoverAll = s.setStore { s.store with bootAction := 0 } := by
  have hn : (s.store.journal.filter (fun e => e.2.opened)) = [] := by
    simpa [List.filter_eq_nil_iff] using h
  simp [State.recoverAll, State.setStore, hn, sortBy]

/-- The store after an AON boot that finds no open journal entry (R403, R405, R410). -/
def Store.booted (st : Store) : Store :=
  let st := { st with bootAction := 0 }.scanLog 0 2048
  let nat := fun id => ((st.record id).map ofLe).getD 0
  let n := nat recPowerCycles + 1
  { st with powerCycles := n, opSeconds := nat recOpSeconds, evOverflow := nat recEvtOverflow }.writeOp [(recPowerCycles, le 8 n)]

theorem execAonBoot_of_standby (hs : s.dev.state = .standby) (h : s.store.journal.all (fun e => !e.2.opened) = true) :
    ∃ x, exec .aonBoot s = s.done x ∧ x.store = s.store.booted ∧
      x.dev.unitId = BitVec.ofNat 14 (((s.store.booted.record recUnitId).map ofLe).getD 0) := by
  have e : exec .aonBoot s = execAonBoot s := rfl
  simp only [e, execAonBoot, hs, ne_eq, not_true_eq_false, if_false, State.recoverAll_of_none_open h]
  repeat' split
  all_goals exact ⟨_, rfl, rfl, rfl⟩

end

section
variable (st : Store)

theorem Store.scanned_record (id : Nat) : ({ st with bootAction := 0 }.scanLog 0 2048).record id = st.record id :=
  Store.record_congr ((Store.scanLog_copies _ 0 2048).trans rfl) id

theorem Store.booted_powerCycles : st.booted.powerCycles = ((st.record recPowerCycles).map ofLe).getD 0 + 1 := by
  rw [← Store.scanned_record]
  rfl

theorem Store.booted_opSeconds : st.booted.opSeconds = ((st.record recOpSeconds).map ofLe).getD 0 := by
  rw [← Store.scanned_record]
  rfl

theorem Store.booted_evCount_le : st.booted.evCount ≤ 2048 := Store.scanLog_evCount_le _ 0 2048

theorem Store.booted_record_powerCycles :
    st.booted.record recPowerCycles = some (le 8 (((st.record recPowerCycles).map ofLe).getD 0 + 1)) := by
  rw [← st.scanned_record recPowerCycles]
  exact Store.record_writeOp_same _ _ _

/-- The boot writes no record but that of the power cycles. -/
theorem Store.booted_record_other {id : Nat} (h : recPowerCycles ≠ id) : st.booted.record id = st.record id := by
  rw [← st.scanned_record id]
  exact (Store.record_writeOp_other _ h _).trans (Store.record_congr rfl id)

end

/-! ### Power failure and the AON island -/

theorem pfw_of_serving {s : State} (hl : s.power.pfwLive = false) (hs : s.dev.state = .serving) :
    Answers .pfw s (fun t => t.dev.state = .cinch ∧ t.power.pathHold = true ∧ t.power.pathMain = false ∧ t.power.pfwLive = true ∧
      Out.pin "PFW_N" false ∈ t.out ∧ t.reg rPwrPfwCount = Nat.min 0xFFFFFFFF (s.reg rPwrPfwCount + 1)) := by
  have hk := kept_pfw_of_serving s hs
  refine Answers.of_done (x := s.pfw) (congrArg s.done (if_neg (by simp [hl]))) fun t ht => ?_
  have hp : t.power.kept = s.power.warned.kept.enterCinch .pfw none := ht.power_kept.trans (congrArg Kept.power hk)
  refine ⟨ht.state_eq.trans (congrArg Kept.state hk), (congrArg Power.pathHold hp).trans ?_, (congrArg Power.pathMain hp).trans ?_,
    congrArg Power.pfwLive hp, ht.pin_mem ?_, (ht.reg rPwrPfwCount (by decide)).trans (congrArg Kept.pfwCount hk)⟩
  · rfl
  · rfl
  · rw [hk]
    exact List.mem_append_right _ (List.mem_singleton_self _)

theorem aonReset_of_uncut (s : State) :
    Answers (.aonReset none none) s (fun t => t.dev = Dev.reset ∧ (∀ off, off ∉ trailRegs → t.reg off = regReset off) ∧
      t.store.copies = s.store.copies ∧ t.store.evlog = s.store.evlog ∧ t.svc = Svc.reset ∧ t.media = (s.darken (fun _ => true)).media ∧
      (s.arrayBusy = false → t.media = s.media) ∧ t.tacks = []) := by
  refine Answers.of_done rfl fun t ht => ?_
  have hm : t.media = (s.darken (fun _ => true)).media := ht.media
  exact ⟨ht.dev, fun off h => ht.reg off h, (congrArg Store.copies ht.store).trans rfl,
    (congrArg Store.evlog ht.store).trans rfl, ht.svc, hm,
    fun h => hm.trans (State.darken_media h _), ht.tacks⟩

theorem aonBoot_of_standby {s : State} (hs : s.dev.state = .standby) (h : s.store.journal.all (fun e => !e.2.opened) = true) :
    Answers .aonBoot s (fun t =>
      t.store.powerCycles = (s.recordNat recPowerCycles).getD 0 + 1 ∧ t.store.opSeconds = (s.recordNat recOpSeconds).getD 0 ∧
      t.store.record recPowerCycles = some (le 8 ((s.recordNat recPowerCycles).getD 0 + 1)) ∧
      t.dev.unitId = BitVec.ofNat 14 ((s.recordNat recUnitId).getD 0) ∧ t.store.evCount ≤ 2048) := by
  obtain ⟨x, hx, hst, hu⟩ := execAonBoot_of_standby hs h
  refine Answers.of_done hx fun t ht => ?_
  rw [ht.store, hst, ht.dev, hu, Store.booted_record_other _ (show recPowerCycles ≠ recUnitId by decide)]
  exact ⟨s.store.booted_powerCycles, s.store.booted_opSeconds, s.store.booted_record_powerCycles, rfl, s.store.booted_evCount_le⟩

/-- Settles O42: each row is its own meaning; the frame of `kept` carries the warning through the entry to CINCH. -/
theorem powerFailAndAon : Obligations.PowerFailAndAon := by
  intro mv s
  refine ⟨fun h => ?_, pfw_of_serving, ?_, fun h => ?_, fun h => ?_, ?_, aonReset_of_uncut s, aonBoot_of_standby, fun h => ?_, fun h => ?_, fun h => ?_⟩
  · exact Effect.of_done (congrArg s.done (if_pos h))
  · exact Effect.of_done rfl
  · exact Effect.of_done (congrArg s.done (if_neg (by simp [h])))
  · exact Effect.of_done (congrArg s.done (if_pos h))
  · exact Effect.of_done rfl
  · exact Effect.of_done (if_pos h)
  · exact Effect.of_done (congrArg s.done (if_pos h))
  · exact Effect.of_done (congrArg s.done (if_neg h))

end Sys2Proof.Machine
end

section
/-! SUPPORT. The steps of the cinch and its ends: O43. -/

namespace Sys2Proof.Machine

/-! ### Ends of a cinch -/

@[simp] theorem Power.kept_pfwLow (p : Power) : p.kept.pfwLow = p.pfwLow := rfl
@[simp] theorem Power.kept_cutCause (p : Power) : p.kept.cutCause = p.cutCause := rfl

section
variable (s : State)

theorem State.powerDown_state : s.powerDown.dev.state = .poweringDown := by
  simp only [State.powerDown]
  split <;> rfl

theorem State.powerDown_power : s.powerDown.power =
    { s.power with chg := false, meas := none, up := .none, offAsked := false, cinch := none, tempCeiling := false, faultWait := none } := by
  simp only [State.powerDown]
  split <;> rfl

@[simp] theorem kept_aerFree (e : AerError) : (s.aerFree e).kept = s.kept := by
  simp [State.aerFree]

@[simp] theorem kept_faultCommands : s.faultCommands.kept = s.kept :=
  kept_foldl s (fun s c => by
    split
    · exact kept_ite rfl (by simp)
    · rfl) _

/-- Entry to FAULT with no power-fail warning before (R33, Table 1.15). -/
theorem kept_enterFault {s : State} (h : s.power.pfwLow = false) (cause : Nat) :
    (s.enterFault cause).kept =
      { s.kept with state := .fault, power := { s.power.kept with cinch := none, meas := none, up := .none, faultWait := none } } := by
  unfold State.enterFault
  extract_lets prev p s1 s2 s3
  have h1 : s1.kept = { s.kept with power := { s.power.kept with cinch := none, meas := none, up := .none, faultWait := none } } := by rfl
  have h2 : s2.kept = s1.kept := kept_ite (by simp) rfl
  have h3 : s3.kept =
      { s.kept with state := .fault, power := { s.power.kept with cinch := none, meas := none, up := .none, faultWait := none } } := by
    simp [s3, kept_goto, h2, h1]
  have hp : s3.power.kept = { s.power.kept with cinch := none, meas := none, up := .none, faultWait := none } := congrArg Kept.power h3
  have hl : s3.power.pfwLow = false := by simpa [h] using congrArg Power.pfwLow hp
  rw [if_neg (by simp [hl]), h3]

/-- What the end of a cinch records before the device powers down or enters FAULT (R373): its cause, the cut, and the event. -/
def State.recordCut (s : State) (x : Cinch) (cause : Nat) : State :=
  let s := s.setPower { s.power with cutCause := cause }
  let s := if cause = 2 then s.bump rPwrCuts 16 16 1 else if cause = 3 then s.bump rPwrCuts 0 16 1 else s
  if cause = 1 then s
  else ({ s with host := { s.host with cinchCut := true } }).event portPower 0x0109 s.devicePath
    (le 4 s.dirtyLines ++ le 1 x.step.lastDone ++ le 1 cause)

theorem kept_recordCut (x : Cinch) (cause : Nat) :
    (s.recordCut x cause).kept = { s.kept with power := { s.power.kept with cutCause := cause } } := by
  have hc : rPwrCuts ≠ rPwrPfwCount := by decide
  unfold State.recordCut
  extract_lets p s1 s2
  have h2 : s2.kept = s1.kept := kept_ite (by simp [hc]) (kept_ite (by simp [hc]) rfl)
  exact (kept_ite h2 (by simp [h2])).trans rfl

theorem State.recordCut_power (x : Cinch) (cause : Nat) : (s.recordCut x cause).power.kept = { s.power.kept with cutCause := cause } :=
  congrArg Kept.power (kept_recordCut s x cause)

theorem State.recordCut_cutCause (x : Cinch) (cause : Nat) : (s.recordCut x cause).power.cutCause = cause := by
  simpa using congrArg Power.cutCause (s.recordCut_power x cause)

theorem State.recordCut_pfwLow (x : Cinch) (cause : Nat) : (s.recordCut x cause).power.pfwLow = s.power.pfwLow := by
  simpa using congrArg Power.pfwLow (s.recordCut_power x cause)

/-- The device powers down for a cinch that ended with `cause`. -/
structure State.DownBy (u : State) (cause : Nat) : Prop where
  state : u.dev.state = .poweringDown
  cause : u.power.cutCause = cause
  cinch : u.power.cinch = none
  faultWait : u.power.faultWait = none

variable {s} {x : Cinch} (hx : s.power.cinch = some x)
include hx

theorem State.endCinch_of_no_fault (h : x.fault = none) (cause : Nat) : s.endCinch cause = (s.recordCut x cause).powerDown := by
  simp only [State.endCinch, hx, h, State.recordCut]

theorem State.endCinch_of_fault {f : Nat} (h : x.fault = some f) (cause : Nat) : s.endCinch cause = (s.recordCut x cause).enterFault f := by
  simp only [State.endCinch, hx, h, State.recordCut]

/-- A cinch that ends without a fault powers the device down (R33, R373). -/
theorem State.endCinch_downBy (h : x.fault = none) (cause : Nat) : (s.endCinch cause).DownBy cause := by
  have hp := (s.recordCut x cause).powerDown_power
  rw [State.endCinch_of_no_fault hx h]
  exact ⟨State.powerDown_state _, (congrArg Power.cutCause hp).trans (s.recordCut_cutCause x cause),
    congrArg Power.cinch hp, congrArg Power.faultWait hp⟩

/-- A cinch that ends after a fault goes on to FAULT, unless the power fails (R33, R373). -/
theorem State.endCinch_faults {f : Nat} (h : x.fault = some f) (hl : s.power.pfwLow = false) (cause : Nat) :
    (s.endCinch cause).dev.state = .fault ∧ (s.endCinch cause).power.cutCause = cause := by
  have he := kept_enterFault ((s.recordCut_pfwLow x cause).trans hl) f
  have hp : ((s.recordCut x cause).enterFault f).power.kept = _ := congrArg Kept.power he
  have hc : ((s.recordCut x cause).enterFault f).power.cutCause = cause := by
    simpa [State.kept, State.recordCut_cutCause] using congrArg Power.cutCause hp
  rw [State.endCinch_of_fault hx h]
  exact ⟨congrArg Kept.state he, hc⟩

end

/-! ### The rows of a cinch -/

section
variable {s : State} {x : Cinch} (hx : s.power.cinch = some x) (hs : s.dev.state = .cinch)
include hx hs

theorem State.cinchAt_eq (c : CinchStep) : s.cinchAt c = (x.step == c) := by
  simp [State.cinchAt, hx, hs]

theorem State.acceptEnds_of_accept (h : x.step = .accept) :
    s.acceptEnds = (s.setCache { s.cache with frozen := true }).setCinchStep .writeback := by
  simp [State.acceptEnds, State.setCinchStep, State.setCache, State.setPower, hx, hs, h]

theorem cinchSteps_of_cinch :
    (x.step = .accept → Effect .cinchAcceptEnd s ((s.setCache { s.cache with frozen := true }).setCinchStep .writeback).advance) ∧
    (x.step = .writeback → s.writtenBack = true → Effect .cinchWritebackComplete s (s.setCinchStep .parity)) ∧
    (x.step = .writeback → s.writtenBack = false → Effect .cinchWritebackComplete s s) ∧
    (x.step = .parity → s.blocks.stitches = [] → s.tacks = [] → Effect .cinchParityComplete s (s.flushJournal.setCinchStep .journal)) ∧
    (x.step ≠ .accept → Effect .cinchAcceptEnd s s) ∧ (x.step ≠ .journal → Effect .cinchJournalComplete s s) := by
  have hat := State.cinchAt_eq hx hs
  refine ⟨fun h => ?_, fun h hw => ?_, fun h hw => ?_, fun h hst ht => ?_, fun h => ?_, fun h => ?_⟩
  · rw [← State.acceptEnds_of_accept hx hs h]
    exact Effect.of_done (congrArg s.done (if_pos (by simp [hat, h])))
  · exact Effect.of_done (congrArg s.done (if_pos (by simp [hat, h, hw])))
  · exact Effect.of_done (congrArg s.done (if_neg (by simp [hw])))
  · exact Effect.of_done (congrArg s.done (if_pos (by simp [hat, h, hst, ht])))
  · exact Effect.of_done (congrArg s.done (if_neg (by simp [hat, h])))
  · exact Effect.of_done (congrArg s.done (if_neg (by simp [hat, h])))

end

/-- A cinch past its step 4 is as `kept` shows it. -/
theorem Cinch.eq_of_accepted {y x : Cinch} (h : y.accepted = x.accepted) (hx : x.step ≠ .accept) (hw : x.step ≠ .writeback) : y = x := by
  unfold Cinch.accepted at h
  rw [if_neg hx] at h
  split at h
  · exact absurd (congrArg Cinch.step h).symm hw
  · exact h

/-- Journal records do not move a cinch past its write-back. -/
theorem cinch_of_kept {s t : State} {x : Cinch} (h : t.kept = s.kept) (hx : s.power.cinch = some x) (ha : x.step ≠ .accept)
    (hw : x.step ≠ .writeback) : t.power.cinch = some x := by
  have hm : t.power.cinch.map Cinch.accepted = some x.accepted := by
    have := congrArg (fun k => k.power.cinch) h
    simpa [State.kept, Power.kept, hx] using this
  obtain ⟨y, hy, he⟩ := Option.map_eq_some_iff.mp hm
  rw [hy, Cinch.eq_of_accepted he ha hw]

/-- The delta ends with its length, and holds the age of every online die (R199). -/
theorem State.deltaRecords_eq (s : State) :
    ∃ rs, s.deltaRecords = rs ++ [JRec.deltaEnd rs.length] ∧ ∀ e ∈ s.ctl, e.2.online = true → JRec.age e.1 (s.age e.1).counter ∈ rs := by
  refine ⟨_, rfl, fun e he ho => ?_⟩
  simp only [List.append_assoc]
  exact List.mem_append_left _ (List.mem_map.mpr ⟨e, List.mem_filter.mpr ⟨he, ho⟩, rfl⟩)

section
variable {s : State} {x : Cinch} (hx : s.power.cinch = some x) (hs : s.dev.state = .cinch)
include hx hs

theorem cinchJournalComplete_of_done (h : x.step = .journal) (hd : s.journalDone = true) {s1 : State}
    (e : s.deltaRecords.foldl State.append s = s1) :
    Answers .cinchJournalComplete s (fun t =>
      t.xlat = s1.flushJournal.xlat ∧ t.power.cinch = some { x with step := .delta, deltaRseq := some (s1.nextRseq - 1) }) := by
  have hk : s1.flushJournal.kept = s.kept := (kept_closePage s1).trans (e ▸ kept_foldl s (fun s r => kept_append s r) _)
  have hc : s1.flushJournal.power.cinch = some x := cinch_of_kept hk hx (by simp [h]) (by simp [h])
  refine Answers.of_done (congrArg s.done (if_pos (by simp [State.cinchAt_eq hx hs, h, hd]))) fun t ht => ?_
  rw [e] at ht
  refine ⟨ht.xlat, (congrArg Power.cinch ht.power).trans ?_⟩
  simp [State.setPower, hc]

omit hx hs in
theorem Answers.of_downBy {c : Instr} {u : State} {cause : Nat} (he : exec c s = s.done u) (hu : u.DownBy cause) :
    Answers c s (fun t => t.dev.state = .poweringDown ∧ t.power.cutCause = cause ∧ t.power.cinch = none) :=
  Answers.of_done he fun _ ht => ⟨(congrArg Dev.state ht.dev).trans hu.state, (congrArg Power.cutCause ht.power).trans hu.cause,
    (congrArg Power.cinch ht.power).trans hu.cinch⟩

omit hx hs in
theorem Answers.mono {c : Instr} {p q : State → Prop} (h : Answers c s p) (hpq : ∀ t, p t → q t) : Answers c s q := by
  obtain ⟨t, ht, hp⟩ := h
  exact ⟨t, ht, hpq t hp⟩

omit hx in
/-- HOLD_SENSE at or below the floor ends a cinch on the hold path with cause 3 (R373). -/
theorem State.holdConv_at_floor {p : Power} {mv : Nat} (hh : p.pathHold = true) (hm : mv ≤ s.holdFloor) :
    ∃ q : Power, q.cinch = p.cinch ∧ (s.setPower p).holdConv mv = (s.setPower q).endCinch 3 :=
  ⟨{ p with lastHold := some (p.conv, mv) }, rfl, if_pos ⟨hh, hs, hm⟩⟩

omit hx in
/-- On the hold path the conversion before each slot is one of HOLD_SENSE (R353). -/
theorem adcConversion_at_floor {mv : BitVec 16} (hh : s.power.pathHold = true) (hn : s.power.holdNext = true) (hm : mv.toNat ≤ s.holdFloor) :
    ∃ q : Power, q.cinch = s.power.cinch ∧ exec (.adcConversion mv) s = s.done ((s.setPower q).endCinch 3).afterProgram := by
  obtain ⟨q, hq, e⟩ := State.holdConv_at_floor hs
    (p := { s.power with conv := s.power.conv + 1, adc := Tab.put s.power.adc 32 mv.toNat, holdNext := false }) hh hm
  refine ⟨q, hq, ?_⟩
  have he : exec (.adcConversion mv) s = execAdcConversion mv s := rfl
  rw [← e]
  simp [he, execAdcConversion, hh, hn]

/-- The delta's commit, the budget, the holdover and the floor of the hold path end a cinch with their causes (R26, R199, R373). -/
theorem cinchEnds_of_no_fault (hf : x.fault = none) :
    (∀ r, x.step = .delta → x.deltaRseq = some r → s.committed r = true → Answers .cinchDeltaCommitted s (fun t =>
      t.dev.state = .poweringDown ∧ t.power.cutCause = 1 ∧ t.power.cinch = none)) ∧
    Answers .cinchBudgetExpiry s (fun t => t.dev.state = .poweringDown ∧ t.power.cutCause = 2) ∧
    (s.power.pllLost = true → Answers .pllHoldoverExpiry s (fun t => t.dev.state = .poweringDown ∧ t.power.cutCause = 2)) ∧
    (∀ mv : BitVec 16, s.power.pathHold = true → s.power.holdNext = true → mv.toNat ≤ s.holdFloor → Answers (.adcConversion mv) s (fun t =>
      t.dev.state = .poweringDown ∧ t.power.cutCause = 3)) := by
  have expires {c : Instr} {u : State} {cause : Nat} (he : exec c s = s.done u) (hu : u.DownBy cause) :
      Answers c s (fun t => t.dev.state = .poweringDown ∧ t.power.cutCause = cause) :=
    (Answers.of_downBy he hu).mono fun _ ⟨hst, hc, _⟩ => ⟨hst, hc⟩
  refine ⟨fun r hd hr hc => ?_, ?_, fun hl => ?_, fun mv hh hn hm => ?_⟩
  · exact Answers.of_downBy (congrArg s.done (if_pos (by simp [State.cinchAt_eq hx hs, hx, hd, hr, hc]))) (State.endCinch_downBy hx hf 1)
  · exact expires (congrArg s.done (if_pos hs)) (State.endCinch_downBy hx hf 2)
  · exact expires (congrArg s.done (if_pos ⟨hl, hs⟩)) (State.endCinch_downBy hx hf 2)
  · obtain ⟨p, hp, he⟩ := adcConversion_at_floor hs hh hn hm
    have hd := State.endCinch_downBy (s := s.setPower p) (hp.trans hx) hf 3
    have ha : ((s.setPower p).endCinch 3).afterProgram = (s.setPower p).endCinch 3 := by simp [State.afterProgram, hd.faultWait]
    exact expires (ha ▸ he) hd

theorem cinchBudgetExpiry_of_fault {f : Nat} (hf : x.fault = some f) (hl : s.power.pfwLow = false) :
    Answers .cinchBudgetExpiry s (fun t => t.dev.state = .fault ∧ t.power.cutCause = 2) := by
  obtain ⟨hst, hc⟩ := State.endCinch_faults hx hf hl 2
  exact Answers.of_done (congrArg s.done (if_pos hs)) fun t ht => ⟨(congrArg Dev.state ht.dev).trans hst, (congrArg Power.cutCause ht.power).trans hc⟩

end

/-- Settles O43: each step by its own condition, the ends by what the end of a cinch records. -/
theorem cinchSteps : Obligations.CinchSteps := by
  intro s x hx hs
  obtain ⟨haccept, hwritten, hwriting, hparity, hnotAccept, hnotJournal⟩ := cinchSteps_of_cinch hx hs
  exact ⟨haccept, hwritten, hwriting, hparity, fun h hd _ e => cinchJournalComplete_of_done hx hs h hd e, hnotAccept, hnotJournal,
    s.deltaRecords_eq, cinchEnds_of_no_fault hx hs, fun _ hf hl => cinchBudgetExpiry_of_fault hx hs hf hl⟩

end Sys2Proof.Machine
end

section
/-! SUPPORT. The state of reset: O55. -/

namespace Sys2Proof.Machine

/-- Settles O55, by computation of the one state of reset; a die that no table lists is the well-formed initial one. -/
theorem resetAndInvariants : Obligations.ResetAndInvariants := by
  unfold Obligations.ResetAndInvariants
  refine ⟨⟨rfl, rfl, rfl, rfl, rfl, rfl, rfl, rfl, rfl, fun _ => rfl, fun _ => rfl, fun _ => rfl⟩, ⟨Nat.zero_le _, fun _ => Nat.zero_le _⟩, fun _ => Die.init_ok⟩

end Sys2Proof.Machine
end

section
/-! SUPPORT. The words of AMC2 frames, and O7. -/

namespace Sys2Proof

/-! ### C0 (R54) -/

@[simp] theorem frameOpcode_append (op mod : BitVec 6) : frameOpcode (op ++ mod) = op := BitVec.extractLsb'_append_eq_left

@[simp] theorem frameMod_append (op mod : BitVec 6) : frameMod (op ++ mod) = mod := BitVec.extractLsb'_append_eq_right

/-- The mode is the low two bits of MOD. -/
@[simp] theorem mode_append (m : BitVec 4) (k : BitVec 2) : (m ++ k : BitVec 6).extractLsb' 0 2 = k := BitVec.extractLsb'_append_eq_right

theorem c0_assoc (op : BitVec 6) (m : BitVec 4) (k : BitVec 2) : (op ++ m ++ k : BitVec 12) = op ++ (m ++ k : BitVec 6) := by
  simpa using (BitVec.append_assoc' (x₁ := op) (x₂ := m) (x₃ := k)).symm

/-! ### Frames (Tables 2.7, 2.8) -/

section
variable {ch : Chan} {d : DieNo} {data : List Byte} {crc : Word} {temp : BitVec 16} {op mod : BitVec 6} {ws : List (BitVec 12)}

theorem frameCommand_setRef (h : ws.length = 15) :
    frameCommand ch d (((0x08 : BitVec 6) ++ mod) :: ws) data crc temp = some (.amc2SetRef ch d mod ws) := by
  simp [frameCommand, h, List.take_of_length_le (Nat.le_of_eq h)]

theorem frameCommand_setRef_short (h : ws.length < 15) :
    frameCommand ch d (((0x08 : BitVec 6) ++ mod) :: ws) data crc temp = some (.amc2FrameAbort ch d) := by
  simp [frameCommand, h]

/-- A reserved opcode is none that the decoder looks for (R56). -/
theorem frameCommand_reserved
    (h : op ∉ ([0x00, 0x01, 0x02, 0x03, 0x04, 0x08, 0x10, 0x11, 0x12, 0x20, 0x21, 0x28, 0x29, 0x3F] : List (BitVec 6))) :
    frameCommand ch d ((op ++ mod) :: ws) data crc temp = some (.amc2FrameAbort ch d) := by
  simp only [List.mem_cons, List.not_mem_nil, or_false, not_or, ← BitVec.toNat_inj] at h
  simp only [frameCommand, frameOpcode_append]
  split <;> simp_all

theorem frameCommand_short (h : op ∈ ([0x10, 0x11, 0x12, 0x20, 0x21] : List (BitVec 6))) :
    frameCommand ch d [op ++ mod] data crc temp = some (.amc2FrameAbort ch d) := by
  simp only [List.mem_cons, List.not_mem_nil, or_false] at h
  rcases h with rfl | rfl | rfl | rfl | rfl <;> simp [frameCommand]

end

namespace Machine

/-- Settles O7: the frames with words missing or a reserved opcode by their lemmas, every other one by its row of the decoder. -/
theorem framesSpellCommands : Obligations.FramesSpellCommands := by
  intro ch d data crc temp op mod m c1 c2 c3 ws f hf
  simp only [hf, c0_assoc]
  refine ⟨?identify, ?status, ?scan, ?getTemp, ?rdPattern, ?wrStore, ?rdStore, ?config, frameCommand_setRef, frameCommand_setRef_short,
    ?pageSense, ?pageXfer, ?softSense, ?softXfer, ?histSense, ?histXfer, ?load, ?start, ?erase, ?suspend, ?resume, rfl, ?idle,
    frameCommand_reserved, frameCommand_short⟩
  all_goals simp +contextual [frameCommand, trainCommand]

end Machine
end Sys2Proof
end

section
/-! SUPPORT. What a frame does to the die that takes it, and what the die sends: O2 and O4. -/

namespace Sys2Proof

/-! ### Words made of fields -/

theorem toNat_append_eq {n k : Nat} (a : BitVec n) (b : BitVec k) : (a ++ b).toNat = a.toNat * 2 ^ k + b.toNat := by
  rw [BitVec.toNat_append, ← Nat.shiftLeft_add_eq_or_of_lt b.isLt, Nat.shiftLeft_eq]

/-- The mask of planes in MOD. -/
@[simp] theorem planes_of_mod (m : BitVec 4) (k : BitVec 2) : BitVec.ofNat 4 (bits (m ++ k : BitVec 6).toNat 2 4) = m := by
  apply BitVec.eq_of_toNat_eq
  simp only [BitVec.toNat_ofNat, bits, toNat_append_eq]
  omega

/-- The mode in MOD. -/
@[simp] theorem mode_of_mod (m : BitVec 4) (k : BitVec 2) : bits (m ++ k : BitVec 6).toNat 0 2 = k.toNat := by
  simp only [bits, toNat_append_eq]
  omega

/-- Numbers that are given one record list it, the others what they listed. -/
theorem Tab.find_foldl_put {α : Type} (ks : List Nat) (a : α) (t : Tab α) (j : Nat) :
    Tab.find (ks.foldl (fun t k => Tab.put t k a) t) j = if j ∈ ks then some a else Tab.find t j := by
  induction ks generalizing t with
  | nil => simp
  | cons k ks ih =>
    rw [List.foldl_cons, ih, Tab.find_put]
    by_cases hj : j ∈ ks <;> simp [hj, eq_comm (a := k)]

theorem le_ne_nil (n v : Nat) : le (n + 1) v ≠ [] := List.cons_ne_nil _ _

namespace Machine

/-- A command whose meaning settles what it made from some state has that effect. -/
theorem Effect.of_settled {c : Instr} {s s0 x : State} (h : exec c s = s0.done x) : Effect c s x := ⟨_, h, settle_trails s0 x⟩

/-! ### A frame that a die takes -/

section
variable {s : State} {ch d : Nat} {x : Die} {f : Die → Die} {reply : Die → List Byte}

theorem State.dieTakes_of_silent (hx : s.die (dieKey ch d) = x) (hr : reply x = []) :
    s.dieTakes ch d f reply = s.setDie (dieKey ch d) (f x) := by
  simp [State.dieTakes, hx, hr]

theorem State.dieTakes_of_reply (hx : s.die (dieKey ch d) = x) (hr : reply x ≠ []) :
    s.dieTakes ch d f reply = (s.setDie (dieKey ch d) (f x)).emit (.amc2 ch d (reply x)) := by
  simp [State.dieTakes, hx, hr]

end

/-- A die that is set only while it has power. -/
theorem State.die_setPowered (s : State) (j k : Nat) (f : Die → Die) :
    State.die (if (s.die j).st = .off then s else s.setDie j (f (s.die j))) k
      = if j = k then (if (s.die k).st = .off then s.die k else f (s.die k)) else s.die k := by
  by_cases hk : j = k
  · subst hk
    by_cases ho : (s.die j).st = .off <;> simp [ho]
  · by_cases ho : (s.die j).st = .off <;> simp [ho, hk, State.die_setDie]

/-- Dies set one after the other, each from what it was: those of the list are as set, the others as they were. -/
theorem State.die_foldl_of_mem {F : State → Nat → State} {g : Nat → Die → Die} {ch : Nat}
    (hF : ∀ s i k, (F s i).die k = if dieKey ch i = k then g i (s.die k) else s.die k) (l : List Nat) (hl : l.Nodup) (s : State) (i : Nat) :
    (l.foldl F s).die (dieKey ch i) = if i ∈ l then g i (s.die (dieKey ch i)) else s.die (dieKey ch i) := by
  induction l generalizing s with
  | nil => simp
  | cons j l ih =>
    obtain ⟨hj, hl⟩ := List.nodup_cons.mp hl
    have he : dieKey ch j = dieKey ch i ↔ i = j := by simp [dieKey, eq_comm]
    rw [List.foldl_cons, ih hl, hF]
    simp only [he, List.mem_cons]
    by_cases hij : i = j
    · subst hij
      simp [hj]
    · simp [hij]

/-! ### Data and settings (R57 to R62) -/

section
variable {ch : Chan} {d : DieNo} {s : State} {x : Die}

theorem Die.on_of_awake (h : x.awake = true) : x.st ≠ .off := by
  rintro e
  simp [Die.awake, e] at h

theorem Die.takesPlain_of_awake (h : x.awake = true) : x.takesPlain 0#6 = true := by simp [Die.takesPlain, h]

theorem identifyBytes_ne_nil (k : Nat) : identifyBytes k ≠ [] := List.append_ne_nil_of_right_ne_nil _ (le_ne_nil 3 _)

theorem rdPattern_ne_nil : rdPattern ≠ [] := List.ne_nil_of_length_pos (by simp only [rdPattern, List.length_map, List.length_range, Nat.zero_lt_succ])

theorem Die.store_ne_nil : x.store ≠ [] := by
  unfold Die.store
  split
  · simp
  · simpa using ‹¬x.trainBuf.isEmpty = true›

theorem Die.status_ne_nil : x.status ≠ [] := List.append_ne_nil_of_right_ne_nil _ (le_ne_nil 3 _)

theorem identify_of_awake (hx : s.die (dieKey ch d) = x) (h : x.awake = true) :
    Effect (.amc2Identify ch d 0) s ((s.setDie (dieKey ch d) x).emit (.amc2 ch d (identifyBytes (dieKey ch d)))) := by
  refine Effect.of_done (congrArg s.done ?_)
  rw [State.dieTakes_of_reply hx] <;> simp [Die.takesPlain_of_awake h, identifyBytes_ne_nil]

theorem getTemp_of_awake (hx : s.die (dieKey ch d) = x) (h : x.awake = true) (temp : BitVec 16) :
    Effect (.amc2GetTemp ch d 0 temp) s
      ((s.setDie (dieKey ch d) (x.withTemp (decide (1520 ≤ temp.toInt)))).emit (.amc2 ch d (le 2 temp.toNat))) := by
  refine Effect.of_done (congrArg s.done ?_)
  rw [State.dieTakes_of_reply hx] <;> simp [Die.takesPlain_of_awake h, Die.on_of_awake h, le_ne_nil]

theorem trainRdPattern_of_awake (hx : s.die (dieKey ch d) = x) (h : x.awake = true) :
    Effect (.amc2TrainRdPattern ch d 0) s ((s.setDie (dieKey ch d) x).emit (.amc2 ch d rdPattern)) := by
  refine Effect.of_done (congrArg s.done ?_)
  rw [State.dieTakes_of_reply hx] <;> simp [Die.takesPlain_of_awake h, rdPattern_ne_nil]

theorem trainRdStore_of_awake (hx : s.die (dieKey ch d) = x) (h : x.awake = true) :
    Effect (.amc2TrainRdStore ch d 2) s ((s.setDie (dieKey ch d) x).emit (.amc2 ch d x.store)) := by
  refine Effect.of_done (congrArg s.done ?_)
  rw [State.dieTakes_of_reply hx] <;> simp [h, Die.store_ne_nil]

theorem trainWrStore_of_awake (hx : s.die (dieKey ch d) = x) (h : x.awake = true) {data : List Byte} (hl : data.length = 64) :
    Effect (.amc2TrainWrStore ch d 1 data) s (s.setDie (dieKey ch d) { x with trainBuf := data }) := by
  refine Effect.of_done (congrArg s.done ?_)
  rw [State.dieTakes_of_silent hx rfl]
  simp [Die.takeWrStore, Die.on_of_awake h, h, List.take_of_length_le hl.le]

/-- The fields of a CONFIG word (R57). -/
theorem Die.takeConfig_of_awake (h : x.awake = true) (odt drive : BitVec 2) (fast : Bool) (index : BitVec 3) (hd : drive ≠ 3) :
    x.takeConfig 3 (odt ++ drive ++ BitVec.ofBool fast ++ 0#4 ++ index) = { x with odt := odt, drive := drive, fast := fast, index := index } := by
  have hw : (odt ++ drive ++ BitVec.ofBool fast ++ 0#4 ++ index).toNat
      = odt.toNat * 1024 + drive.toNat * 256 + fast.toNat * 128 + index.toNat := by
    simp only [toNat_append_eq, BitVec.toNat_ofBool, BitVec.toNat_ofNat]
    omega
  have hf : fast.toNat < 2 := fast.toNat_lt
  have hd3 : drive.toNat ≠ 3 := fun e => hd (BitVec.eq_of_toNat_eq e)
  unfold Die.takeConfig
  generalize (odt ++ drive ++ BitVec.ofBool fast ++ 0#4 ++ index).toNat = v at hw ⊢
  have h0 : bits v 0 3 = index.toNat := by rw [hw, bits]; omega
  have h3 : bits v 3 4 = 0 := by rw [hw, bits]; omega
  have h7 : bit v 7 = fast := by
    rw [bit, show v / 2 ^ 7 % 2 = fast.toNat by omega]
    cases fast <;> rfl
  have h8 : bits v 8 2 = drive.toNat := by rw [hw, bits]; omega
  have h10 : bits v 10 2 = odt.toNat := by rw [hw, bits]; omega
  simp [Die.on_of_awake h, h, h0, h3, h7, h8, h10, hd3]

theorem trainConfig_of_awake (hx : s.die (dieKey ch d) = x) (h : x.awake = true) (odt drive : BitVec 2) (fast : Bool) (index : BitVec 3)
    (hd : drive ≠ 3) : Effect (.amc2TrainConfig ch d 3 (odt ++ drive ++ BitVec.ofBool fast ++ 0#4 ++ index)) s
      (s.setDie (dieKey ch d) { x with odt := odt, drive := drive, fast := fast, index := index }) := by
  refine Effect.of_done (congrArg s.done ?_)
  rw [State.dieTakes_of_silent hx rfl, Die.takeConfig_of_awake h odt drive fast index hd]

/-! ### SET_REF (R62) -/

theorem ascending_iff_pairwise (l : List Nat) : ascending l = true ↔ l.Pairwise (fun a b => a < b) := by
  refine ⟨ascending_pairwise l, fun h => ?_⟩
  induction l with
  | nil => rfl
  | cons a l ih =>
    obtain ⟨ha, hl⟩ := List.pairwise_cons.mp h
    cases l with
    | nil => rfl
    | cons b l => exact Bool.and_eq_true_iff.mpr ⟨decide_eq_true (ha b List.mem_cons_self), ih hl⟩

theorem mem_planesOf {m : BitVec 4} {p : Nat} : p ∈ planesOf m ↔ p < 4 ∧ m.getLsbD p = true := by simp [planesOf]

/-- A well-formed SET_REF frame that the die takes: its thresholds are kept when they ascend, else REF_ERR sets. -/
theorem Die.takeSetRef_of_awake (h : x.awake = true) (hst : x.st ≠ .sense) {m : BitVec 4} (hm : m ≠ 0) {ws : List (BitVec 12)}
    (hl : ws.length = 15) (hw : ∀ w ∈ ws, w.toNat < 1024) :
    x.takeSetRef (m ++ 0#2) ws = if ws.Pairwise (fun a b => a.toNat < b.toNat)
      then { x with refs := (planesOf m).foldl (fun r p => Tab.put r p (ws.map BitVec.toNat)) x.refs }
      else { x with status1 := x.status1 ||| 8 } := by
  have ha : ascending (ws.map BitVec.toNat) = true ↔ ws.Pairwise (fun a b => a.toNat < b.toNat) := by
    rw [ascending_iff_pairwise, List.pairwise_map]
  simp only [Die.takeSetRef, planes_of_mod, mode_of_mod]
  rw [if_neg (Die.on_of_awake h), if_neg (by simpa [h, hst, hl] using ⟨hm, hw⟩)]
  by_cases hp : ws.Pairwise (fun a b => a.toNat < b.toNat)
  · simp [hp, ha.mpr hp]
  · simp [hp, mt ha.mp hp]

theorem setRef_of_awake (hx : s.die (dieKey ch d) = x) (h : x.awake = true) (hst : x.st ≠ .sense) {m : BitVec 4} (hm : m ≠ 0)
    {ws : List (BitVec 12)} (hl : ws.length = 15) (hw : ∀ w ∈ ws, w.toNat < 1024) :
    ((ws.Pairwise (fun a b => a.toNat < b.toNat)) → Answers (.amc2SetRef ch d (m ++ 0#2) ws) s (fun t =>
      ∀ p : Fin 4, (t.die (dieKey ch d)).refOf p = if m.getLsbD p then ws.map BitVec.toNat else x.refOf p)) ∧
    (¬ (ws.Pairwise (fun a b => a.toNat < b.toNat)) → Effect (.amc2SetRef ch d (m ++ 0#2) ws) s
      (s.setDie (dieKey ch d) { x with status1 := x.status1 ||| 8 })) := by
  have he := Effect.of_done (c := .amc2SetRef ch d (m ++ 0#2) ws) (congrArg s.done (State.dieTakes_of_silent hx rfl))
  simp only [Die.takeSetRef_of_awake h hst hm hl hw] at he
  refine ⟨fun ha => Answers.of_effect he fun t ht p => ?_, fun ha => ?_⟩
  · rw [State.die_congr ht.dies, State.die_setDie_self, if_pos ha, Die.refOf, Tab.get, Tab.find_foldl_put]
    simp only [mem_planesOf, p.isLt, true_and, Die.refOf, Tab.get]
    split <;> rfl
  · simpa [ha] using he

/-! ### STATUS and scans (R59, R60, R86) -/

theorem status_of_powered (hx : s.die (dieKey ch d) = x) (h : x.st ≠ .off) {mod : BitVec 6} (hm : bits mod.toNat 4 2 = 0)
    (h1 : mod.getLsbD 1 = false) :
    Effect (.amc2Status ch d mod) s
      (((s.setCtl (dieKey ch d) { s.ctlOf (dieKey ch d) with seen := BitVec.ofNat 4 x.st.code }).setDie (dieKey ch d)
        (x.takeStatus (mod.getLsbD 0))).emit (.amc2 ch d x.status)) := by
  have hok : (bits mod.toNat 4 2 == 0 && !mod.getLsbD 1) = true := by rw [hm, h1]; rfl
  refine Effect.of_settled (s0 := s.setCtl (dieKey ch d) { s.ctlOf (dieKey ch d) with seen := BitVec.ofNat 4 x.st.code }) ?_
  change execAmc2Status ch d mod s = _
  have hx' (c : DieCtl) : (s.setCtl (dieKey ch d) c).die (dieKey ch d) = x := hx
  simp only [execAmc2Status, hx, hok, h, ne_eq, not_false_eq_true, and_self, if_true]
  rw [State.dieTakes_of_reply (hx' _)] <;> simp [h, Die.status_ne_nil]

/-- The dies of a channel once each powered one has taken a well-formed scan. -/
def State.scanned (s : State) (ch : Nat) (clear : Bool) : State :=
  (List.range 8).foldl (fun s i =>
    if (s.die (dieKey ch i)).st = .off then s else s.setDie (dieKey ch i) ((s.die (dieKey ch i)).takeStatus clear)) s

theorem State.die_scanned (i : DieNo) (clear : Bool) (h : (s.die (dieKey ch i)).st ≠ .off) :
    (s.scanned ch clear).die (dieKey ch i) = (s.die (dieKey ch i)).takeStatus clear := by
  rw [State.scanned, State.die_foldl_of_mem (g := fun _ x => if x.st = .off then x else x.takeStatus clear)
    (fun s j k => s.die_setPowered (dieKey ch j) k fun x => x.takeStatus clear) _ List.nodup_range]
  simp [i.isLt, h]

theorem State.die_scanned_unclear (k : Nat) : (s.scanned ch false).die k = s.die k := by
  refine List.foldlRecOn _ _ (motive := fun (t : State) => t.die k = s.die k) rfl fun t ih i _ => ?_
  split
  · exact ih
  · rw [State.die_setDie, ← ih]
    split
    · rename_i hk
      rw [hk]
      rfl
    · rfl

/-- A well-formed scan reaches every powered die of the channel, and the byte that they drive leaves (R60). -/
theorem exec_scan {sel c : BitVec 2} {clear : Bool} (hc : c.getLsbD 1 = true) (h0 : c.getLsbD 0 = clear) :
    exec (.amc2StatusScan ch (0#2 ++ sel ++ c)) s = (s.scanned ch clear).done ((s.scanned ch clear).emit (.amc2 ch 8 (le 1 (s.scan ch sel.toNat)))) := by
  have h4 : bits (0#2 ++ sel ++ c : BitVec 6).toNat 4 2 = 0 := by simp only [bits, toNat_append_eq, BitVec.toNat_ofNat]; omega
  have h2 : bits (0#2 ++ sel ++ c : BitVec 6).toNat 2 2 = sel.toNat := by simp only [bits, toNat_append_eq, BitVec.toNat_ofNat]; omega
  have hlow (i : Nat) (hi : i < 2) : (0#2 ++ sel ++ c : BitVec 6).getLsbD i = c.getLsbD i := by rw [BitVec.getLsbD_append, if_pos hi]
  change execAmc2StatusScan ch _ s = _
  simp only [execAmc2StatusScan, h4, h2, hlow 1 (by decide), hlow 0 (by decide), hc, h0, beq_self_eq_true, Bool.and_true, if_true, State.scanned]

end

/-- Settles O2. -/
theorem dieDataAndSettings : Obligations.DieDataAndSettings := by
  refine ⟨fun ch d temp s x hx h => ⟨identify_of_awake hx h, getTemp_of_awake hx h temp, trainRdPattern_of_awake hx h, trainRdStore_of_awake hx h⟩,
    fun ch d s x hx h => ⟨fun data => trainWrStore_of_awake hx h, trainConfig_of_awake hx h, fun m ws hm hst => setRef_of_awake hx h hst hm⟩,
    fun ch d sel s s1 x hx h h1 => ?_⟩
  subst h1 hx
  refine ⟨status_of_powered rfl h (by decide) (by decide), status_of_powered rfl h (by decide) (by decide),
    Answers.of_effect (Effect.of_settled (exec_scan (c := 2#2) (clear := false) (by decide) (by decide))) fun t ht => ⟨fun k => ?_, ?_⟩,
    Answers.of_effect (Effect.of_settled (exec_scan (c := 3#2) (clear := true) (by decide) (by decide))) fun t ht => ⟨?_, ?_⟩⟩
  · exact (State.die_congr (ht.dies.trans (State.emit_dies ..)) k).trans (State.die_scanned_unclear k)
  · exact ht.out.subset (by simp [State.emit])
  · exact (State.die_congr (ht.dies.trans (State.emit_dies ..)) _).trans (State.die_scanned d true h)
  · exact ht.out.subset (by simp [State.emit])

end Machine
end Sys2Proof
end

section
/-! SUPPORT. Senses, SUSPEND and RESUME of a die: O4. -/

namespace Sys2Proof.Machine

/-! ### SENSE frames (R68, Tables 2.8, 2.14) -/

/-- A well-formed SENSE frame: DELTA is given for READ_SOFT only. -/
theorem senseOf_wf {kind : SenseKind} {m : BitVec 4} {b p w : BitVec 12} (hm : m ≠ 0) (hb : b.toNat ≤ 1039) (hp : p.toNat ≤ 1023)
    (hw : w.toNat ≤ 63) (hk : kind = .soft ↔ w ≠ 0#12) :
    senseOf kind (m ++ 0#2) b p w = some { kind := kind, planes := m, block := b.toNat, page := p.toNat, delta := w.toNat } := by
  have hd : ((kind == .soft) != (w != 0)) = false := by
    by_cases h : kind = .soft
    · simp [h, hk.mp h]
    · simp [h, not_not.mp (mt hk.mpr h)]
  simp only [senseOf, planes_of_mod, mode_of_mod, hd]
  rw [if_neg (by simpa [hb, hp, hw] using hm)]

section
variable {x : Die} {q : Sense}

theorem Die.takeSense_of_ready (h : x.st = .idle ∨ x.st = .susp) : x.takeSense q = { x with st := .sense, sense := some q, qSense := none, done := none } := by
  rcases h with h | h <;> simp only [Die.takeSense, h] <;> rfl

theorem Die.takeSense_of_suspending (h : x.st = .suspending) (hq : x.qSense = none) : x.takeSense q = { x with qSense := some q } := by
  simp [Die.takeSense, h, hq]

theorem Die.takeSense_of_busy (h : x.st = .prog ∨ x.st = .erase ∨ x.st = .sense ∨ (x.st = .suspending ∧ x.qSense ≠ none)) :
    x.takeSense q = x.reject := by
  rcases h with h | h | h | ⟨h, hq⟩
  case inr.inr.inr => simp [Die.takeSense, h, Option.isSome_iff_ne_none.mpr hq]
  all_goals simp only [Die.takeSense, h]

end

section
variable {ch : Chan} {d : DieNo} {s : State} {x : Die}

/-- The three SENSE commands with the sense that each asks for. -/
theorem sense_frame {m : BitVec 4} {b p w : BitVec 12} {c : Instr} {q : Sense} (hx : s.die (dieKey ch d) = x) (hm : m ≠ 0)
    (hb : b.toNat ≤ 1039) (hp : p.toNat ≤ 1023) (hw1 : 1 ≤ w.toNat) (hw : w.toNat ≤ 63)
    (hc : (c, q) ∈ [(Instr.amc2ReadPageSense ch d (m ++ 0#2) b p, { kind := .page, planes := m, block := b.toNat, page := p.toNat, delta := 0 }),
      (Instr.amc2ReadSoftSense ch d (m ++ 0#2) b p w, { kind := .soft, planes := m, block := b.toNat, page := p.toNat, delta := w.toNat }),
      (Instr.amc2ReadHistSense ch d (m ++ 0#2) b p, { kind := .hist, planes := m, block := b.toNat, page := p.toNat, delta := 0 })]) :
    Effect c s (s.setDie (dieKey ch d) (x.takeSense q)) := by
  have hw0 : w ≠ 0#12 := by rintro rfl; exact absurd hw1 (by decide)
  simp only [List.mem_cons, Prod.mk.injEq, List.not_mem_nil, or_false] at hc
  rcases hc with ⟨rfl, rfl⟩ | ⟨rfl, rfl⟩ | ⟨rfl, rfl⟩ <;> refine Effect.of_done (congrArg s.done ?_) <;>
    rw [State.amc2Sense, State.dieTakes_of_silent hx rfl, senseOf_wf hm hb hp]
  · rfl
  all_goals simp [hw, hw0]

end

/-! ### SUSPEND and RESUME (R70) -/

section
variable {ch : Chan} {d : DieNo} {s : State} {x : Die} {o : ArrayOp}

theorem suspend_of_running (hx : s.die (dieKey ch d) = x) (h : (x.st = .prog ∧ x.suspCount < 16) ∨ x.st = .erase) :
    Effect (.amc2Suspend ch d 0) s (s.setDie (dieKey ch d) { x with st := .suspending }) := by
  have ht : x.takeSuspend = { x with st := .suspending } := by
    rcases h with ⟨h, hc⟩ | h
    · simp only [Die.takeSuspend, h, if_neg (Nat.ne_of_lt hc)]
    · simp only [Die.takeSuspend, h]
  exact Effect.of_done (congrArg s.done ((State.dieTakes_of_silent hx rfl).trans (congrArg _ ht)))

/-- A program is suspended at most 16 times. -/
theorem suspend_of_exhausted (hx : s.die (dieKey ch d) = x) (h : x.st = .prog) (hc : x.suspCount = 16) :
    Effect (.amc2Suspend ch d 0) s (s.setDie (dieKey ch d) { x with status1 := x.status1 ||| 4 }) := by
  have ht : x.takeSuspend = { x with status1 := x.status1 ||| 4 } := by
    unfold Die.takeSuspend
    split <;> simp_all
  exact Effect.of_done (congrArg s.done ((State.dieTakes_of_silent hx rfl).trans (congrArg _ ht)))

theorem resume_of_susp (hx : s.die (dieKey ch d) = x) (ho : x.op = some o) (h : x.st = .susp) :
    Effect (.amc2Resume ch d 0) s (s.setDie (dieKey ch d) { x with st := if o.erase then .erase else .prog, qResume := false }) := by
  have ht : x.takeResume = { x with st := o.running, qResume := false } := by simp only [Die.takeResume, h, Die.settle, ho, if_true]
  exact Effect.of_done (congrArg s.done ((State.dieTakes_of_silent hx rfl).trans (congrArg _ ht)))

theorem resume_of_queued (hx : s.die (dieKey ch d) = x) (ho : x.op = some o) (h : x.st = .suspending ∨ x.st = .sense) :
    Effect (.amc2Resume ch d 0) s (s.setDie (dieKey ch d) { x with qResume := true }) := by
  have ht : x.takeResume = { x with qResume := true } := by
    unfold Die.takeResume
    rcases h with h | h <;> split <;> simp_all
  exact Effect.of_done (congrArg s.done ((State.dieTakes_of_silent hx rfl).trans (congrArg _ ht)))

theorem suspendEnd_of_program (hx : s.die (dieKey ch d) = x) (ho : x.op = some o) (h : x.st = .suspending) (hq : x.qSense = none)
    (hr : x.qResume = false) (he : o.erase = false) :
    Effect (.dieSuspendEnd ch d) s (s.setDie (dieKey ch d) { x with st := .susp, suspCount := x.suspCount + 1 }) := by
  refine Effect.of_done (congrArg (fun y => s.done (s.setDie (dieKey ch d) y)) (?_ : (s.die (dieKey ch d)).endSuspend = _))
  simp [hx, Die.endSuspend, Die.settle, h, hq, hr, ho, he]

/-! ### The end of a sense (R63, R69) -/

theorem Die.settle_of_none (h : x.op = none) : x.settle = { x with st := .idle, qResume := false } := by simp only [Die.settle, h]

theorem Die.settle_of_held (h : x.op = some o) (hr : x.qResume = false) : x.settle = { x with st := .susp } := by
  simp only [Die.settle, h, hr, if_neg Bool.false_ne_true]

theorem Die.settle_of_resumed (h : x.op = some o) (hr : x.qResume = true) : x.settle = { x with st := o.running, qResume := false } := by
  simp only [Die.settle, h, hr, if_true]

@[simp] theorem Die.settle_sense (x : Die) : x.settle.sense = x.sense := by
  unfold Die.settle
  split
  · rfl
  · split <;> rfl

@[simp] theorem Die.settle_done (x : Die) : x.settle.done = x.done := by
  unfold Die.settle
  split
  · rfl
  · split <;> rfl

/-- A die at the end of its sense, before it turns to its operation. -/
def Die.sensed (x : Die) (r : Sensed) : Die := { x with sense := none, done := some r }

/-- The sense of a die ends: its registers hold what the array held, and the die turns to its operation. -/
theorem State.dieSenseEnds_of_sense {k : Nat} {q : Sense} (hx : s.die k = x) (h : x.st = .sense) (hq : x.sense = some q) :
    ∃ r, r.sense = q ∧ r.cells = s.sensedCells k q ∧ s.dieSenseEnds k = (s.setDie k (x.sensed r).settle).tick := by
  refine ⟨{ sense := q, cells := s.sensedCells k q, sets := (planesOf q.planes).map (fun p => (p, x.refOf p)), stamp := s.nonce }, rfl, rfl, ?_⟩
  simp only [State.dieSenseEnds, hx, h, hq, Die.endSense, if_true]
  rw [Die.sensed, h]

theorem senseEnd_of_sense {q : Sense} (hx : s.die (dieKey ch d) = x) (h : x.st = .sense) (hq : x.sense = some q) :
    Answers (.dieSenseEnd ch d) s (fun t =>
      (∃ r, (t.die (dieKey ch d)).done = some r ∧ r.sense = q ∧ r.cells = s.sensedCells (dieKey ch d) q) ∧
      (t.die (dieKey ch d)).sense = none ∧ t.media = s.media ∧
      (x.op = none → (t.die (dieKey ch d)).st = .idle) ∧
      (∀ o, x.op = some o → x.qResume = false → (t.die (dieKey ch d)).st = .susp ∧ (t.die (dieKey ch d)).op = some o) ∧
      (∀ o, x.op = some o → x.qResume = true → (t.die (dieKey ch d)).st = if o.erase then .erase else .prog)) := by
  obtain ⟨r, hr, hc, he⟩ := State.dieSenseEnds_of_sense hx h hq
  refine Answers.of_done (congrArg s.done he) fun t ht => ?_
  have hd : t.die (dieKey ch d) = (x.sensed r).settle := (State.die_congr ht.dies _).trans (State.die_setDie_self ..)
  rw [hd]
  refine ⟨⟨r, by simp [Die.sensed], hr, hc⟩, by simp [Die.sensed], ht.media, fun ho => ?_, fun o ho hn => ?_, fun o ho hn => ?_⟩
  · rw [Die.settle_of_none (x := x.sensed r) ho]
  · rw [Die.settle_of_held (x := x.sensed r) ho hn]
    exact ⟨rfl, ho⟩
  · rw [Die.settle_of_resumed (x := x.sensed r) ho hn]
    rfl

end

/-- Settles O4. -/
theorem sensesAndSuspends : Obligations.SensesAndSuspends := by
  refine ⟨fun ch d m b p w s x c q hx hm hb hp hw1 hw hc => ?_, fun ch d s x o hx ho => ?_, fun ch d s x q hx h hq => senseEnd_of_sense hx h hq⟩
  · have he := sense_frame hx hm hb hp hw1 hw hc
    refine ⟨fun h => Die.takeSense_of_ready h ▸ he, fun h hq => Die.takeSense_of_suspending h hq ▸ he, fun h => ?_⟩
    rw [Die.takeSense_of_busy h] at he
    exact he
  · exact ⟨suspend_of_running hx, suspend_of_exhausted hx, resume_of_susp hx ho, resume_of_queued hx ho, suspendEnd_of_program hx ho⟩

end Sys2Proof.Machine
end

section
/-! SUPPORT. The array: what a program, an erase and a RESET leave of it, and the ends of operations: O5 and O58. -/

namespace Sys2Proof

theorem Tab.find_filter {α : Type} (t : Tab α) (p : Nat → Bool) (k : Nat) :
    Tab.find (t.filter (fun e => p e.1)) k = if p k then Tab.find t k else none := by
  induction t with
  | nil => simp
  | cons e t ih =>
    obtain ⟨i, a⟩ := e
    by_cases hi : p i <;> by_cases hk : i = k
    · subst hk; simp [Tab.find, hi]
    · simp [Tab.find, hi, hk, ih]
    · subst hk; simp [hi, ih]
    · simp [Tab.find, hi, hk, ih]

namespace Machine

/-! ### Addresses (Table 2.3) -/

theorem dieKey_div (ch : Nat) (d : DieNo) : dieKey ch d / 8 = ch := by unfold dieKey; omega
theorem dieKey_mod (ch : Nat) (d : DieNo) : dieKey ch d % 8 = d := by unfold dieKey; omega

/-- Slots of a page are at addresses of their own. -/
theorem mla_inj {ch d block page p q i j : Nat} (hi : i < 8) (hj : j < 8)
    (h : mla ch d p block page i = mla ch d q block page j) : p = q ∧ i = j := by
  unfold mla at h
  omega

/-- The planes and slots of an operation's page. -/
def ArrayOp.places (o : ArrayOp) : List (Nat × Nat) := (planesOf o.planes).flatMap (fun p => (List.range 8).map (fun i => (p, i)))

theorem ArrayOp.mem_places {o : ArrayOp} {e : Nat × Nat} : e ∈ o.places ↔ (e.1 < 4 ∧ o.planes.getLsbD e.1 = true) ∧ e.2 < 8 := by
  obtain ⟨p, i⟩ := e
  simp [ArrayOp.places, mem_planesOf]

theorem ArrayOp.places_nodup (o : ArrayOp) : o.places.Nodup := by
  refine List.nodup_flatMap.mpr ⟨fun p _ => List.nodup_range.map (fun i j h => (Prod.mk.injEq .. ▸ h).2), ?_⟩
  refine (List.nodup_range.filter _).imp fun hpq => ?_
  simp only [Function.onFun, List.disjoint_left, List.mem_map]
  rintro _ ⟨i, -, rfl⟩ ⟨j, -, h⟩
  exact hpq (Prod.mk.inj h).1.symm

theorem ArrayOp.addrs_eq (o : ArrayOp) (k : Nat) : o.addrs k = o.places.map (fun e => mla (k / 8) (k % 8) e.1 o.block o.page e.2) := by
  simp [ArrayOp.addrs, ArrayOp.places, List.map_flatMap, Function.comp_def]

theorem ArrayOp.addrs_nodup (o : ArrayOp) (k : Nat) : (o.places.map (fun e => mla (k / 8) (k % 8) e.1 o.block o.page e.2)).Nodup := by
  refine o.places_nodup.map_on fun e he e' he' h => ?_
  obtain ⟨hp, hi⟩ := mla_inj (ArrayOp.mem_places.mp he).2 (ArrayOp.mem_places.mp he').2 h
  exact Prod.ext hp hi

/-! ### Programs (R65, R69, R72, R88) -/

section
variable (s : State)

theorem State.find_program (a b : Nat) (c : Cell) :
    Tab.find (s.program a c).media b = if a = b then some (if (Tab.find s.media a).isSome then .anyValue else c) else Tab.find s.media b :=
  Tab.find_put ..

theorem State.fulfil_eq_foldl {o : ArrayOp} (h : o.erase = false) (k : Nat) (bufs : Tab Cell) :
    s.fulfil k o bufs = o.places.foldl (fun s e =>
      s.program (mla (k / 8) (k % 8) e.1 o.block o.page e.2) (Tab.get bufs (8 * e.1 + e.2) .anyValue)) s := by
  simp [State.fulfil, h, ArrayOp.places, List.foldl_flatMap, List.foldl_map]

/-- What a run of programs does not address stands. -/
theorem State.find_programs_of_not_mem {α : Type} (addr : α → Nat) (c : α → Cell) (l : List α) {a : Nat} (h : a ∉ l.map addr) :
    Tab.find (l.foldl (fun s e => s.program (addr e) (c e)) s).media a = Tab.find s.media a := by
  induction l generalizing s with
  | nil => rfl
  | cons e l ih =>
    simp only [List.map_cons, List.mem_cons, not_or] at h
    rw [List.foldl_cons, ih _ h.2, State.find_program, if_neg (Ne.symm h.1)]

/-- What a run of programs to different places writes into an erased one is what was loaded for it. -/
theorem State.find_programs_of_mem {α : Type} (addr : α → Nat) (c : α → Cell) (l : List α) (hl : (l.map addr).Nodup) {e : α} (he : e ∈ l)
    (h : Tab.find s.media (addr e) = none) : Tab.find (l.foldl (fun s e => s.program (addr e) (c e)) s).media (addr e) = some (c e) := by
  induction l generalizing s with
  | nil => cases he
  | cons x l ih =>
    obtain ⟨hx, hl⟩ := List.nodup_cons.mp hl
    rw [List.foldl_cons]
    rcases List.mem_cons.mp he with rfl | he
    · rw [State.find_programs_of_not_mem _ _ _ _ hx, State.find_program, if_pos rfl, h]
      rfl
    · refine ih _ hl he ?_
      rw [State.find_program, if_neg (fun (e' : addr x = addr e) => hx (e' ▸ List.mem_map_of_mem he)), h]

end

/-! ### The end of a program or erase (R69, R71) -/

section
variable {s : State} {k : Nat} {x : Die} {o : ArrayOp}

theorem State.dieOpEnds_of_op (hx : s.die k = x) (ho : x.op = some o) (hst : x.st = o.running ∨ x.st = .suspending) (fail : Bool) :
    s.dieOpEnds k o.erase fail = (if fail then s.spoil k o else s.fulfil k o x.bufs).setDie k (x.endOp fail) := by
  have hc : x.canEnd o.erase = true := by simpa [Die.canEnd, ho] using hst
  simp [State.dieOpEnds, hx, ho, hc]

/-- With no program anywhere there is none to go on. -/
theorem State.resumePrograms_dies (h : s.arrayBusy = false) : s.resumePrograms.dies = s.dies := by
  refine (List.map_congr_left fun e he => ?_).trans (List.map_id _)
  have hb := List.any_eq_false.mp h e he
  cases ho : e.2.op with
  | none => rfl
  | some o =>
    have he : o.erase = true := by simpa [ho] using hb
    exact if_pos he

theorem State.powerDown_dies (h : s.arrayBusy = false) : s.powerDown.dies = s.dies := by
  simp only [State.powerDown]
  split
  all_goals exact State.resumePrograms_dies (s := s.setPower _) h

/-- Entry to FAULT with no program anywhere leaves the dies as they are. -/
theorem State.enterFault_dies (h : s.arrayBusy = false) (cause : Nat) : (s.enterFault cause).dies = s.dies := by
  unfold State.enterFault
  extract_lets prev p s1 s2 s3
  have h2 : s2.kept = s1.kept := kept_ite (by simp) rfl
  have h3 : s3.dies = s.dies := congrArg Kept.dies (show s3.kept = { s1.kept with state := .fault } by simp [s3, kept_goto, h2])
  split
  · rw [State.powerDown_dies, h3]
    rw [State.arrayBusy, h3]
    exact h
  · exact h3

theorem State.afterProgram_dies (s : State) : s.afterProgram.dies = s.dies := by
  unfold State.afterProgram
  split
  · split
    · rfl
    · exact State.enterFault_dies (by simpa using ‹¬s.arrayBusy = true›) _
  · rfl

end

section
variable {ch : Chan} {d : DieNo} {fail : Bool} {s : State} {x : Die} {o : ArrayOp}

/-- The row that ends an operation. -/
def ArrayOp.ends (o : ArrayOp) (ch : Chan) (d : DieNo) (fail : Bool) : Instr := if o.erase then .dieEraseEnd ch d fail else .dieProgramEnd ch d fail

theorem Answers.imp {c : Instr} {s : State} {p q : State → Prop} (h : Answers c s p) (hpq : ∀ t, p t → q t) : Answers c s q :=
  let ⟨t, ht, hp⟩ := h
  ⟨t, ht, hpq t hp⟩

theorem ends_die (hx : s.die (dieKey ch d) = x) (ho : x.op = some o) (hst : x.st = o.running ∨ x.st = .suspending) :
    Answers (o.ends ch d fail) s (fun t => t.die (dieKey ch d) = x.endOp fail) := by
  have he := State.dieOpEnds_of_op hx ho hst fail
  have hd : (s.dieOpEnds (dieKey ch d) o.erase fail).die (dieKey ch d) = x.endOp fail := by rw [he, State.die_setDie_self]
  unfold ArrayOp.ends
  split
  · rename_i hp
    rw [hp] at hd
    exact Answers.of_done rfl fun t ht => (State.die_congr ht.dies _).trans hd
  · rename_i hp
    rw [Bool.eq_false_of_not_eq_true hp] at hd
    exact Answers.of_done rfl fun t ht => (State.die_congr (ht.dies.trans (State.afterProgram_dies _)) _).trans hd

/-- Completion prevails: the die holds no operation, and a queued sense starts at once (R71). -/
theorem Die.endOp_of_suspending (hst : x.st = .suspending) : (x.endOp fail).op = none ∧ (x.endOp fail).qResume = false ∧
    (x.qSense = none → (x.endOp fail).st = .idle) ∧ (∀ q, x.qSense = some q → (x.endOp fail).st = .sense ∧ (x.endOp fail).sense = some q) := by
  unfold Die.endOp
  cases hq : x.qSense with
  | none => simp [hst]
  | some q => simp [hst, Die.startSense]

end

/-- Settles O58: the end of an operation in SUSPENDING; SUSPEND brings a die that runs one there. -/
theorem completionPrevails : Obligations.CompletionPrevails := by
  intro ch d fail s x o c hx ho hc
  subst hc
  have ended {s : State} {x : Die} {p : State → Prop} (hx : s.die (dieKey ch d) = x) (ho : x.op = some o) (hst : x.st = .suspending)
      (hp : ∀ t : State, t.die (dieKey ch d) = x.endOp fail → p t) : Answers (o.ends ch d fail) s p := (ends_die hx ho (.inr hst)).imp hp
  refine ⟨fun hst => ?_, fun h => ?_⟩
  · refine ended hx ho hst fun t ht => ?_
    rw [ht]
    exact Die.endOp_of_suspending hst
  · have hs : Effect (.amc2Suspend ch d 0) s (s.setDie (dieKey ch d) { x with st := .suspending }) :=
      suspend_of_running hx (h.imp (fun h => ⟨h.1, h.2.2⟩) And.left)
    obtain ⟨s1, hs1, ht1⟩ := hs
    have hx1 : s1.die (dieKey ch d) = { x with st := .suspending } := (State.die_congr ht1.dies _).trans (State.die_setDie_self ..)
    refine ⟨s1, hs1, ended hx1 ho rfl fun t ht => ?_⟩
    rw [ht]
    obtain ⟨hop, hres, hidle, -⟩ := Die.endOp_of_suspending (fail := fail) (x := { x with st := .suspending }) rfl
    exact ⟨hop, hres, hidle⟩

end Machine
end Sys2Proof
end

section
/-! SUPPORT. XFER, and the array after an operation: O5. -/

namespace Sys2Proof.Machine

/-! ### XFER (R63) -/

theorem burst_ne_nil (bs : List Byte) : burst bs ≠ [] := List.append_ne_nil_of_right_ne_nil _ (le_ne_nil 3 _)

/-- What an XFER of one kind sends of what the last sense read. -/
def Sensed.transfer (r : Sensed) (kind : SenseKind) (mod : BitVec 6) (c1 : BitVec 12) : List Byte :=
  match kind with
  | .hist => r.histogram mod
  | .page => burst ((xferSlots mod c1).flatMap r.hard)
  | .soft => burst ((xferSlots mod c1).flatMap (fun i => r.hard i ++ r.confidence i))

theorem Sensed.transfer_ne_nil (r : Sensed) (kind : SenseKind) (mod : BitVec 6) (c1 : BitVec 12) : r.transfer kind mod c1 ≠ [] := by
  cases kind <;> exact burst_ne_nil _

section
variable {ch : Chan} {d : DieNo} {s : State} {x : Die} {kind : SenseKind} {mod : BitVec 6} {i : BitVec 12} {r : Sensed}

theorem xfer_of_answers (hx : s.die (dieKey ch d) = x) (hr : x.done = some r) (ha : x.answers kind mod i = true) :
    s.amc2Xfer ch d kind mod i = (s.setDie (dieKey ch d) x).emit (.amc2 ch d (r.transfer kind mod i)) := by
  have hreply := r.transfer_ne_nil kind mod i
  rw [State.amc2Xfer, State.dieTakes_of_reply hx]
  · simp only [hr, ha, or_true, if_true]
    rfl
  · simp only [hr, ha, if_true]
    exact hreply

theorem xfer_of_not_answers (hx : s.die (dieKey ch d) = x) (hr : x.done = some r) (hst : x.st ≠ .off) (ha : x.answers kind mod i = false) :
    s.amc2Xfer ch d kind mod i = s.setDie (dieKey ch d) x.reject := by
  rw [State.amc2Xfer, State.dieTakes_of_silent hx] <;> simp [hr, ha, hst]

/-- Whether a die answers a well-formed XFER depends on the kind of its last sense alone. -/
theorem Die.answers_eq {m : BitVec 4} (hst : x.st = .idle ∨ x.st = .susp ∨ x.st = .prog ∨ x.st = .erase) (hr : x.done = some r) (hm : m ≠ 0)
    (hp : m &&& ~~~r.sense.planes = 0) (hi : i.toNat ≤ 255) (hh : kind = .hist → i = 0) :
    x.answers kind (m ++ 1#2) i = (r.sense.kind == kind || (kind == .page && r.sense.kind == .soft)) := by
  have hbusy : (x.st == .idle || x.st == .prog || x.st == .erase || x.st == .suspending || x.st == .susp) = true := by
    rcases hst with h | h | h | h <;> simp [h]
  have hm' : (m != 0) = true := by simpa using hm
  simp only [Die.answers, planes_of_mod, mode_of_mod, hr, hbusy, hm', hp]
  cases kind with
  | hist => simp [hh rfl]
  | page | soft => simp [hi]

end

/-! ### The array after an operation (R45, R65, R69) -/

section
variable {s : State} {k : Nat} {o : ArrayOp}

theorem State.find_spoil (h : o.erase = false) (a : Nat) :
    Tab.find (s.spoil k o).media a = if a ∈ o.addrs k then some .anyValue else Tab.find s.media a := by
  simp only [State.spoil, h, if_neg Bool.false_ne_true]
  exact Tab.find_foldl_put ..

theorem State.find_fulfil_of_not_mem (h : o.erase = false) {bufs : Tab Cell} {a : Nat} (ha : a ∉ o.addrs k) :
    Tab.find (s.fulfil k o bufs).media a = Tab.find s.media a := by
  rw [State.fulfil_eq_foldl _ h]
  exact State.find_programs_of_not_mem _ _ _ _ (o.addrs_eq k ▸ ha)

theorem State.find_fulfil_of_erased (h : o.erase = false) {bufs : Tab Cell} {p : Fin 4} {i : Fin 8} (hp : o.planes.getLsbD p = true)
    (hn : Tab.find s.media (mla (k / 8) (k % 8) p o.block o.page i) = none) :
    Tab.find (s.fulfil k o bufs).media (mla (k / 8) (k % 8) p o.block o.page i) = some (Tab.get bufs (8 * p + i) .anyValue) := by
  rw [State.fulfil_eq_foldl _ h]
  exact State.find_programs_of_mem s (fun e : Nat × Nat => mla (k / 8) (k % 8) e.1 o.block o.page e.2) _ _ (o.addrs_nodup k)
    (e := (p, i)) (ArrayOp.mem_places.mpr ⟨⟨p.isLt, hp⟩, i.isLt⟩) hn

theorem State.fulfil_power (bufs : Tab Cell) : (s.fulfil k o bufs).power = s.power := by
  cases h : o.erase with
  | true => simp only [State.fulfil, h, if_true]; rfl
  | false =>
    rw [State.fulfil_eq_foldl _ h]
    exact List.foldlRecOn _ _ (motive := fun (t : State) => t.power = s.power) rfl fun _ ih _ _ => ih

theorem State.spoil_power : (s.spoil k o).power = s.power := by
  unfold State.spoil
  split <;> rfl

/-- The plane-blocks of an erase that passed are erased, and no other codeword changes. -/
theorem State.cell_fulfil (h : o.erase = true) (bufs : Tab Cell) (a : Nat) :
    (s.fulfil k o bufs).cell a = if planeBlock a ∈ o.blocks k then none else s.cell a := by
  simp only [State.fulfil, h, if_true, State.eraseCells, State.cell, planeBlock, List.mem_filter, decide_eq_true_eq]
  rw [Tab.find_filter s.media (fun a => decide (a / 8192 ∉ o.blocks k))]
  by_cases hb : a / 8192 ∈ o.blocks k
  · simp [hb]
  · by_cases ha : a / 8192 ∈ s.anyBlocks <;> simp [hb, ha]

end

section
variable {ch : Chan} {d : DieNo} {fail : Bool} {s : State} {x : Die} {o : ArrayOp}

theorem State.dieOpEnds_power (hx : s.die (dieKey ch d) = x) (ho : x.op = some o) (hst : x.st = o.running ∨ x.st = .suspending) :
    (s.dieOpEnds (dieKey ch d) o.erase fail).power = s.power := by
  rw [State.dieOpEnds_of_op hx ho hst]
  cases fail
  · exact State.fulfil_power _
  · exact State.spoil_power

/-- A program ends on its die: the array as `dieOpEnds` leaves it, and the die without the operation (R65, R69). -/
theorem programEnd_of_no_fault (hx : s.die (dieKey ch d) = x) (ho : x.op = some o) (he : o.erase = false) (hst : x.st = .prog)
    (hf : s.power.faultWait = none) :
    Answers (.dieProgramEnd ch d fail) s (fun t =>
      t.die (dieKey ch d) = x.endOp fail ∧ t.media = (if fail then s.spoil (dieKey ch d) o else s.fulfil (dieKey ch d) o x.bufs).media) := by
  have hrun : x.st = o.running ∨ x.st = .suspending := .inl (by simp [hst, ArrayOp.running, he])
  have hends := State.dieOpEnds_of_op hx ho hrun fail
  have hpower := State.dieOpEnds_power (fail := fail) hx ho hrun
  rw [he] at hends hpower
  have ha : (s.dieOpEnds (dieKey ch d) false fail).afterProgram = s.dieOpEnds (dieKey ch d) false fail := by
    simp only [State.afterProgram, hpower, hf]
  refine Answers.of_done (congrArg s.done (ha.trans hends)) fun t ht => ⟨?_, ht.media⟩
  exact (State.die_congr ht.dies _).trans (State.die_setDie_self ..)

/-- A fault that waits takes effect once no die runs or holds a program (R31). -/
theorem afterProgram_of_fault {f : Nat} (hx : s.die (dieKey ch d) = x) (ho : x.op = some o) (he : o.erase = false) (hst : x.st = .prog)
    (hf : s.power.faultWait = some f) :
    (s.dieOpEnds (dieKey ch d) false fail).afterProgram = (if (s.dieOpEnds (dieKey ch d) false fail).arrayBusy then
      s.dieOpEnds (dieKey ch d) false fail else (s.dieOpEnds (dieKey ch d) false fail).enterFault f) := by
  have hpower := State.dieOpEnds_power (fail := fail) hx ho (.inl (by simp [hst, ArrayOp.running, he]))
  rw [he] at hpower
  simp only [State.afterProgram, hpower, hf]

theorem Die.endOp_of_prog (ho : x.op = some o) (he : o.erase = false) (hst : x.st = .prog) :
    (x.endOp fail).op = none ∧ (x.endOp fail).st = .idle ∧ (x.endOp fail).loadMap = 0 ∧
    (x.endOp fail).status1 = (if fail then x.status1 ||| 2 else x.status1) := by
  simp [Die.endOp, ho, he, hst]

theorem eraseEnd_of_pass (hx : s.die (dieKey ch d) = x) (ho : x.op = some o) (he : o.erase = true) (hst : x.st = .erase) :
    Answers (.dieEraseEnd ch d false) s (fun t => (t.die (dieKey ch d)).op = none ∧ (t.die (dieKey ch d)).st = .idle ∧
      ∀ a, t.cell a = if planeBlock a ∈ o.blocks (dieKey ch d) then none else s.cell a) := by
  have hends := State.dieOpEnds_of_op hx ho (.inl (by simp [hst, ArrayOp.running, he])) false
  rw [he] at hends
  refine Answers.of_done (congrArg s.done hends) fun t ht => ?_
  rw [State.die_congr ht.dies, State.die_setDie_self]
  refine ⟨by simp [Die.endOp, hst], by simp [Die.endOp, hst], fun a => ?_⟩
  rw [State.cell, ht.anyBlocks, ht.media]
  exact State.cell_fulfil he x.bufs a

end

/-- Settles O5. -/
theorem transfersAndOperationEnds : Obligations.TransfersAndOperationEnds := by
  refine ⟨fun ch d m i s x r hx hst hr hm hp hi => ?_, fun ch d fail s x o hx ho he hst _ _ => ⟨fun f hf => ?_, fun hf => ?_⟩,
    fun ch d s x o hx ho he hst => eraseEnd_of_pass hx ho he hst⟩
  · have hon : x.st ≠ .off := by rcases hst with h | h | h | h <;> simp [h]
    have ha (kind : SenseKind) {i : BitVec 12} (hi : i.toNat ≤ 255) (hh : kind = .hist → i = 0) := Die.answers_eq (kind := kind) hst hr hm hp hi hh
    refine ⟨fun hk => ?_, fun hk => ?_, fun hk => ?_, fun hk => ?_⟩
    · have hk : r.sense.kind = .page ∨ r.sense.kind = .soft := by
        cases h : r.sense.kind <;> simp_all
      exact Effect.of_done (congrArg s.done (xfer_of_answers (kind := .page) hx hr (by rw [ha .page hi nofun]; simpa using hk)))
    · exact Effect.of_done (congrArg s.done (xfer_of_answers (kind := .soft) hx hr (by rw [ha .soft hi nofun]; simp [hk])))
    · exact Effect.of_done (congrArg s.done (xfer_of_answers (kind := .hist) hx hr (by rw [ha .hist (by decide) fun _ => rfl]; simp [hk])))
    · exact Effect.of_done (congrArg s.done (xfer_of_not_answers (kind := .soft) hx hr hon (by rw [ha .soft hi nofun]; simp [hk])))
  · exact ⟨Effect.of_done rfl, afterProgram_of_fault hx ho he hst hf⟩
  · refine (programEnd_of_no_fault hx ho he hst hf).imp fun t ⟨hd, hmedia⟩ => ?_
    obtain ⟨hop, hidle, hmap, hstatus⟩ := Die.endOp_of_prog (fail := fail) ho he hst
    rw [hd, hmedia]
    refine ⟨hop, hidle, hmap, hstatus, fun a ha => ?_, ?_, ?_⟩
    · cases fail
      · exact State.find_fulfil_of_not_mem he ha
      · exact (State.find_spoil he a).trans (if_neg ha)
    · rintro rfl a ha
      exact (State.find_spoil he a).trans (if_pos ha)
    · rintro rfl p i hp hn
      have hw := State.find_fulfil_of_erased (s := s) (k := dieKey ch d) (bufs := x.bufs) (i := i) he hp
      rw [dieKey_div, dieKey_mod] at hw
      exact hw hn

end Sys2Proof.Machine
end

section
/-! SUPPORT. RESET of a die, its end, and POR: O6. The reference sets that the controller gives back at the end of a RESET: O57. -/

namespace Sys2Proof.Machine

/-! ### RESET (R72) -/

section
variable {ch : Chan} {d : DieNo} {s : State} {x : Die} {k : Nat} {o : ArrayOp}

theorem State.spoil_media_of_erase (h : o.erase = true) : (s.spoil k o).media = s.media := by
  simp only [State.spoil, h, if_true]

theorem State.mem_spoil_anyBlocks (h : o.erase = true) (b : Nat) : b ∈ (s.spoil k o).anyBlocks ↔ b ∈ s.anyBlocks ∨ b ∈ o.blocks k := by
  simp only [State.spoil, h, if_true]
  generalize s.anyBlocks = l
  induction o.blocks k generalizing l with
  | nil => simp
  | cons c bs ih =>
    rw [List.foldl_cons, ih]
    split
    · rename_i hc
      have : b = c → b ∈ l := fun e => e ▸ hc
      simp only [List.mem_cons]
      tauto
    · simp only [List.mem_cons]
      tauto

/-- The array as a RESET leaves it: the operation that it stops is spoiled. -/
theorem State.dieReset_of_powered (hx : s.die k = x) (h : x.st ≠ .off) :
    s.dieReset k = (x.op.elim s (s.spoil k)).setDie k { Die.init.withTemp x.tempHigh with st := .rst } := by
  cases ho : x.op <;> simp only [State.dieReset, hx, ho, Die.takeReset, h, if_false, Option.elim]

theorem State.spoil_dies_elim (op : Option ArrayOp) : (op.elim s (s.spoil k)).dies = s.dies := by
  cases op
  · rfl
  · exact State.spoil_dies _ _

theorem reset_of_powered (hx : s.die (dieKey ch d) = x) (h : x.st ≠ .off) : Answers (.amc2Reset ch d) s (fun t =>
    t.die (dieKey ch d) = { Die.init.withTemp x.tempHigh with st := .rst } ∧ (∀ k, k ≠ dieKey ch d → t.die k = s.die k) ∧
    (∀ o, x.op = some o → o.erase = false → ∀ a, Tab.find t.media a =
      if a ∈ o.addrs (dieKey ch d) then some .anyValue else Tab.find s.media a) ∧
    (∀ o, x.op = some o → o.erase = true → ∀ b, b ∈ t.anyBlocks ↔ b ∈ s.anyBlocks ∨ b ∈ o.blocks (dieKey ch d)) ∧
    (x.op = none → t.media = s.media ∧ t.anyBlocks = s.anyBlocks)) := by
  refine Answers.of_done (congrArg s.done (State.dieReset_of_powered hx h)) fun t ht => ?_
  have hd (k : Nat) := State.die_congr ht.dies k
  rw [ht.media, ht.anyBlocks]
  refine ⟨(hd _).trans (State.die_setDie_self ..), fun k hk => ?_, fun o ho he a => ?_, fun o ho he b => ?_, fun ho => ?_⟩
  · rw [hd, State.die_setDie, if_neg (Ne.symm hk)]
    exact State.die_congr (State.spoil_dies_elim _) k
  · rw [ho]
    exact State.find_spoil he a
  · rw [ho]
    exact State.mem_spoil_anyBlocks he b
  · rw [ho]
    exact ⟨rfl, rfl⟩

/-! ### The end of a RESET (R66, R78, R79) -/

theorem resetEnd_of_other (hx : s.die (dieKey ch d) = x) (h : x.st ≠ .rst) : Effect (.dieResetEnd ch d) s s := by
  subst hx
  exact Effect.of_done (if_pos h)

/-- The sequencer goes on with a die whose RESET has ended, as it was reset for. -/
theorem resetEnd_of_rst (hx : s.die (dieKey ch d) = x) (h : x.st = .rst) {s1 : State} (hs1 : s.setDie (dieKey ch d) { x with st := .idle } = s1) :
    ((s.chan ch).st = .init → Effect (.dieResetEnd ch d) s ((s1.dieAnswers (dieKey ch d)).channelAnswers ch)) ∧
    ((s.chan ch).st ≠ .init → (∀ refs, (s.ctlOf (dieKey ch d)).reinit = some refs →
        Effect (.dieResetEnd ch d) s (s1.reinitDone (dieKey ch d) refs)) ∧
      ((s.ctlOf (dieKey ch d)).reinit = none → Effect (.dieResetEnd ch d) s s1)) := by
  have hend : x.endReset = { x with st := .idle } := if_pos h
  subst hs1
  refine ⟨fun hc => Effect.of_done ?_, fun hc => ⟨fun refs hr => Effect.of_done ?_, fun hr => Effect.of_done ?_⟩⟩ <;>
    change execDieResetEnd ch d s = _
  · simp only [execDieResetEnd, hx, h, hend, hc, ne_eq, not_true_eq_false, if_false]
  · simp only [execDieResetEnd, hx, h, hend, hr, ne_eq, not_true_eq_false, if_false]
  · simp only [execDieResetEnd, hx, h, hend, hr, ne_eq, not_true_eq_false, if_false]

/-! ### POR (R66, R79) -/

theorem por_of_other (hx : s.die (dieKey ch d) = x) (h : x.st ≠ .off ∨ s.diePop (dieKey ch d) = false) : Effect (.diePor ch d) s s := by
  subst hx
  exact Effect.of_done (if_pos (h.imp_right .inl))

/-- A populated die whose rails are up comes up; on a channel that starts it is RESET at once. -/
theorem por_of_off (hx : s.die (dieKey ch d) = x) (h : x.st = .off) (hpop : s.diePop (dieKey ch d) = true)
    (hr : s.power.rails.contains (6 + 2 * (ch.val / 8)) = true) (hr' : s.power.rails.contains (7 + 2 * (ch.val / 8)) = true) :
    ((s.chan ch).st ≠ .reset → (s.chan ch).st ≠ .init → Effect (.diePor ch d) s (s.setDie (dieKey ch d) { x with st := .por })) ∧
    ((s.chan ch).st = .init → Effect (.diePor ch d) s ((s.setDie (dieKey ch d) { x with st := .por }).dieReset (dieKey ch d))) ∧
    ((s.chan ch).st = .reset → Effect (.diePor ch d) s
      (((s.setDie (dieKey ch d) { x with st := .por }).dieReset (dieKey ch d)).setChan ch { s.chan ch with st := .init })) := by
  have hno : ¬ (x.st ≠ .off ∨ s.diePop (dieKey ch d) = false ∨
      (s.power.rails.contains (6 + 2 * (ch.val / 8)) && s.power.rails.contains (7 + 2 * (ch.val / 8))) = false) := by
    simp only [h, hpop, hr, hr']
    decide
  refine ⟨fun hn hi => Effect.of_done ?_, fun hc => Effect.of_done ?_, fun hc => Effect.of_done ?_⟩ <;>
    change execDiePor ch d s = _ <;> simp only [execDiePor, hx] <;> refine (if_neg hno).trans ?_
  · rfl
  · simp only [hc]
  · simp only [hc]

end

/-- Settles O6. -/
theorem resetOfADie : Obligations.ResetOfADie := fun _ _ _ _ hx =>
  ⟨reset_of_powered hx, fun h _ => resetEnd_of_rst hx h, resetEnd_of_other hx, por_of_off hx, por_of_other hx⟩

/-! ### What the controller gives back (R78) -/

section
variable {s : State}

/-- Nothing starts on a die for which no tack programs. -/
theorem State.kick_of_no_tacks (ht : s.tacks = []) (k : Nat) : s.kick k = s := by
  simp [State.kick, State.loader, ht]

theorem State.event_tacks (port code path : Nat) (params : List Byte) (tack : Nat) : (s.event port code path params tack).tacks = s.tacks := by
  unfold State.event
  dsimp only
  split <;> rfl

/-- An offline die on which no tack reads has nothing left to lose. -/
theorem State.loseDie_of_offline (ht : s.tacks = []) {k : Nat} (h : (s.ctlOf k).online = false) : s.loseDie k = s := by
  simp [State.loseDie, State.faultUnit, unitDies, h, State.divert, State.readsOn, ht]

/-- A die that is initialised again gets the sets that the controller kept for it, whether its IDENTIFY keeps to Table 2.10 or not (R78). -/
theorem State.reinitDone_refs (ht : s.tacks = []) {k : Nat} (h : (s.ctlOf k).online = false) (refs : Tab (List Nat)) :
    ((s.reinitDone k refs).die k).refs = refs := by
  unfold State.reinitDone
  extract_lets s1 d c s2
  have hr : (s2.die k).refs = refs := by simp [s2, State.die]
  have ho : (s2.ctlOf k).online = false := by simpa [s2, s1, c, State.ctlOf, State.configDie] using h
  have ht2 : s2.tacks = [] := ht
  split
  · rw [State.kick_of_no_tacks ht2, hr]
  · have hk := kept_event s2 portChan 0x0201 (s2.diePath k) ((identifyBytes k).take 12) 0xFFFF
    have hc := congrArg (fun c => (Tab.get (Kept.ctl c) k DieCtl.init).online) hk
    rw [State.loseDie_of_offline ((State.event_tacks ..).trans ht2) (hc.trans ho), State.die_congr (congrArg Kept.dies hk), hr]

end

/-- Die 0 in the RESET after which it is initialised again. The set that the controller kept for its plane 0 has no threshold. -/
def reinitWithoutThresholds : State :=
  { State.reset with dies := [(0, { Die.init with st := .rst })], ctl := [(0, { DieCtl.init with reinit := some [(0, [])] })]
                     pending := [.dieResetEnd 0 0] }

/-- Refutes O57: the invariant says nothing of the sets that the controller keeps for a die (`DieCtl.reinit`), and the end of the die's
RESET gives them back as they are. -/
theorem not_everyStepKeepsTheDies : ¬ Obligations.EveryStepKeepsTheDies := by
  intro h
  have hs : reinitWithoutThresholds.DiesOk :=
    State.DiesOk.set (s := { reinitWithoutThresholds with dies := [] }) (fun _ => Die.init_ok) 0
      (Die.Ok.calm (Nat.zero_le _) (fun e he => absurd he List.not_mem_nil) (by decide))
  have hend := resetEnd_of_rst (ch := 0) (d := 0) (s := reinitWithoutThresholds.withPending []) rfl rfl rfl
  obtain ⟨t, ht, trails⟩ := (hend.2 (by decide)).1 [(0, [])] rfl
  have hrefs : (t.die 0).refs = [(0, [])] :=
    (congrArg Die.refs (State.die_congr trails.dies 0)).trans (State.reinitDone_refs rfl rfl _)
  have hlen := ((h _ t hs ht 0).refs (0, []) (by simp [hrefs])).1
  exact absurd hlen (by decide)

end Sys2Proof.Machine
end

section
/-! SUPPORT. Alerts and retraining of a channel: O10. -/

namespace Sys2Proof.Machine

/-! ### Channels, controllers and registers -/

section
variable (s : State)

theorem State.chan_setChan (c j : Nat) (x : Channel) : (s.setChan c x).chan j = if c = j then x else s.chan j := Tab.get_put ..

@[simp] theorem State.chan_setChan_self (c : Nat) (x : Channel) : (s.setChan c x).chan c = x := by simp [State.chan_setChan]

theorem State.chan_congr {s t : State} (h : t.chans = s.chans) (c : Nat) : t.chan c = s.chan c := by
  unfold State.chan
  rw [h]

theorem State.arbOf_congr {s t : State} (h : t.arbs = s.arbs) (c : Nat) : t.arbOf c = s.arbOf c := by
  unfold State.arbOf
  rw [h]

theorem bit_eq_testBit (v i : Nat) : bit v i = v.testBit i := by
  simp [bit, Nat.testBit_eq_decide_div_mod_eq, beq_eq_decide]

/-- A bit of a word that the hardware sets reads 1. -/
theorem State.bit_setBit (off : Nat) {i : Nat} (hi : i < 32) : bit ((s.setBit off i).reg off) i = true := by
  rw [State.setBit, State.setField, State.reg_setReg, if_pos rfl, bit_eq_testBit, Nat.testBit_mod_two_pow, ← bit_eq_testBit]
  simp only [hi, decide_true, Bool.true_and, setBits, bits, bit, pow_one, beq_iff_eq]
  generalize s.reg off = v
  have hd : 0 < 2 ^ i := Nat.two_pow_pos i
  generalize 2 ^ i = d at hd
  rcases Nat.mod_two_eq_zero_or_one (v / d) with h | h
  · rw [h, Nat.zero_mul, Nat.sub_zero, Nat.one_mod, Nat.one_mul, Nat.add_div_right _ hd]
    omega
  · have hle : d ≤ v := by
      by_contra hlt
      simp [Nat.div_eq_of_lt (not_le.mp hlt)] at h
    rw [h, Nat.one_mod, Nat.one_mul, Nat.sub_add_cancel hle, h]

end

/-! ### ALERT_N (R83, R84) -/

section
variable {ch : Chan} {s : State}

/-- What a low ALERT_N tells of a die: a TEMP_HIGH or INTERNAL that drives it. -/
def Die.alerted (x : Die) (report internal : Bool) : Die := (x.withTemp (x.tempHigh || (report && !internal))).withInternal internal

/-- The powered dies of a channel, once ALERT_N has told of them. -/
def State.alertedDies (s : State) (ch : Nat) (reports internal : Byte) : State :=
  (List.range 8).foldl (fun s i => if (s.die (dieKey ch i)).st = .off then s
    else s.setDie (dieKey ch i) ((s.die (dieKey ch i)).alerted (reports.getLsbD i) (internal.getLsbD i))) s

theorem State.die_alertedDies (reports internal : Byte) (i : Fin 8) (h : (s.die (dieKey ch i)).st ≠ .off) :
    (s.alertedDies ch reports internal).die (dieKey ch i) = (s.die (dieKey ch i)).alerted (reports.getLsbD i) (internal.getLsbD i) := by
  rw [State.alertedDies, State.die_foldl_of_mem (g := fun i x => if x.st = .off then x else x.alerted (reports.getLsbD i) (internal.getLsbD i))
    (fun s j k => s.die_setPowered (dieKey ch j) k fun x => x.alerted (reports.getLsbD j) (internal.getLsbD j)) _ List.nodup_range]
  simp [i.isLt, h]

theorem State.alertedDies_chans (reports internal : Byte) : (s.alertedDies ch reports internal).chans = s.chans :=
  List.foldlRecOn _ _ (motive := fun (t : State) => t.chans = s.chans) rfl fun t ih i _ => by
    split
    · exact ih
    · exact ih

/-- An item that is owed is appended, unless it waits already. -/
theorem State.owe_of_absent (i : HkItem) (h : (s.chan ch).hk.any (fun e => e.1 == i) = false) :
    s.owe ch i = s.setChan ch { s.chan ch with hk := (s.chan ch).hk ++ [(i, 0)] } :=
  if_neg (by simp only [h, Bool.false_eq_true, not_false_eq_true])

theorem execAlertAsserted_eq (ch : Chan) (reports internal : Byte) (s : State) :
    exec (.alertAsserted ch reports internal) s = s.done (if ((s.alertedDies ch reports internal).chan ch).alertStuck
      then (s.alertedDies ch reports internal).setChan ch { (s.alertedDies ch reports internal).chan ch with alertLow := true }
      else ((s.alertedDies ch reports internal).setChan ch
        { (s.alertedDies ch reports internal).chan ch with alertLow := true }).owe ch .alertScan) := by
  rfl

theorem alertAsserted_of_listening (reports internal : Byte) (hs : (s.chan ch).alertStuck = false)
    (hk : (s.chan ch).hk.all (fun e => e.1 != .alertScan) = true) :
    Answers (.alertAsserted ch reports internal) s (fun t => (t.chan ch).alertLow = true ∧
      (HkItem.alertScan, 0) ∈ (t.chan ch).hk ∧ ∀ i : Fin 8, (s.die (dieKey ch i)).st ≠ .off →
        ((t.die (dieKey ch i)).tempHigh = ((s.die (dieKey ch i)).tempHigh || (reports.getLsbD i && !internal.getLsbD i)) ∧
         (t.die (dieKey ch i)).internal = ((s.die (dieKey ch i)).internal || internal.getLsbD i))) := by
  have hc : (s.alertedDies ch reports internal).chan ch = s.chan ch := State.chan_congr (State.alertedDies_chans _ _) _
  have he := execAlertAsserted_eq ch reports internal s
  rw [hc, hs, if_neg Bool.false_ne_true] at he
  have hany : (s.chan ch).hk.any (fun e => e.1 == .alertScan) = false := by
    rw [← Bool.not_eq_true', List.not_any_eq_all_not]
    exact hk
  rw [State.owe_of_absent _ (by rw [State.chan_setChan_self]; exact hany)] at he
  refine Answers.of_done he fun t ht => ?_
  have hd := State.die_congr (ht.dies.trans ((State.setChan_dies ..).trans (State.setChan_dies ..)))
  rw [State.chan_congr ht.chans, State.chan_setChan_self, State.chan_setChan_self]
  refine ⟨rfl, List.mem_append_right _ (List.mem_singleton_self _), fun i hi => ?_⟩
  rw [hd, State.die_alertedDies reports internal i hi, Die.alerted]
  exact ⟨rfl, rfl⟩

theorem alertStuck_of_silent (hs : (s.chan ch).alertStuck = false) (ha : s.anyAlert ch = false) :
    Effect (.alertStuck ch) s (((s.setChan ch { s.chan ch with alertLow := true, alertStuck := true }).setBit (rChEvents ch) 7).event portChan 0x0203
      (s.channelPath ch) []) :=
  Effect.of_done (congrArg s.done (if_pos (by simp [hs, ha])))

theorem alertStuckEnd_of_stuck (hs : (s.chan ch).alertStuck = true) :
    Effect (.alertStuckEnd ch) s (s.setChan ch { s.chan ch with alertStuck := false, alertLow := false }) :=
  Effect.of_done (congrArg s.done (if_pos hs))

end

/-! ### Ends of retrainings (R82, R105) -/

section
variable {ch : Chan} {s : State} {trim deskew : Word} {ck : Nat} {temps : List (BitVec 16)}

theorem retrainDone_of_ok (h : (s.chan ch).st = .retraining) :
    exec (.retrainDone ch true trim deskew ck temps) s = s.done (((s.account ch ck .back).setBit (rChEvents ch) 6).trained ch trim deskew) := by
  change execRetrainDone ch true trim deskew ck temps s = _
  simp [execRetrainDone, h]

theorem retrainDone_of_first_failure (h : (s.chan ch).st = .retraining) (ht : (s.chan ch).retrainTry = 0) :
    exec (.retrainDone ch false trim deskew ck temps) s = s.done
      ((((s.account ch ck .back).setBit (rChEvents ch) 5).event portChan 0x0205 (s.channelPath ch) (le 1 1 ++ le 1 5)).setChan ch
        { s.chan ch with retrainTry := 1 }) := by
  change execRetrainDone ch false trim deskew ck temps s = _
  simp [execRetrainDone, h, ht]

/-- What `trained` leaves of the rest of the state, once the channel's own registers and its record are written. -/
def State.trainedChan (s : State) (ch : Nat) (trim deskew : Word) : State :=
  ((s.setReg (rChTrim ch) (trim.toNat &&& 0x3F3F3F3F)).setReg (rChDeskew ch) deskew.toNat).setChan ch
    { s.chan ch with st := .ready, fast := true, retrainTry := 0, crcErrors := [] }

theorem State.trained_frame (s : State) (ch : Nat) (trim deskew : Word) :
    (s.trained ch trim deskew).chans = (s.trainedChan ch trim deskew).chans ∧
    (s.trained ch trim deskew).regs = (s.trainedChan ch trim deskew).regs ∧
    (s.trained ch trim deskew).obs = s.obs :=
  List.foldlRecOn _ _ (motive := fun (t : State) => t.chans = (s.trainedChan ch trim deskew).chans ∧
    t.regs = (s.trainedChan ch trim deskew).regs ∧ t.obs = s.obs) ⟨rfl, rfl, rfl⟩ fun t ih i _ => by
      dsimp only
      split
      · exact ih
      · exact ih

theorem State.reg_event (s : State) (port code path : Nat) (params : List Byte) {off : Nat} (h : off ≠ rEvtPortDrop) :
    (s.event port code path params).reg off = s.reg off := by
  simp only [State.event]
  split
  · rfl
  · rw [State.bump, State.setField, State.reg_setReg, if_neg (Ne.symm h)]

theorem State.reg_congr {s t : State} (h : t.regs = s.regs) (off : Nat) : t.reg off = s.reg off := by
  unfold State.reg
  rw [h]

/-- The registers of a channel that its training writes. -/
theorem State.trained_reg (s : State) (ch : Nat) (trim deskew : Word) (off : Nat) : (s.trained ch trim deskew).reg off =
    if rChDeskew ch = off then deskew.toNat else if rChTrim ch = off then trim.toNat &&& 0x3F3F3F3F else s.reg off := by
  rw [State.reg_congr (s.trained_frame ch trim deskew).2.1, State.trainedChan, State.reg_congr (State.setChan_regs ..), State.reg_setReg,
    State.reg_setReg, Nat.mod_eq_of_lt deskew.isLt, Nat.mod_eq_of_lt (Nat.and_lt_two_pow _ (by decide))]

/-- No register of a channel is one that a step's end may change. -/
theorem chReg_not_mem_trailRegs (ch : Chan) {i : Nat} (hi : i < 0x400) : chBase ch + i ∉ trailRegs := by
  have := ch.isLt
  simp only [trailRegs, chBase, rDevFlagsChg, rObsStatus, rObsCtrl, List.mem_cons, List.not_mem_nil, or_false]
  omega

theorem retrainDone_ok_answers (h : (s.chan ch).st = .retraining) :
    Answers (.retrainDone ch true trim deskew ck temps) s (fun t => (t.chan ch).st = .ready ∧ (t.chan ch).fast = true ∧
      t.reg (rChTrim ch) = (trim.toNat &&& 0x3F3F3F3F) ∧ t.reg (rChDeskew ch) = deskew.toNat ∧ bit (t.reg (rChEvents ch)) 6 = true ∧
      (Tab.get t.obs.slots ch SlotCnt.init).back = (Tab.get s.obs.slots ch SlotCnt.init).back + ck) := by
  refine Answers.of_done (retrainDone_of_ok h) fun t ht => ?_
  obtain ⟨hchans, hregs, hobs⟩ := ((s.account ch ck .back).setBit (rChEvents ch) 6).trained_frame ch trim deskew
  have hslots : t.obs.slots = (s.account ch ck .back).obs.slots := (congrArg Obs.slots ht.obs).trans (congrArg Obs.slots hobs)
  rw [State.chan_congr (ht.chans.trans hchans), ht.reg _ (chReg_not_mem_trailRegs ch (by decide)),
    ht.reg _ (chReg_not_mem_trailRegs ch (by decide)), ht.reg _ (chReg_not_mem_trailRegs ch (by decide)), hslots]
  simp only [State.trained_reg, State.trainedChan, State.chan_setChan_self, State.account, State.elapse, State.classify, Tab.get_put_self]
  refine ⟨trivial, trivial, by simp, by simp, ?_, trivial⟩
  simpa using State.bit_setBit _ (rChEvents ch) (by decide)

theorem retrainDone_first_failure_answers (h : (s.chan ch).st = .retraining) (h0 : (s.chan ch).retrainTry = 0) :
    Answers (.retrainDone ch false trim deskew ck temps) s (fun t => (t.chan ch).st = .retraining ∧ (t.chan ch).retrainTry = 1 ∧
        bit (t.reg (rChEvents ch)) 5 = true ∧ t.dies = s.dies ∧ t.ctl = s.ctl) := by
  refine Answers.of_done (retrainDone_of_first_failure h h0) fun t ht => ?_
  have hch : rChEvents ch ≠ rEvtPortDrop := by
    have := ch.isLt
    simp only [rChEvents, rEvtPortDrop, chBase]
    omega
  have hk := kept_event ((s.account ch ck .back).setBit (rChEvents ch) 5) portChan 0x0205 (s.channelPath ch) (le 1 1 ++ le 1 5) 0xFFFF
  rw [State.chan_congr ht.chans, State.chan_setChan_self, ht.reg _ (chReg_not_mem_trailRegs ch (by decide))]
  refine ⟨h, rfl, ?_, ht.dies.trans (congrArg Kept.dies hk), ht.ctl.trans (congrArg Kept.ctl hk)⟩
  rw [State.reg_congr (State.setChan_regs ..), State.reg_event _ _ _ _ _ hch]
  exact State.bit_setBit _ _ (by decide)

end

/-! ### RETRAIN and RETRAIN_ALL (R81, R82) -/

section
variable (s : State)

theorem State.chan_markOutside (p : MediaRead → Bool) (c : Nat) : (s.markOutside p).chan c = s.chan c := by rfl

theorem State.wantRetrain_of_not_ready {ch : Nat} (h : (s.chan ch).st ≠ .ready) : s.wantRetrain ch = s := if_pos h

theorem State.wantRetrain_of_held {ch : Nat} (h : (s.chan ch).st = .ready) (hg : (s.arbOf ch).grant ≠ none) :
    s.wantRetrain ch = s.setChan ch { s.chan ch with retrainWant := true } := by
  simp [State.wantRetrain, h, Option.isSome_iff_ne_none, hg]

theorem State.wantRetrain_of_free {ch : Nat} (h : (s.chan ch).st = .ready) (hg : (s.arbOf ch).grant = none) :
    s.wantRetrain ch = (s.setChan ch { s.chan ch with st := .retraining, retrainWant := false, retrainTry := 0 }).markOutside
      (fun r => chanOf r.addr == ch) := by
  simp [State.wantRetrain, h, hg]

theorem State.wantRetrain_other {ch c : Nat} (h : c ≠ ch) :
    (s.wantRetrain ch).chan c = s.chan c ∧ (s.wantRetrain ch).arbOf c = s.arbOf c := by
  unfold State.wantRetrain
  dsimp only
  split
  · exact ⟨rfl, rfl⟩
  · split
    · exact ⟨by rw [State.chan_setChan, if_neg (Ne.symm h)], rfl⟩
    · exact ⟨by rw [State.chan_markOutside, State.chan_setChan, if_neg (Ne.symm h)], rfl⟩

/-- A channel that retrains goes on, whichever channels RETRAIN_ALL comes to. -/
theorem State.retraining_foldl_wantRetrain {c : Nat} (l : List Nat) (h : (s.chan c).st = .retraining) :
    ((l.foldl State.wantRetrain s).chan c).st = .retraining :=
  List.foldlRecOn l State.wantRetrain (motive := fun t => (t.chan c).st = .retraining) h fun t ih ch _ => by
    by_cases hc : c = ch
    · subst hc
      rw [t.wantRetrain_of_not_ready (by simp [ih]), ih]
    · rw [(t.wantRetrain_other hc).1, ih]

theorem State.foldl_wantRetrain_of_free {c : Nat} (l : List Nat) (hc : c ∈ l) (h : (s.chan c).st = .ready)
    (hg : (s.arbOf c).grant = none) : ((l.foldl State.wantRetrain s).chan c).st = .retraining := by
  induction l generalizing s with
  | nil => cases hc
  | cons ch l ih =>
    by_cases he : c = ch
    · subst he
      refine State.retraining_foldl_wantRetrain _ l ?_
      rw [s.wantRetrain_of_free h hg, State.chan_markOutside, State.chan_setChan_self]
    · obtain ⟨hchan, harb⟩ := s.wantRetrain_other he
      exact ih (s.wantRetrain ch) ((List.mem_cons.mp hc).resolve_left he) (by rw [hchan, h]) (by rw [harb, hg])

end

section
variable {ch : Chan} {v : Word} {s : State}

/-- What a write to CH_CTRL leaves for the retraining: the channels and the grants as they were. -/
theorem exec_retrain_of_bit (hb : s.barOpen = true) (hv : v.getLsbD 2 = true) :
    ∃ x : State, exec (.retrain ch v) s = s.done (x.wantRetrain ch) ∧ x.chans = s.chans ∧ x.arbs = s.arbs := by
  have he : exec (.retrain ch v) s = s.done (s.writeChCtrl ch v.toNat) := congrArg s.done (if_pos hb)
  have h2 : bit v.toNat 2 = true := (bit_eq_testBit ..).trans hv
  rw [State.writeChCtrl, h2, if_pos rfl] at he
  exact ⟨_, he, rfl, rfl⟩

/-- So too a write to MEDIA_CTRL. -/
theorem exec_retrainAll_of_bit (hb : s.barOpen = true) (hv : v.getLsbD 8 = true) :
    ∃ x : State, exec (.retrainAll v) s = s.done ((List.range 96).foldl State.wantRetrain x) ∧ x.chans = s.chans ∧ x.arbs = s.arbs := by
  have he : exec (.retrainAll v) s = s.done (s.writeMediaCtrl v.toNat) := congrArg s.done (if_pos hb)
  have h8 : bit v.toNat 8 = true := (bit_eq_testBit ..).trans hv
  rw [State.writeMediaCtrl, h8, if_pos rfl] at he
  refine ⟨_, he, ?_⟩
  split
  · exact ⟨rfl, rfl⟩
  · exact ⟨rfl, rfl⟩

theorem retrain_of_free (hb : s.barOpen = true) (h : (s.chan ch).st = .ready) (hv : v.getLsbD 2 = true) (hg : (s.arbOf ch).grant = none) :
    Answers (.retrain ch v) s (fun t => (t.chan ch).st = .retraining ∧ (t.chan ch).retrainTry = 0 ∧
      ∀ j : Nat, j ≠ ch.val → t.chan j = s.chan j) := by
  obtain ⟨x, he, hchans, harbs⟩ := exec_retrain_of_bit (ch := ch) hb hv
  have hc := State.chan_congr hchans
  refine Answers.of_done he fun t ht => ⟨?_, ?_, fun j hj => ?_⟩
  · rw [State.chan_congr ht.chans, x.wantRetrain_of_free (by rw [hc, h]) (by rw [State.arbOf_congr harbs, hg]), State.chan_markOutside,
      State.chan_setChan_self]
  · rw [State.chan_congr ht.chans, x.wantRetrain_of_free (by rw [hc, h]) (by rw [State.arbOf_congr harbs, hg]), State.chan_markOutside,
      State.chan_setChan_self]
  · rw [State.chan_congr ht.chans, (x.wantRetrain_other hj).1, hc]

theorem retrain_of_held (hb : s.barOpen = true) (h : (s.chan ch).st = .ready) (hv : v.getLsbD 2 = true) (hg : (s.arbOf ch).grant ≠ none) :
    Answers (.retrain ch v) s (fun t => (t.chan ch).st = .ready ∧ (t.chan ch).retrainWant = true) := by
  obtain ⟨x, he, hchans, harbs⟩ := exec_retrain_of_bit (ch := ch) hb hv
  have hc := State.chan_congr hchans ch
  refine Answers.of_done he fun t ht => ?_
  rw [State.chan_congr ht.chans, x.wantRetrain_of_held (by rw [hc, h]) (by rwa [State.arbOf_congr harbs]), State.chan_setChan_self, hc]
  exact ⟨h, rfl⟩

theorem retrainAll_of_free (hb : s.barOpen = true) (hv : v.getLsbD 8 = true) :
    Answers (.retrainAll v) s (fun t => ∀ c : Chan, (s.chan c).st = .ready → (s.arbOf c).grant = none → (t.chan c).st = .retraining) := by
  obtain ⟨x, he, hchans, harbs⟩ := exec_retrainAll_of_bit hb hv
  refine Answers.of_done he fun t ht c h hg => ?_
  rw [State.chan_congr ht.chans]
  exact x.foldl_wantRetrain_of_free _ (List.mem_range.mpr c.isLt) (by rw [State.chan_congr hchans, h]) (by rw [State.arbOf_congr harbs, hg])

end

/-- Settles O10: alerts and ends of retrainings by the state that each row leaves; RETRAIN_ALL by induction over the channels, one that
already retrains being left alone. -/
theorem channelConditions : Obligations.ChannelConditions := by
  unfold Obligations.ChannelConditions
  refine ⟨fun ch reports internal s => ⟨?_, ?_, ?_⟩, fun ch trim deskew ck temps s h => ⟨?_, ?_⟩, fun ch v s hb h => ⟨?_, ?_, ?_⟩⟩
  · exact alertAsserted_of_listening reports internal
  · exact alertStuck_of_silent
  · exact alertStuckEnd_of_stuck
  · exact retrainDone_ok_answers h
  · exact retrainDone_first_failure_answers h
  · exact retrain_of_free hb h
  · exact retrain_of_held hb h
  · exact retrainAll_of_free hb

end Sys2Proof.Machine
end

section
/-! SUPPORT. Senses that the sequencer issues, and the ends of read data phases and decodes: O9. -/

namespace Sys2Proof.Machine

/-! ### The frames of a sense to an IDLE die (R74) -/

section
variable {d : Die}

theorem Die.takeSetRef_st (mod : BitVec 6) (vs : List (BitVec 12)) : (d.takeSetRef mod vs).st = d.st := by
  unfold Die.takeSetRef
  extract_lets mask ts
  repeat' split
  all_goals rfl

/-- The SET_REF frame of one plane's set. -/
def Die.takePlaneSet (d : Die) (e : Nat × List Int) : Die :=
  d.takeSetRef (BitVec.ofNat 6 (2 ^ e.1 * 4)) (e.2.map (fun v => BitVec.ofNat 12 v.toNat))

/-- The SET_REF frames ahead of a sense leave an IDLE die IDLE, and SENSE starts on it. -/
theorem Die.takeRead_of_idle (sets : Tab (List Int)) (x : Sense) (hd : d.st = .idle) :
    (d.takeRead false sets x).st = .sense ∧ (d.takeRead false sets x).sense = some x := by
  have hf : (sets.foldl Die.takePlaneSet d).st = .idle :=
    List.foldlRecOn sets Die.takePlaneSet (motive := fun d => d.st = .idle) hd fun d ih e _ => (d.takeSetRef_st _ _).trans ih
  have he : d.takeRead false sets x = (sets.foldl Die.takePlaneSet d).takeSense x := by
    simp only [Die.takeRead, hd, Bool.false_or, Bool.false_eq_true, if_false]
    rfl
  rw [he, Die.takeSense, hf]
  exact ⟨rfl, rfl⟩

end

section
variable {s : State} {k : Nat} {die : Nat} {t0 : Tack} {r : MediaRead}

theorem State.startLate_of_restored (h : (s.age die).restored = true) : s.startLate die = s := if_pos h

/-- The sense of a read: its kind, its page, and the planes of the reads merged with it (R74). -/
def State.senseFor (s : State) (die : Nat) (x : Nat × Tack × MediaRead) : Sense :=
  { kind := x.2.2.kind x.2.1.retry, planes := BitVec.ofNat 4 (total ((s.merged die x).2.map (fun e => 2 ^ e.1)))
    block := blockOf x.2.2.addr, page := pageOf x.2.2.addr, delta := s.deltaOf x.2.1.retry }

theorem State.issueSense_of_idle (g : Bool) (hage : (s.age die).restored = true) (hd : (s.die die).st = .idle)
    (hn : s.nextRead die (fun _ => true) = some (k, t0, r)) (hw : s.readsOn die (fun p => p == .sensing || p == .ready) = []) :
    (s.issueSense die g).kept =
      (s.setDie die ((s.die die).takeRead false (s.merged die (k, t0, r)).2 (s.senseFor die (k, t0, r)))).kept := by
  simp only [State.issueSense, s.startLate_of_restored hage, hd, hn, hw, beq_self_eq_true, Bool.true_or, List.any_nil, Bool.false_eq_true,
    if_false, Bool.not_true, List.foldl_nil]
  exact kept_foldl _ (fun s e => kept_updTack s e _) _

end

/-! ### SENSE_ISSUE -/

section
variable {ch : Chan} {d : DieNo} {s : State}

theorem senseIssue_of_idle (g : Bool) {k : Nat} {t0 : Tack} {r : MediaRead} (hon : (s.ctlOf (dieKey ch d)).online = true)
    (hch : (s.chan ch).st = .ready) (hage : (s.age (dieKey ch d)).restored = true) (hd : (s.die (dieKey ch d)).st = .idle)
    (hn : s.nextRead (dieKey ch d) (fun _ => true) = some (k, t0, r))
    (hw : s.readsOn (dieKey ch d) (fun p => p == .sensing || p == .ready) = []) :
    Answers (.senseIssue ch d g) s (fun t => (t.die (dieKey ch d)).st = .sense ∧ ∃ q, (t.die (dieKey ch d)).sense = some q ∧
      q.kind = r.kind t0.retry ∧ q.block = blockOf r.addr ∧ q.page = pageOf r.addr ∧ t.media = s.media) := by
  have he : exec (.senseIssue ch d g) s = s.done (s.issueSense (dieKey ch d) g) := by
    change execSenseIssue ch d g s = _
    simp [execSenseIssue, hon, hch]
  have hk := State.issueSense_of_idle g hage hd hn hw
  obtain ⟨hst, hsense⟩ := Die.takeRead_of_idle (s.merged (dieKey ch d) (k, t0, r)).2 (s.senseFor (dieKey ch d) (k, t0, r)) hd
  refine Answers.of_done he fun t ht => ?_
  rw [State.die_congr (ht.dies.trans (congrArg Kept.dies hk)), State.die_setDie_self]
  exact ⟨hst, _, hsense, rfl, rfl, rfl, ht.media.trans (congrArg Kept.media hk)⟩

theorem senseIssue_of_offline (g : Bool) (hon : (s.ctlOf (dieKey ch d)).online = false) :
    Effect (.senseIssue ch d g) s (s.divert (dieKey ch d)).advance := by
  refine Effect.of_done ?_
  change execSenseIssue ch d g s = _
  simp [execSenseIssue, hon]

end

/-! ### The end of a read data phase, and of a decode -/

section
variable {ch : Chan} {slot : BitVec 16} {s : State} {tk : Tack} {r : MediaRead}

/-- A codeword that reached its die's channel whole goes to the decoders (R66, R105). -/
theorem xferComplete_of_ok (h : List Nat) {k : Nat} (hr : tk.rd = some r) (hdr : tk.draining = false) (hg : (s.arbOf ch).grant = some k)
    (hk : Tab.find s.tacks k = some tk) (hch : (s.chan ch).st = .ready) (hh : r.hist = false) (h0 : r.repeats = 0) (h5 : tk.retry < 5) :
    Effect (.xferComplete ch true h) s
      ((((((s.phaseEnds ch).elapse ch 2328).updTack k (fun t => { t with rd := some { r with phase := .decoding } })).toDecoder k).kickChannel
        ch).advance) := by
  have hsoft : tk.soft = false := by simp [Tack.soft, Nat.ne_of_lt h5, Nat.ne_of_lt (Nat.lt_succ_of_lt h5)]
  refine Effect.of_done ?_
  change execXferComplete ch true h s = _
  simp [execXferComplete, hg, hk, hr, hch, hdr, hh, h0, hsoft, slotLength]

/-- The failed decode of a read that has left the decoders' queue wastes its slot; `x` is what the ladder or the loss makes of the read. -/
theorem decodeDone_of_failed {out : DecodeOut} {x : State} (hr : tk.rd = some r) (hdr : tk.draining = false)
    (hk : Tab.find s.tacks slot.toNat = some tk) (hp : r.phase = .decoding) (hq : s.drift.decodeQ.contains slot.toNat = false)
    (h3 : r.repeats ≠ 3) (hrt : tk.retry < 3)
    (hx : (s.decodeOf r.addr out = .erased ∧ (s.classify (chanOf r.addr) 2328 .wasted).readLost slot.toNat tk r.addr 2 = x) ∨
      (s.decodeOf r.addr out = .bad ∧ (s.classify (chanOf r.addr) 2328 .wasted).stepFailed slot.toNat tk r = x)) :
    Effect (.decodeDone slot out) s (((x.admitDecodes x.drift.decodeQ.length).kickChannel (chanOf r.addr)).advance) := by
  have hsoft : tk.soft = false := by
    simp only [Tack.soft, Bool.or_eq_false_iff, beq_eq_false_iff_ne]
    omega
  refine Effect.of_done ?_
  change execDecodeDone slot out s = _
  simp only [execDecodeDone, hk, Option.bind_some, hr, Option.map_some, hp, hq, hdr, hsoft, h3, slotLength, ne_eq, not_true, if_false,
    Bool.false_eq_true, or_false]
  rcases hx with ⟨hd, rfl⟩ | ⟨hd, rfl⟩
  · simp only [hd]
  · simp only [hd]

theorem State.stepFailed_of_ladder {k : Nat} (hdr : tk.draining = false) (hop : tk.op ≠ .burnishRead) (hrt : tk.retry < 3) :
    s.stepFailed k tk r = (s.updTack k (fun t => { t with retry := tk.retry + 1, rd := some { r with phase := .queued, hist := false, repeats := 0 } })).count
      0x07 (tk.tag (some (chanOf r.addr))) := by
  have hlow : ¬(6 ≤ tk.retry ∨ 4 ≤ tk.retry ∧ r.noAge = true ∧ r.histTaken.isNone = true) := by omega
  have h4 : (tk.retry + 1 == 4) = false := beq_eq_false_iff_ne.mpr (by omega)
  unfold State.stepFailed
  rw [hdr, if_neg Bool.false_ne_true, if_neg hop, if_neg hlow]
  simp only [h4]

theorem State.decodeOf_bad_of_written {a : MediaAddr} (h : Cell.erased (s.cell a.toNat) false = false) : s.decodeOf a .bad = .bad := by
  have he : ((DecodeOut.bad == .erased) : Bool) = false := rfl
  rw [State.decodeOf, he, h]
  rfl

theorem State.decodeOf_of_erased {a : MediaAddr} (out : DecodeOut) (h : s.cell a.toNat = none) : s.decodeOf a out = .erased := by
  rw [State.decodeOf, h]
  rfl

theorem decodeDone_of_waiting (out : DecodeOut) (hr : tk.rd = some r) (hk : Tab.find s.tacks slot.toNat = some tk)
    (hq : s.drift.decodeQ.contains slot.toNat = true) : Effect (.decodeDone slot out) s s := by
  refine Effect.of_done ?_
  change execDecodeDone slot out s = _
  simp only [execDecodeDone, hk, Option.bind_some, hr, Option.map_some]
  exact if_pos (.inr hq)

end

/-- Settles O9: the frames of a sense go to an IDLE die by `Die.takeRead_of_idle`; a failed decode is one lemma, for the erased codeword and
for the one that does not decode. -/
theorem sensesIssuedAndDecoded : Obligations.SensesIssuedAndDecoded := by
  unfold Obligations.SensesIssuedAndDecoded
  refine ⟨fun ch d g s k t0 r => ⟨?_, ?_⟩, fun ch h slot s s2 k tk r out hr hdr => ⟨?_, ?_, ?_, ?_⟩⟩
  · exact senseIssue_of_idle g
  · exact senseIssue_of_offline g
  · exact xferComplete_of_ok h hr hdr
  · intro hk hp hq h3 hrt hop hcell hs2
    exact decodeDone_of_failed hr hdr hk hp hq h3 hrt
      (.inr ⟨State.decodeOf_bad_of_written hcell, (State.stepFailed_of_ladder hdr hop hrt).trans hs2⟩)
  · intro hk hp hq h3 hrt hcell hs2
    exact decodeDone_of_failed hr hdr hk hp hq h3 hrt (.inl ⟨State.decodeOf_of_erased out hcell, hs2⟩)
  · exact fun hk hq => decodeDone_of_waiting out hr hk hq

end Sys2Proof.Machine
end

section
/-! SUPPORT. Housekeeping windows, and the samples and clocks of temperature: O15. -/

namespace Sys2Proof.Machine

/-! ### A window whose first item is GET_TEMP (R85, R492) -/

section
variable (s : State)

theorem State.ctlOf_setCtl_self (k : Nat) (c : DieCtl) : (s.setCtl k c).ctlOf k = c := Tab.get_put_self ..

theorem State.age_setAge_self (k : Nat) (a : DieAge) : (s.setAge k a).age k = a := Tab.get_put_self ..

theorem State.judgeHot_temp (k : Nat) : ((s.judgeHot k).ctlOf k).temp = (s.ctlOf k).temp := by
  rw [State.judgeHot, State.ctlOf_setCtl_self]

theorem State.alertEnds_ctl_drift (ch : Nat) : (s.alertEnds ch).ctl = s.ctl ∧ (s.alertEnds ch).drift = s.drift := by
  unfold State.alertEnds
  dsimp only
  split
  · exact ⟨rfl, rfl⟩
  · exact ⟨rfl, rfl⟩

theorem State.wantRetrain_ctl_drift (ch : Nat) : (s.wantRetrain ch).ctl = s.ctl ∧ (s.wantRetrain ch).drift = s.drift := by
  unfold State.wantRetrain
  dsimp only
  split
  · exact ⟨rfl, rfl⟩
  · split
    · exact ⟨rfl, rfl⟩
    · exact ⟨rfl, rfl⟩

/-- What the item makes of the die's record and of its age: the temperature read, and the band that it comes to. -/
theorem State.takeTemp_temp_band (ch d : Nat) (temp : Int) :
    ((s.takeTemp ch d temp).ctlOf (dieKey ch d)).temp = temp ∧
    ((s.takeTemp ch d temp).age (dieKey ch d)).band = nextBand (s.age (dieKey ch d)).band temp := by
  unfold State.takeTemp
  extract_lets k x s1 c base s2 a s3 s4 n rested
  have hage : s1.age k = s.age k := by
    dsimp only [s1]
    split
    · rfl
    · rfl
  obtain ⟨hctl, hdrift⟩ := s3.alertEnds_ctl_drift ch
  have h4 (t : State) (hc : t.ctl = s4.ctl) (hd : t.drift = s4.drift) :
      (t.ctlOf k).temp = temp ∧ (t.age k).band = nextBand (s.age k).band temp := by
    have htemp : (t.ctlOf k).temp = (s2.ctlOf k).temp := congrArg (fun l => (Tab.get l k DieCtl.init).temp) (hc.trans hctl)
    have hband : (t.age k).band = (s3.age k).band := congrArg (fun (l : Drift) => (Tab.get l.dies k DieAge.init).band) (hd.trans hdrift)
    rw [htemp, hband, State.age_setAge_self, ← hage]
    exact ⟨(State.judgeHot_temp _ k).trans (congrArg DieCtl.temp (State.ctlOf_setCtl_self ..)), rfl⟩
  split
  · obtain ⟨hc, hd⟩ := (s4.setChan ch { n with tempTrain := some s4.power.conv }).wantRetrain_ctl_drift ch
    exact h4 _ hc hd
  · exact h4 _ rfl rfl

end

section
variable {ch : Chan} {d : DieNo} {temp : BitVec 16} {s : State}

/-- One GET_TEMP alone is the item that a window takes, whether the channel scans or not. -/
theorem hkFirst_getTemp (noScans : Bool) (d : Nat) : hkFirst noScans [(.getTemp d, 0)] = some (.getTemp d, 0) := by
  cases noScans with
  | false => rfl
  | true => rfl

theorem housekeepingWindow_of_getTemp (h : (s.chan ch).st = .ready) (hi : s.hkItems ch = [(.getTemp d, 0)]) :
    Effect (.housekeepingWindow ch temp) s
      (((s.setChan ch { s.chan ch with hk := [] }).takeTemp ch d temp.toInt).kickChannel ch).advance := by
  refine Effect.of_done ?_
  change execHousekeepingWindow ch temp s = _
  simp [execHousekeepingWindow, h, hi, hkFirst_getTemp]

end

/-! ### Refreshes of DRAM, polls and the clocks of age (R109, R435) -/

section
variable {s : State}

theorem dramRefresh_of_cool {n : Fin 2} (h : Tab.get s.therm.dramBand n.val 0 ≠ 5) : Effect (.dramRefresh n) s
    { s with therm := { s.therm with refreshDue := s.therm.refreshDue.filter (fun i => i != n.val) } } :=
  Effect.of_done (congrArg s.done (if_neg h))

theorem State.ageDie_age (k : Nat) : (s.ageDie k).age k = { s.age k with
    counter := if (s.age k).restored then Nat.min (2 ^ 56 - 1) ((s.age k).counter + ageTicks s.drift.profile.factors (s.dieTemp k).1 10) else (s.age k).counter
    holding := (s.age k).holding + ageTicks s.drift.profile.factors (s.dieTemp k).1 10, stale := (s.dieTemp k).2
    factor := (accel s.drift.profile.factors (s.dieTemp k).1).1 / (4 * (accel s.drift.profile.factors (s.dieTemp k).1).2), bandAt := (s.age k).band } :=
  State.age_setAge_self ..

theorem thermalAgeTick_of_no_channel (hm : s.mounted = false) (hc : s.chans = []) : Effect .thermalAgeTick s s := by
  refine Effect.of_done ?_
  change execThermalAgeTick s = _
  simp [execThermalAgeTick, State.checkAges, hc, hm]

theorem thermalAgeTick_of_channel {ch : Chan} {c : Channel} (hc : s.chans = [(ch.val, c)]) (h : c.st = .ready)
    (hp : ∀ d : Fin 8, (s.ctlOf (dieKey ch d)).present = true) :
    Effect .thermalAgeTick s (((List.range 8).map (dieKey ch)).foldl State.ageDie s).checkAges := by
  have hall : ((List.range 8).map (dieKey ch)).filter (fun k => (s.ctlOf k).present) = (List.range 8).map (dieKey ch) := by
    refine List.filter_eq_self.mpr fun k hk => ?_
    obtain ⟨d, hd, rfl⟩ := List.mem_map.mp hk
    exact hp ⟨d, List.mem_range.mp hd⟩
  refine Effect.of_done ?_
  change execThermalAgeTick s = _
  simp only [execThermalAgeTick, hc, List.filter_cons, h, beq_self_eq_true, Bool.true_or, if_true, List.filter_nil, List.flatMap_cons,
    List.flatMap_nil, List.append_nil, hall]

/-- Once owed, an item waits whatever else is owed. -/
theorem State.owe_hk (ch : Nat) (i : HkItem) : ((s.owe ch i).chan ch).hk.any (fun e => e.1 == i) = true := by
  unfold State.owe
  dsimp only
  split
  · assumption
  · rw [State.chan_setChan_self, List.any_append, List.any_cons, beq_self_eq_true]
    simp

theorem State.owe_keeps_hk {ch : Nat} {j : HkItem} (i : HkItem) (h : (s.chan ch).hk.any (fun e => e.1 == j) = true) :
    ((s.owe ch i).chan ch).hk.any (fun e => e.1 == j) = true := by
  unfold State.owe
  dsimp only
  split
  · exact h
  · rw [State.chan_setChan_self, List.any_append, h, Bool.true_or]

theorem State.owe_ctl (ch : Nat) (i : HkItem) : (s.owe ch i).ctl = s.ctl := by
  unfold State.owe
  dsimp only
  split
  · rfl
  · rfl

/-- The poll of one die of a channel. -/
def State.owePoll (ch : Nat) (s : State) (d : Nat) : State := if (s.ctlOf (dieKey ch d)).online then s.owe ch (.getTemp d) else s

theorem State.owePoll_ctl (ch d : Nat) : (s.owePoll ch d).ctl = s.ctl := by
  unfold State.owePoll
  split
  · exact State.owe_ctl ..
  · rfl

theorem State.owePoll_keeps_hk {ch d : Nat} (i : Nat) (h : (s.chan ch).hk.any (fun e => e.1 == .getTemp d) = true) :
    ((s.owePoll ch i).chan ch).hk.any (fun e => e.1 == .getTemp d) = true := by
  unfold State.owePoll
  split
  · exact State.owe_keeps_hk _ h
  · exact h

theorem State.foldl_owePoll_hk {ch d : Nat} (l : List Nat) (hd : d ∈ l) (h : (s.ctlOf (dieKey ch d)).online = true) :
    ((l.foldl (State.owePoll ch) s).chan ch).hk.any (fun e => e.1 == .getTemp d) = true := by
  induction l generalizing s with
  | nil => cases hd
  | cons i l ih =>
    by_cases he : d = i
    · subst he
      refine List.foldlRecOn l (State.owePoll ch) (motive := fun t => (t.chan ch).hk.any (fun e => e.1 == .getTemp d) = true) ?_
        fun t ht i _ => State.owePoll_keeps_hk i ht
      rw [State.owePoll, if_pos h]
      exact State.owe_hk ..
    · refine ih ((List.mem_cons.mp hd).resolve_left he) ?_
      rw [State.ctlOf, State.owePoll_ctl]
      exact h

theorem Tab.find_map {α β : Type} (t : Tab α) (f : α → β) (k : Nat) : Tab.find (t.map (fun e => (e.1, f e.2))) k = (Tab.find t k).map f := by
  induction t with
  | nil => rfl
  | cons e t ih =>
    rw [List.map_cons, Tab.find, Tab.find, ih]
    split
    · rfl
    · rfl

/-- A die whose temperature is one poll older. -/
def DieCtl.polled (c : DieCtl) : DieCtl := { c with readPolls := c.readPolls.map (fun n => n + 1) }

/-- The dies as the count of polls leaves them. -/
def State.polled (s : State) : State := { s with ctl := s.ctl.map (fun e => (e.1, e.2.polled)) }

theorem State.polled_online (k : Nat) : (s.polled.ctlOf k).online = (s.ctlOf k).online := by
  unfold State.polled State.ctlOf Tab.get
  dsimp only
  rw [Tab.find_map]
  cases Tab.find s.ctl k with
  | none => rfl
  | some c => rfl

theorem exec_tempPoll_eq : exec .tempPoll s = s.done ((s.chans.filter (fun e => e.2.st == .ready || e.2.st == .retraining)).foldl
    (fun s e => (List.range 8).foldl (State.owePoll e.1) s) s.polled) := by rfl

theorem tempPoll_of_online {ch : Chan} {c : Channel} {d : DieNo} (hc : s.chans = [(ch.val, c)]) (h : c.st = .ready)
    (hon : (s.ctlOf (dieKey ch d)).online = true) :
    Answers .tempPoll s (fun t => (t.chan ch).hk.any (fun e => e.1 == HkItem.getTemp d) = true) := by
  have hon' : s.chans.filter (fun e => e.2.st == .ready || e.2.st == .retraining) = [(ch.val, c)] := by simp [hc, h]
  have he : exec .tempPoll s = s.done ((List.range 8).foldl (State.owePoll ch) s.polled) := by
    rw [exec_tempPoll_eq, hon', List.foldl_cons, List.foldl_nil]
  refine Answers.of_done he fun t ht => ?_
  rw [State.chan_congr ht.chans]
  exact State.foldl_owePoll_hk _ (List.mem_range.mpr d.isLt) ((State.polled_online _).trans hon)

end

/-! ### A sample of the junction (R430, R431) -/

section
variable (s : State)

theorem State.noteSuspects_nil (l : List Int) : s.noteSuspects l [] = s := by simp [State.noteSuspects]

theorem State.event_therm (port code path : Nat) (params : List Byte) : (s.event port code path params).therm = s.therm := by
  simp only [State.event]
  split
  · rfl
  · rfl

theorem State.therm_ite {c : Prop} [Decidable c] {a b : State} {x : Therm} (ha : a.therm = x) (hb : b.therm = x) :
    (if c then a else b).therm = x := by
  split
  · exact ha
  · exact hb

theorem kept_setTherm (x : Therm) : (s.setTherm x).kept = s.kept := by rfl
theorem kept_dramTemp (n : Nat) (x : Int) : (s.dramTemp n x).kept = s.kept := by rfl

theorem State.judge_therm (ch : Nat) : (s.judge ch).therm = s.therm := by
  unfold State.judge
  extract_lets a unbound off n s1 s2 sum s3
  have h2 : s2.therm = s.therm := State.therm_ite rfl rfl
  have h3 : s3.therm = s.therm := State.therm_ite ((State.event_therm ..).trans h2) h2
  exact State.therm_ite rfl (State.therm_ite ((State.event_therm ..).trans h3) h3)

theorem State.judgeAll_therm : s.judgeAll.therm = s.therm :=
  List.foldlRecOn _ State.judge (motive := fun (t : State) => t.therm = s.therm) rfl fun t ih ch _ => (t.judge_therm ch).trans ih

/-- The limits are of the registers, of the mode and of the board alone. -/
theorem State.limits_congr {s t : State} (ha : t.therm.accepted = s.therm.accepted) (hd : t.dev.state = s.dev.state)
    (hr : t.reg rThermLimits = s.reg rThermLimits) : t.limits = s.limits := by
  simp only [State.limits, ha, hd, hr]

/-- Reports that a condition has changed: its status bit, and its count and event when it has set. -/
def State.reportLimit (s : State) (x : Bool × Nat × Bool) (i lo code : Nat) (j : Int) : State :=
  let s := if x.2.2 then s.setBit rThermStatus i else s
  if x.2.2 && x.1 then (s.bump rThermCounts lo 16 1).event portTherm code s.devicePath (leInt 2 j) else s

/-- The two conditions as a sample of the junction leaves them. -/
def State.judgedTherm (s : State) (j w th : Int) : Therm :=
  { s.therm with
    warn := (judgeLimit s.therm.warn s.therm.warnRun j w).1, warnRun := (judgeLimit s.therm.warn s.therm.warnRun j w).2.1
    throttle := (judgeLimit s.therm.throttle s.therm.throttleRun j th).1
    throttleRun := (judgeLimit s.therm.throttle s.therm.throttleRun j th).2.1 }

theorem State.judgeJunction_eq {w th c : Int} (j : Int) (hl : s.limits = (w, th, c)) :
    s.judgeJunction j false = ((s.setTherm (s.judgedTherm j w th)).reportLimit (judgeLimit s.therm.warn s.therm.warnRun j w) 5 0 0x0B01 j).reportLimit
      (judgeLimit s.therm.throttle s.therm.throttleRun j th) 6 16 0x0B02 j := by
  unfold State.judgeJunction
  rw [hl]
  rfl

/-- `t` is `s` but for counts, status bits and events of temperature. -/
structure State.Reported (s t : State) : Prop where
  therm : t.therm = s.therm
  kept : t.kept = s.kept
  limits : t.reg rThermLimits = s.reg rThermLimits

variable {s}

theorem State.Reported.trans {t u : State} (h : s.Reported t) (k : t.Reported u) : s.Reported u :=
  ⟨k.therm.trans h.therm, k.kept.trans h.kept, k.limits.trans h.limits⟩

theorem State.Reported.ite {p : Prop} [Decidable p] {a b : State} (ha : s.Reported a) (hb : s.Reported b) : s.Reported (if p then a else b) := by
  split
  · exact ha
  · exact hb

theorem State.reported_setReg {off : Nat} (v : Nat) (hk : off ≠ rPwrPfwCount) (hl : off ≠ rThermLimits) : s.Reported (s.setReg off v) :=
  ⟨rfl, kept_setReg s v hk, by rw [State.reg_setReg, if_neg hl]⟩

theorem State.reported_event (port code path : Nat) (params : List Byte) : s.Reported (s.event port code path params) :=
  ⟨s.event_therm .., kept_event s .., s.reg_event port code path params (by decide)⟩

theorem State.reported_reportLimit (x : Bool × Nat × Bool) (i lo code : Nat) (j : Int) : s.Reported (s.reportLimit x i lo code j) := by
  have h1 : s.Reported (if x.2.2 then s.setBit rThermStatus i else s) :=
    .ite (State.reported_setReg _ (by decide) (by decide)) ⟨rfl, rfl, rfl⟩
  exact .ite (h1.trans ((State.reported_setReg _ (by decide) (by decide)).trans (State.reported_event ..))) h1

end

section
variable {s : State} {diode : Int} {w th c : Int}

/-- The sample that the diode gives, with no sensor read. -/
def State.sampled (s : State) (diode : Int) : State :=
  s.setTherm { s.therm with diodeMode := true, junction := diode, diode := diode, sensors := [], suspects := [] }

/-- The sample with its two conditions judged. -/
def State.judged (s : State) (diode : Int) : State := (s.sampled diode).judgeJunction diode false

theorem State.judged_reported (hl : s.limits = (w, th, c)) :
    ((s.sampled diode).setTherm ((s.sampled diode).judgedTherm diode w th)).Reported (s.judged diode) := by
  rw [State.judged, (s.sampled diode).judgeJunction_eq diode hl]
  exact (State.reported_reportLimit ..).trans (State.reported_reportLimit ..)

theorem State.judged_limits (hl : s.limits = (w, th, c)) : (s.judged diode).limits = (w, th, c) := by
  have hr := State.judged_reported (diode := diode) hl
  exact (State.limits_congr (congrArg Therm.accepted hr.therm) (congrArg Kept.state hr.kept) hr.limits).trans hl

/-- A sample of the diode below CRIT: the junction and its conditions, the temperatures of the DRAM stacks, and nothing critical. -/
theorem exec_thermalSample_of_diode (sensors : List Int) (d0 d1 : Int) (hst : s.dev.state ≠ .standby) (hl : s.limits = (w, th, c))
    (hd : s.diodeNow = true) (hc : diode < c) :
    ∃ fast, exec (.thermalSample sensors diode d0 d1) s = s.done
      ((((s.judged diode).setTherm { (s.judged diode).therm with fast := fast }).dramTemp 0 d0).dramTemp 1 d1).judgeAll := by
  have hj : (s.sampled diode).judgeJunction diode (!s.therm.fallback && (s.sampled diode).therm.fallback) = s.judged diode :=
    congrArg ((s.sampled diode).judgeJunction diode) (Bool.not_and_self _)
  have hs : s.sampled diode = s.setTherm { s.therm with diodeMode := true, junction := diode, diode := diode, sensors := [], suspects := [] } := rfl
  change ∃ fast, execThermalSample sensors diode d0 d1 s = _
  simp only [execThermalSample, if_neg hst, hd, if_true, State.noteSuspects_nil, ← hs, hj, State.judged_limits hl, if_neg (not_le.mpr hc)]
  exact ⟨_, rfl⟩

theorem thermalSample_of_diode (sensors : List Int) (d0 d1 : Int) (hst : s.dev.state ≠ .standby) (hl : s.limits = (w, th, c))
    (hd : s.diodeNow = true) (hc : diode < c) :
    Answers (.thermalSample sensors diode d0 d1) s (fun t =>
      t.therm.junction = diode ∧ Tab.get t.therm.dramTemp 0 0 = d0 ∧ Tab.get t.therm.dramTemp 1 0 = d1 ∧
      t.therm.warn = (judgeLimit s.therm.warn s.therm.warnRun diode w).1 ∧
      t.therm.warnRun = (judgeLimit s.therm.warn s.therm.warnRun diode w).2.1 ∧ t.media = s.media ∧ t.dies = s.dies) := by
  obtain ⟨fast, he⟩ := exec_thermalSample_of_diode sensors d0 d1 hst hl hd hc
  have hr := State.judged_reported (diode := diode) hl
  refine Answers.of_done he fun t ht => ?_
  have hk := (kept_judgeAll _).trans (((kept_dramTemp _ 1 d1).trans (kept_dramTemp _ 0 d0)).trans
    ((kept_setTherm (s.judged diode) { (s.judged diode).therm with fast := fast }).trans hr.kept))
  rw [ht.therm, State.judgeAll_therm]
  refine ⟨congrArg Therm.junction hr.therm, ?_, Tab.get_put_self .., congrArg Therm.warn hr.therm, congrArg Therm.warnRun hr.therm,
    ht.media.trans (congrArg Kept.media hk), ht.dies.trans (congrArg Kept.dies hk)⟩
  exact (Tab.get_put ..).trans (Tab.get_put_self ..)

end

/-! ### A condition and its limit (R430, R431) -/

section
variable {run : Nat} {j lim : Int}

theorem judgeLimit_first (h : lim ≤ j) : judgeLimit false 0 j lim = (false, 1, false) := by
  simp [judgeLimit, not_lt.mpr h]

theorem judgeLimit_second (hr : 1 ≤ run) (h : lim ≤ j) : (judgeLimit false run j lim).1 = true := by
  simp [judgeLimit, not_lt.mpr h, hr]

theorem judgeLimit_below (h : j < lim) : judgeLimit false run j lim = (false, 0, false) := by
  simp [judgeLimit, h]

theorem judgeLimit_on : (judgeLimit true run j lim).1 = true ↔ lim - 80 ≤ j := by
  by_cases h : j < lim - 80
  · simp [judgeLimit, h, not_le.mpr h]
  · simp [judgeLimit, h, not_lt.mp h]

end

/-- Settles O15: an item of GET_TEMP, the polls and the ages are equations of the model; a sample is `judgeLimit` of the junction, which no
later part of the row changes. -/
theorem housekeepingAndClocks : Obligations.HousekeepingAndClocks := by
  unfold Obligations.HousekeepingAndClocks
  refine ⟨fun ch d temp s h hi => ?_, fun n s => ⟨?_, ?_, ?_, ?_, ?_⟩, fun sensors diode d0 d1 s w th c hst hl hd hc => ?_⟩
  · exact ⟨housekeepingWindow_of_getTemp h hi, State.takeTemp_temp_band (s.setChan ch { s.chan ch with hk := [] }) ch d temp.toInt⟩
  · exact dramRefresh_of_cool
  · exact fun ch c d => tempPoll_of_online
  · exact fun k => State.ageDie_age k
  · exact thermalAgeTick_of_no_channel
  · exact fun ch c => thermalAgeTick_of_channel
  · refine (thermalSample_of_diode sensors d0 d1 hst hl hd hc).imp fun t ⟨hj, h0, h1, hw, hr, hm, hdies⟩ => ?_
    rw [hw, hr]
    refine ⟨hj, h0, h1, fun hoff hrun hge => ?_, fun hoff hrun hge => ?_, fun hoff hlt => ?_, fun hon => ?_, hm, hdies⟩
    · rw [hoff, hrun, judgeLimit_first hge]
      exact ⟨rfl, rfl⟩
    · rw [hoff, judgeLimit_second hrun hge]
    · rw [hoff, judgeLimit_below hlt]
      exact ⟨rfl, rfl⟩
    · rw [hon, judgeLimit_on]

end Sys2Proof.Machine
end

section
/-! SUPPORT. A draw over tickets: who wins it, and the loss counts after it (R93, R97, R98). -/

namespace Sys2Proof

/-- A table that lists `f k` at each number `k` of a list. -/
theorem Tab.find_map_mk {α : Type} (l : List Nat) (f : Nat → α) (k : Nat) :
    Tab.find (l.map (fun c => (c, f c))) k = if k ∈ l then some (f k) else none := by
  induction l with
  | nil => rfl
  | cons c l ih =>
    rw [List.map_cons, Tab.find, ih]
    by_cases hk : c = k
    · simp [hk]
    · simp [hk, Ne.symm hk]

namespace Machine

/-! ### The winner of a draw (R93, R98) -/

section
variable {a : Arb} {v : Word} {ts : List (Nat × Nat)} {c g : Nat}

/-- A number below the sum of the tickets lies in the range of a requester, who then has tickets. -/
theorem rangeHolder_of_lt {r : Nat} (h : r < total (ts.map (fun e => e.2))) : ∃ c t, rangeHolder ts r = some c ∧ (c, t) ∈ ts ∧ 0 < t := by
  rw [total, ← List.sum_eq_foldl] at h
  induction ts generalizing r with
  | nil => exact absurd h (Nat.not_lt_zero r)
  | cons e ts ih =>
    obtain ⟨c, t⟩ := e
    rw [List.map_cons, List.sum_cons] at h
    by_cases hr : r < t
    · exact ⟨c, t, if_pos hr, List.mem_cons_self, Nat.zero_lt_of_lt hr⟩
    · obtain ⟨c', t', hw, hm, ht⟩ := ih (r := r - t) (by omega)
      exact ⟨c', t', (if_neg hr).trans hw, List.mem_cons_of_mem _ hm, ht⟩

/-- The number that an LFSR value is mapped onto lies below the sum of the tickets. -/
theorem mapped_lt (v : Word) {T : Nat} (h : 0 < T) : (scramble v).toNat * T / 2 ^ 32 < T :=
  Nat.div_lt_of_lt_mul (Nat.mul_lt_mul_of_pos_right (scramble v).isLt h)

/-- The guarded ones of the requesters of a draw (R97). -/
def guardedOf (a : Arb) (ts : List (Nat × Nat)) : List Nat :=
  (ts.filter (fun e => decide (64 ≤ Tab.get a.losses e.1 0))).map (fun e => e.1)

theorem mem_guardedOf : c ∈ guardedOf a ts ↔ c ∈ ts.map (fun e => e.1) ∧ 64 ≤ Tab.get a.losses c 0 := by
  simp only [guardedOf, List.mem_map, List.mem_filter, decide_eq_true_eq]
  constructor
  · rintro ⟨e, ⟨he, h64⟩, rfl⟩
    exact ⟨⟨e, he, rfl⟩, h64⟩
  · rintro ⟨⟨e, he, rfl⟩, h64⟩
    exact ⟨e, ⟨he, h64⟩, rfl⟩

/-- A draw without a guarded win is decided by the ranges. -/
theorem drawWinner_of_ordinary (h : guardedOf a ts = [] ∨ a.sinceGuard < 15) :
    drawWinner a v ts = (rangeHolder ts ((scramble v).toNat * total (ts.map (fun e => e.2)) / 2 ^ 32), false) := by
  unfold drawWinner
  rw [← guardedOf]
  cases hg : guardedOf a ts with
  | nil => rfl
  | cons g gs => exact if_neg (not_le.mpr (h.resolve_left (by simp [hg])))

theorem drawWinner_of_guarded {gs : List Nat} (hg : guardedOf a ts = g :: gs) (h : 15 ≤ a.sinceGuard) :
    drawWinner a v ts = (some g, true) := by
  unfold drawWinner
  rw [← guardedOf, hg]
  exact if_pos h

/-- A draw in which someone has tickets has a winner among its requesters. -/
theorem drawWinner_mem (hT : 0 < total (ts.map (fun e => e.2))) : ∃ e ∈ ts, (drawWinner a v ts).1 = some e.1 := by
  by_cases h : guardedOf a ts = [] ∨ a.sinceGuard < 15
  · obtain ⟨c, t, hw, hm, -⟩ := rangeHolder_of_lt (mapped_lt v hT)
    exact ⟨(c, t), hm, by rw [drawWinner_of_ordinary h, hw]⟩
  · obtain ⟨hne, h15⟩ := not_or.mp h
    obtain ⟨g, gs, hg⟩ := List.exists_cons_of_ne_nil hne
    obtain ⟨hm, -⟩ := mem_guardedOf.mp (hg ▸ List.mem_cons_self : g ∈ guardedOf a ts)
    obtain ⟨e, he, rfl⟩ := List.mem_map.mp hm
    exact ⟨e, he, by rw [drawWinner_of_guarded hg (not_lt.mp h15)]⟩

/-- Of requesters in code order, the lowest guarded one wins when no guarded win is too near. -/
theorem drawWinner_lowest_guarded (hs : (ts.map (fun e => e.1)).Pairwise (fun x y => x < y)) (hc : c ∈ ts.map (fun e => e.1))
    (h64 : 64 ≤ Tab.get a.losses c 0) (h15 : 15 ≤ a.sinceGuard) :
    ∃ g ≤ c, (drawWinner a v ts).1 = some g ∧ 64 ≤ Tab.get a.losses g 0 := by
  have hm : c ∈ guardedOf a ts := mem_guardedOf.mpr ⟨hc, h64⟩
  have hsorted : (guardedOf a ts).Pairwise (fun x y => x < y) := hs.sublist (List.filter_sublist.map _)
  obtain ⟨g, gs, hg⟩ := List.exists_cons_of_ne_nil (List.ne_nil_of_mem hm)
  have hg64 : 64 ≤ Tab.get a.losses g 0 := (mem_guardedOf.mp (hg ▸ List.mem_cons_self : g ∈ guardedOf a ts)).2
  rw [hg] at hm hsorted
  refine ⟨g, ?_, by rw [drawWinner_of_guarded hg h15], hg64⟩
  rcases List.mem_cons.mp hm with rfl | hm
  · exact le_rfl
  · exact (List.rel_of_pairwise_cons hsorted hm).le

end

/-! ### Loss counts (R97) -/

section
variable {a : Arb} {v : Word} {ts : List (Nat × Nat)} {w : Option Nat}

/-- The requesters that lose a draw count one more, and no other one is listed. -/
theorem find_losses_afterDraw (a : Arb) (ts : List (Nat × Nat)) (w : Option Nat) (c : Nat) : Tab.find (afterDraw a ts w).losses c =
    if c ∈ ts.map (fun e => e.1) ∧ w ≠ some c then some (Nat.min 64 (Tab.get a.losses c 0 + 1)) else none := by
  have hl : (afterDraw a ts w).losses = ((ts.filter (fun e => some e.1 != w)).map (fun e => e.1)).map
      (fun c => (c, Nat.min 64 (Tab.get a.losses c 0 + 1))) := by
    rw [List.map_map]
    rfl
  have hm : c ∈ (ts.filter (fun e => some e.1 != w)).map (fun e => e.1) ↔ c ∈ ts.map (fun e => e.1) ∧ w ≠ some c := by
    simp only [List.mem_map, List.mem_filter, bne_iff_ne]
    constructor
    · rintro ⟨e, ⟨he, hw⟩, rfl⟩
      exact ⟨⟨e, he, rfl⟩, Ne.symm hw⟩
    · rintro ⟨⟨e, he, rfl⟩, hw⟩
      exact ⟨e, ⟨he, Ne.symm hw⟩, rfl⟩
  rw [hl, Tab.find_map_mk]
  simp only [hm]

/-- A draw that no guarded requester decides goes to one with tickets, and every other one loses. -/
theorem drawWinner_unguarded (hg : ∀ e ∈ ts, Tab.get a.losses e.1 0 < 64) (hT : 0 < total (ts.map (fun e => e.2))) :
    ∃ c t, drawWinner a v ts = (some c, false) ∧ (c, t) ∈ ts ∧ 0 < t ∧ ∀ e ∈ ts,
      Tab.find (afterDraw a ts (some c)).losses e.1 = if e.1 = c then none else some (Nat.min 64 (Tab.get a.losses e.1 0 + 1)) := by
  have hnil : guardedOf a ts = [] := List.eq_nil_iff_forall_not_mem.mpr fun c hc => by
    obtain ⟨hm, h64⟩ := mem_guardedOf.mp hc
    obtain ⟨e, he, rfl⟩ := List.mem_map.mp hm
    exact absurd h64 (not_le.mpr (hg e he))
  obtain ⟨c, t, hw, hm, ht⟩ := rangeHolder_of_lt (mapped_lt v hT)
  refine ⟨c, t, by rw [drawWinner_of_ordinary (.inl hnil), hw], hm, ht, fun e he => ?_⟩
  rw [find_losses_afterDraw]
  have hmem : e.1 ∈ ts.map (fun e => e.1) := List.mem_map_of_mem he
  by_cases hc : e.1 = c
  · rw [if_pos hc, if_neg (by simp [hc])]
  · rw [if_neg hc, if_pos ⟨hmem, by simpa using Ne.symm hc⟩]

end

end Machine
end Sys2Proof
end

section
/-! SUPPORT. What a draw edge makes of a channel's arbiter, and leaves of the rest: O8 and O59. -/

namespace Sys2Proof.Machine

/-! ### Arbiters -/

theorem State.arbOf_setArb (s : State) (c j : Nat) (a : Arb) : (s.setArb c a).arbOf j = if c = j then a else s.arbOf j := Tab.get_put ..

/-- `t` has the arbiters of `s`, and of `s` all that `kept` shows. -/
structure State.SameArbs (s t : State) : Prop where
  arbs : t.arbs = s.arbs
  kept : t.kept = s.kept

section
variable {s t u : State}

theorem State.SameArbs.refl (s : State) : s.SameArbs s := ⟨rfl, rfl⟩

theorem State.SameArbs.trans (h : s.SameArbs t) (k : t.SameArbs u) : s.SameArbs u := ⟨k.arbs.trans h.arbs, k.kept.trans h.kept⟩

theorem State.SameArbs.ite {c : Prop} [Decidable c] {a b : State} (ha : s.SameArbs a) (hb : s.SameArbs b) :
    s.SameArbs (if c then a else b) := by
  split
  · exact ha
  · exact hb

theorem State.SameArbs.ofOption (o : Option Nat) {f : Nat → State} (hf : ∀ k, s.SameArbs (f k)) :
    s.SameArbs (match o with | some k => f k | none => s) := by
  cases o with
  | none => exact .refl s
  | some k => exact hf k

theorem State.SameArbs.foldl {α : Type} {f : State → α → State} (hf : ∀ (s : State) a, s.SameArbs (f s a)) (s : State) (l : List α) :
    s.SameArbs (l.foldl f s) :=
  List.foldlRecOn l f (motive := fun t => s.SameArbs t) (.refl s) fun t ih a _ => ih.trans (hf t a)

theorem State.sameArbs_addCount (s : State) (k inc : Nat) : s.SameArbs (s.addCount k inc) := by
  refine ⟨?_, kept_addCount s k inc⟩
  unfold State.addCount
  dsimp only
  split
  · rfl
  · split
    · rfl
    · rfl

theorem State.sameArbs_count (s : State) (code : Nat) (t : Tag) (isT : Bool) : s.SameArbs (s.count code t isT) :=
  .ite (.refl s) (.foldl (fun s _ => .ite (s.sameArbs_addCount _ _) (.refl s)) s _)

theorem State.sameArbs_updTack (s : State) (k : Nat) (f : Tack → Tack) : s.SameArbs (s.updTack k f) := ⟨rfl, rfl⟩

end

/-! ### LOADs that are held (R89) -/

section
variable (s : State)

theorem State.stampPage_frame (k : Nat) (p : Program) :
    (s.stampPage k p).arbs = s.arbs ∧ (s.stampPage k p).regs = s.regs ∧ (s.stampPage k p).kept = s.kept := by
  unfold State.stampPage
  split
  · exact ⟨rfl, rfl, rfl⟩
  · exact ⟨rfl, rfl, rfl⟩

/-- Holding the LOADs of a channel changes tacks and the count of programs. -/
theorem State.holdLoads_frame (ch : Nat) :
    (s.holdLoads ch).arbs = s.arbs ∧ (s.holdLoads ch).regs = s.regs ∧ (s.holdLoads ch).kept = s.kept :=
  List.foldlRecOn _ _ (motive := fun (t : State) => t.arbs = s.arbs ∧ t.regs = s.regs ∧ t.kept = s.kept) ⟨rfl, rfl, rfl⟩
    fun t ⟨ha, hr, hk⟩ e _ => by
      split
      · split
        · obtain ⟨ha', hr', hk'⟩ := t.stampPage_frame e.1 ‹_›
          exact ⟨ha'.trans ha, hr'.trans hr, hk'.trans hk⟩
        · exact ⟨ha, hr, hk⟩
      · exact ⟨ha, hr, hk⟩

end

/-! ### The draw edge (R92 to R98) -/

section
variable (s : State) (ch : Nat)

/-- The requesters that a draw would be among, in code order, with their effective tickets (R93). -/
def State.shares : List (Nat × Nat) :=
  (s.presentOn ch).map (fun c => (c, s.effective ch c (decide (0 ∈ s.presentOn ch)) (s.arbOf ch).drfOvr))

/-- The LFSR value that a draw would use (R92). -/
def State.drawValue : Word := lfsrStep (if (s.arbOf ch).reseed then seedOf (s.reg rArbSeed) ch else (s.arbOf ch).lfsr)

/-- The winner of the draw at a draw edge: of the requesters present once the LOADs are held. -/
def State.drawnWinner : Option Nat := (drawWinner (s.arbOf ch) (s.drawValue ch) ((s.holdLoads ch).shares ch)).1

theorem State.shares_codes : (s.shares ch).map (fun e => e.1) = s.presentOn ch := by
  rw [State.shares, List.map_map]
  exact List.map_id _

theorem State.presentOn_ascending : (s.presentOn ch).Pairwise (fun x y => x < y) := List.pairwise_lt_range.sublist List.filter_sublist

/-- What arbiter `b` has of a draw edge of arbiter `a` among `ts` on the value `v`: `w` wins and does not withdraw, and its tack `k` owns
the data phase, if none runs. -/
structure Arb.Drawn (a b : Arb) (ts : List (Nat × Nat)) (v : Word) (w k : Option Nat) : Prop where
  losses : b.losses = (afterDraw a ts w).losses
  lfsr : b.lfsr = v
  lastWinner : b.lastWinner = w.getD 15
  grant : a.slot ≠ .data → b.grant = k
  slot : a.slot ≠ .data → w.isSome = true → b.slot = .data

theorem State.drawValue_holdLoads : (s.holdLoads ch).drawValue ch = s.drawValue ch := by
  obtain ⟨ha, hr, -⟩ := s.holdLoads_frame ch
  rw [State.drawValue, State.drawValue, State.arbOf_congr ha, State.reg_congr hr]

/-- A draw edge sets the arbiter of its channel; what comes before and after changes no arbiter. -/
theorem State.draw_setsArb : ∃ (x : State) (b : Arb), s.SameArbs x ∧ (x.setArb ch b).SameArbs (s.draw ch false) ∧
    (s.arbOf ch).Drawn b ((s.holdLoads ch).shares ch) (s.drawValue ch) (s.drawnWinner ch)
      ((s.drawnWinner ch).bind ((s.holdLoads ch).oldestReady ch)) := by
  obtain ⟨ha, -, hk⟩ := s.holdLoads_frame ch
  rw [← State.arbOf_congr ha ch, State.drawnWinner, ← State.arbOf_congr ha ch, ← State.drawValue_holdLoads]
  unfold State.draw
  extract_lets s0 a present ts v raised overridden
  change ∃ x b, _ ∧ _ ∧ Arb.Drawn a b ts v (drawWinner a v ts).1 ((drawWinner a v ts).1.bind (s0.oldestReady ch))
  obtain ⟨w, guarded⟩ := drawWinner a v ts
  dsimp -zeta only
  extract_lets winner s1 b1 b2 kind owner b3 s2 s3 s4 s5 s6 s7
  refine ⟨s1, b3, ?_, ?_, ?_⟩
  · have h0 : s.SameArbs s0 := ⟨ha, hk⟩
    exact .ite h0 (h0.trans ⟨rfl, rfl⟩)
  · have h3 : s2.SameArbs s3 := .foldl (fun s _ => .ofOption _ fun k => s.sameArbs_updTack k _) s2 _
    have h4 : s3.SameArbs s4 := .ofOption owner fun k => s3.sameArbs_updTack k _
    have h5 : s4.SameArbs s5 := .ofOption winner fun k => s4.sameArbs_updTack k _
    have h6 : s5.SameArbs s6 := s5.sameArbs_count ..
    have h7 : s6.SameArbs s7 := .ite (s6.sameArbs_count ..) (.refl s6)
    have h8 : s7.SameArbs (s7.bump (rArbGuard ch) 0 32 1) := ⟨rfl, kept_bump s7 0 32 1 (by simp only [rArbGuard, arbBase, rPwrPfwCount]; omega)⟩
    exact ((((h3.trans h4).trans h5).trans h6).trans h7).trans (.ite (h8.trans (State.sameArbs_count ..)) (.refl s7))
  · by_cases hd : a.slot = .data
    · have hb : b3 = { b2 with next := owner, nextSlot := kind, drawn := true } := if_pos hd
      rw [hb]
      exact ⟨rfl, rfl, rfl, fun h => absurd hd h, fun h => absurd hd h⟩
    · have hb : b3 = { b2 with grant := owner, drawn := false, slot := kind } := if_neg hd
      rw [hb]
      exact ⟨rfl, rfl, rfl, fun _ => rfl, fun _ hw => if_pos hw⟩

end

section
variable {ch : Chan} {s : State}

/-- ARB_DRAW at a draw edge of a READY channel (R67). -/
theorem arbDraw_answers (hst : (s.chan ch).st = .ready) (hd : ¬ ((s.arbOf ch).slot = .data ∧ (s.arbOf ch).drawn = true)) :
    Answers (.arbDraw ch false) s (fun t =>
      (s.arbOf ch).Drawn (t.arbOf ch) ((s.holdLoads ch).shares ch) (s.drawValue ch) (s.drawnWinner ch)
        ((s.drawnWinner ch).bind ((s.holdLoads ch).oldestReady ch)) ∧
      (∀ j : Nat, j ≠ ch.val → t.arbOf j = s.arbOf j) ∧ t.chans = s.chans ∧ t.dies = s.dies ∧ t.media = s.media) := by
  have he : exec (.arbDraw ch false) s = s.done (s.draw ch false) := if_pos ⟨hst, hd⟩
  obtain ⟨x, b, hx, hb, hdrawn⟩ := s.draw_setsArb ch
  have hkept : (s.draw ch false).kept = s.kept := hb.kept.trans hx.kept
  refine Answers.of_done he fun t ht => ?_
  have harb : ∀ j, t.arbOf j = if ch.val = j then b else s.arbOf j := fun j => by
    rw [State.arbOf_congr (ht.arbs.trans hb.arbs), State.arbOf_setArb, State.arbOf_congr hx.arbs]
  refine ⟨by rwa [harb, if_pos rfl], fun j hj => by rw [harb, if_neg (Ne.symm hj)], ?_, ?_, ?_⟩
  · exact ht.chans.trans (congrArg Kept.chans hkept)
  · exact ht.dies.trans (congrArg Kept.dies hkept)
  · exact ht.media.trans (congrArg Kept.media hkept)

/-- The one requester present wins, if it has tickets. -/
theorem State.drawnWinner_of_single {c : Nat} (hp : (s.holdLoads ch).presentOn ch = [c])
    (ht : 0 < (s.holdLoads ch).effective ch c (decide (0 = c)) (s.arbOf ch).drfOvr) : s.drawnWinner ch = some c := by
  have harb := State.arbOf_congr (s.holdLoads_frame ch).1 ch
  have hs : (s.holdLoads ch).shares ch = [(c, (s.holdLoads ch).effective ch c (decide (0 = c)) (s.arbOf ch).drfOvr)] := by
    simp [State.shares, hp, harb]
  obtain ⟨e, he, hw⟩ := drawWinner_mem (a := s.arbOf ch) (v := s.drawValue ch) (ts := (s.holdLoads ch).shares ch) (by simpa [hs, total] using ht)
  rw [hs, List.mem_singleton] at he
  exact hw.trans (congrArg (fun e => some e.1) he)

/-- A draw edge with one requester present, who has tickets: its oldest ready tack owns the data phase, and nobody loses. -/
theorem arbDraw_of_single {c k : Nat} (hst : (s.chan ch).st = .ready) (hslot : (s.arbOf ch).slot ≠ .data)
    (hp : (s.holdLoads ch).presentOn ch = [c]) (hk : (s.holdLoads ch).oldestReady ch c = some k)
    (ht : 0 < (s.holdLoads ch).effective ch c (decide (0 = c)) (s.arbOf ch).drfOvr) :
    Answers (.arbDraw ch false) s (fun t =>
      (t.arbOf ch).grant = some k ∧ (t.arbOf ch).slot = .data ∧ (t.arbOf ch).lastWinner = c ∧ (t.arbOf ch).losses = [] ∧
      (t.arbOf ch).lfsr = s.drawValue ch ∧
      (∀ j : Nat, j ≠ ch.val → t.arbOf j = s.arbOf j) ∧ t.chans = s.chans ∧ t.dies = s.dies ∧ t.media = s.media) := by
  have hw := State.drawnWinner_of_single hp ht
  refine (arbDraw_answers hst fun h => hslot h.1).imp fun t ⟨hdrawn, hrest⟩ => ?_
  rw [hw] at hdrawn
  refine ⟨(hdrawn.grant hslot).trans hk, hdrawn.slot hslot rfl, hdrawn.lastWinner, ?_, hdrawn.lfsr, hrest⟩
  simp [hdrawn.losses, afterDraw, State.shares, hp]

end

/-- Settles O59: the loss counts are those of `afterDraw`, and the winner that of `drawWinner` among the requesters present in code
order. -/
theorem lossCountsGuard : Obligations.LossCountsGuard := by
  unfold Obligations.LossCountsGuard
  rintro ch s a rfl hst hd
  have hcodes := (s.holdLoads ch).shares_codes ch
  refine ⟨s.drawnWinner ch, (arbDraw_answers hst hd).imp fun t ⟨hdrawn, _⟩ => ⟨hdrawn.lastWinner, fun c => ?_⟩, fun c hc h64 h15 => ?_⟩
  · rw [Tab.get, hdrawn.losses, find_losses_afterDraw, hcodes]
    split
    · rfl
    · rfl
  · refine drawWinner_lowest_guarded ?_ (by rwa [hcodes]) h64 h15
    rw [hcodes]
    exact State.presentOn_ascending ..

end Sys2Proof.Machine
end

section
/-! SUPPORT. RESEED, and the tickets of a channel through a change of CUSTOM: O8. -/

namespace Sys2Proof.Machine

/-! ### RESEED (Table 3.5) -/

section
variable {s : State}

theorem State.reseedAll_frame (s : State) : s.reseedAll.regs = s.regs ∧ s.reseedAll.tacks = s.tacks :=
  List.foldlRecOn _ _ (motive := fun (t : State) => t.regs = s.regs ∧ t.tacks = s.tacks) ⟨rfl, rfl⟩ fun _ ih _ _ => ih

/-- Channels told to reload are marked, the others stand. -/
theorem State.arbOf_foldl_reseed (l : List Nat) (s : State) (c : Nat) :
    (l.foldl (fun (s : State) ch => s.setArb ch { s.arbOf ch with reseed := true }) s).arbOf c =
      if c ∈ l then { s.arbOf c with reseed := true } else s.arbOf c := by
  induction l generalizing s with
  | nil => simp
  | cons ch l ih =>
    rw [List.foldl_cons, ih, State.arbOf_setArb]
    by_cases hc : ch = c
    · subst hc
      simp
    · simp [hc, Ne.symm hc]

theorem reseed_answers (hb : s.barOpen = true) :
    Answers .reseed s (fun t => (∀ c : Chan, t.arbOf c = { s.arbOf c with reseed := true }) ∧ t.tacks = s.tacks ∧
      ∀ off, off ∉ trailRegs → t.reg off = s.reg off) := by
  have he : exec .reseed s = s.done s.reseedAll := congrArg s.done (if_pos hb)
  obtain ⟨hregs, htacks⟩ := s.reseedAll_frame
  refine Answers.of_done he fun t ht => ⟨fun c => ?_, ht.tacks.trans htacks, fun off ho => (ht.reg off ho).trans (State.reg_congr hregs off)⟩
  rw [State.arbOf_congr ht.arbs, State.reseedAll, State.arbOf_foldl_reseed, if_pos (List.mem_range.mpr c.isLt)]

end

/-! ### Tickets (R90, R107) -/

section
variable {s t : State} {ch c : Nat}

theorem State.tickets_of_preset (h : bit (s.reg (rArbChCtrl ch)) 0 = false) (hc : c ≠ 4) :
    s.tickets ch c = preset (s.field rArbProfile 0 2) c := by
  simp [State.tickets, h, hc]

theorem State.tickets_of_custom (h : bit (s.reg (rArbChCtrl ch)) 0 = true) (hc : c ≠ 4) :
    s.tickets ch c = s.field (rArbTickets ch (ticketPlace c).1) (ticketPlace c).2 8 := by
  simp [State.tickets, h, hc]

/-- The registers that give the tickets of a channel: ARB_PROFILE, ARB_CH_CTRL and ARB_CH_TICKETS_0..2. -/
def ticketReg (ch off : Nat) : Prop := off = rArbProfile ∨ arbBase ch ≤ off ∧ off < arbBase ch + 0x10

theorem ticketReg_ctrl : ticketReg ch (rArbChCtrl ch) := by
  simp [ticketReg]

theorem ticketReg_tickets (c : Nat) : ticketReg ch (rArbTickets ch (ticketPlace c).1) := by
  have hp : (ticketPlace c).1 ≤ 2 := by
    unfold ticketPlace
    split <;> decide
  simp only [ticketReg, rArbTickets]
  omega

theorem ticketReg_not_mem_trailRegs {ch : Chan} {off : Nat} (h : ticketReg ch off) : off ∉ trailRegs := by
  have := ch.isLt
  simp only [ticketReg, arbBase, rArbProfile] at h
  simp only [trailRegs, rDevFlagsChg, rObsStatus, rObsCtrl, List.mem_cons, List.not_mem_nil, or_false]
  omega

/-- Tickets are what those registers give. -/
theorem State.tickets_congr (h : ∀ off, ticketReg ch off → t.reg off = s.reg off) (c : Nat) : t.tickets ch c = s.tickets ch c := by
  simp only [State.tickets, State.field, h _ ticketReg_ctrl, h _ (ticketReg_tickets c), h rArbProfile (.inl rfl)]

theorem preset_lt (p c : Nat) : preset p c < 256 := by
  have hget : ∀ l : List Nat, (∀ x ∈ l, x < 256) → l.getD c 0 < 256 := fun l hl => by
    rw [List.getD_eq_getElem?_getD]
    cases hx : l[c]? with
    | none => decide
    | some x => exact hl x (List.mem_of_getElem? hx)
  unfold preset
  refine hget _ ?_
  split <;> decide

end

/-! ### CUSTOM (R107) -/

section
variable {s : State} {ch c : Nat}

/-- Four ticket counts in a register (Table 3.8). -/
def ticketWord (a b c d : Nat) : Nat := a + 2 ^ 8 * b + 2 ^ 16 * c + 2 ^ 24 * d

/-- The ticket registers of a channel made to hold the tickets in force. -/
def State.keepTickets (s : State) (ch : Nat) : State :=
  ((s.setReg (rArbTickets ch 0) (ticketWord (s.tickets ch 0) (s.tickets ch 1) (s.tickets ch 2) (s.tickets ch 3))).setReg (rArbTickets ch 1)
    (ticketWord 255 (s.tickets ch 5) (s.tickets ch 6) (s.tickets ch 7))).setReg (rArbTickets ch 2)
      (ticketWord (s.tickets ch 8) (s.tickets ch 9) 0 0)

/-- CUSTOM written, and the ticket registers with it, before the channel is judged. -/
def State.customWritten (s : State) (ch : Nat) (custom : Bool) : State :=
  (if custom ∧ ¬ bit (s.reg (rArbChCtrl ch)) 0 then s.keepTickets ch else s).setReg (rArbChCtrl ch) (flag custom)

theorem State.writeCustom_eq (custom : Bool) : s.writeCustom ch custom = (s.customWritten ch custom).judge ch := rfl

/-- A register of four ticket counts gives each of them back. -/
theorem bits_ticketWord {a b c d : Nat} (ha : a < 256) (hb : b < 256) (hc : c < 256) (hd : d < 256) :
    bits (ticketWord a b c d % 2 ^ 32) 0 8 = a ∧ bits (ticketWord a b c d % 2 ^ 32) 8 8 = b ∧
    bits (ticketWord a b c d % 2 ^ 32) 16 8 = c ∧ bits (ticketWord a b c d % 2 ^ 32) 24 8 = d := by
  simp only [bits, ticketWord]
  omega

theorem State.reg_keepTickets (s : State) (ch : Nat) :
    (s.keepTickets ch).reg (rArbTickets ch 0) = ticketWord (s.tickets ch 0) (s.tickets ch 1) (s.tickets ch 2) (s.tickets ch 3) % 2 ^ 32 ∧
    (s.keepTickets ch).reg (rArbTickets ch 1) = ticketWord 255 (s.tickets ch 5) (s.tickets ch 6) (s.tickets ch 7) % 2 ^ 32 ∧
    (s.keepTickets ch).reg (rArbTickets ch 2) = ticketWord (s.tickets ch 8) (s.tickets ch 9) 0 0 % 2 ^ 32 := by
  simp [State.keepTickets, State.reg_setReg, rArbTickets]

theorem State.field_keepTickets (h : ∀ c, c ≠ 4 → s.tickets ch c < 256) (hc : c < 10) (h4 : c ≠ 4) :
    (s.keepTickets ch).field (rArbTickets ch (ticketPlace c).1) (ticketPlace c).2 8 = s.tickets ch c := by
  obtain ⟨r0, r1, r2⟩ := s.reg_keepTickets ch
  obtain ⟨h0, h1, h2, h3⟩ := bits_ticketWord (h 0 (by decide)) (h 1 (by decide)) (h 2 (by decide)) (h 3 (by decide))
  obtain ⟨-, h5, h6, h7⟩ := bits_ticketWord (show 255 < 256 by decide) (h 5 (by decide)) (h 6 (by decide)) (h 7 (by decide))
  obtain ⟨h8, h9, -, -⟩ := bits_ticketWord (h 8 (by decide)) (h 9 (by decide)) (show 0 < 256 by decide) (show 0 < 256 by decide)
  interval_cases c
  · exact (congrArg (bits · 0 8) r0).trans h0
  · exact (congrArg (bits · 8 8) r0).trans h1
  · exact (congrArg (bits · 16 8) r0).trans h2
  · exact (congrArg (bits · 24 8) r0).trans h3
  · exact absurd rfl h4
  · exact (congrArg (bits · 8 8) r1).trans h5
  · exact (congrArg (bits · 16 8) r1).trans h6
  · exact (congrArg (bits · 24 8) r1).trans h7
  · exact (congrArg (bits · 0 8) r2).trans h8
  · exact (congrArg (bits · 8 8) r2).trans h9

theorem State.reg_customWritten_ctrl (custom : Bool) : (s.customWritten ch custom).reg (rArbChCtrl ch) = flag custom := by
  rw [State.customWritten, State.reg_setReg, if_pos rfl]
  cases custom <;> rfl

theorem State.reg_customWritten_other (custom : Bool) {off : Nat} (h : rArbChCtrl ch ≠ off) : (s.customWritten ch custom).reg off =
    if custom ∧ ¬ bit (s.reg (rArbChCtrl ch)) 0 then (s.keepTickets ch).reg off else s.reg off := by
  rw [State.customWritten, State.reg_setReg, if_neg h]
  split
  · rfl
  · rfl

/-- CUSTOM set: every requester keeps its tickets. -/
theorem State.tickets_customWritten_set (hc : c < 10) : (s.customWritten ch true).tickets ch c = s.tickets ch c := by
  by_cases h4 : c = 4
  · subst h4
    rfl
  have hne : rArbChCtrl ch ≠ rArbTickets ch (ticketPlace c).1 := by
    simp only [rArbChCtrl, rArbTickets]
    omega
  rw [State.tickets_of_custom (congrArg (bit · 0) (State.reg_customWritten_ctrl true)) h4, State.field, State.reg_customWritten_other true hne]
  cases hwas : bit (s.reg (rArbChCtrl ch)) 0 with
  | true => exact (State.tickets_of_custom hwas h4).symm
  | false => exact State.field_keepTickets (fun c hc => (State.tickets_of_preset hwas hc).trans_lt (preset_lt ..)) hc h4

/-- CUSTOM cleared: the preset of the profile in force. -/
theorem State.tickets_customWritten_clear (h4 : c ≠ 4) : (s.customWritten ch false).tickets ch c = preset (s.field rArbProfile 0 2) c := by
  have hne : rArbChCtrl ch ≠ rArbProfile := by
    simp only [rArbChCtrl, arbBase, rArbProfile]
    omega
  rw [State.tickets_of_preset (congrArg (bit · 0) (State.reg_customWritten_ctrl false)) h4, State.field, State.reg_customWritten_other false hne]
  rfl

/-- A judgement of a channel writes no register that gives tickets. -/
theorem State.reg_judge {off : Nat} (h : ticketReg ch off) : (s.judge ch).reg off = s.reg off := by
  simp only [ticketReg, arbBase, rArbProfile] at h
  have hovr : rArbOvr ch ≠ off := by
    simp only [rArbOvr, arbBase]
    omega
  have hdrop : off ≠ rEvtPortDrop := by
    simp only [rEvtPortDrop]
    omega
  unfold State.judge
  extract_lets a unbound suspended n s1 s2 sum s3
  have h2 : s2.reg off = s.reg off := by
    dsimp only [s2]
    split
    · rfl
    · rfl
  have h3 : s3.reg off = s.reg off := by
    dsimp only [s3]
    split
    · rw [State.reg_event _ _ _ _ _ hdrop, State.bump, State.setField, State.reg_setReg, if_neg hovr, h2]
    · exact h2
  split
  · rfl
  · split
    · rw [State.reg_event _ _ _ _ _ hdrop, h3]
    · exact h3

end

section
variable {s : State} {ch : Chan}

theorem customChange_answers (custom : Bool) (hb : s.barOpen = true) : Answers (.customChange ch custom) s (fun t =>
    ∀ off, ticketReg ch off → t.reg off = (s.customWritten ch custom).reg off) := by
  have he : exec (.customChange ch custom) s = s.done (s.writeCustom ch custom) := congrArg s.done (if_pos hb)
  rw [State.writeCustom_eq] at he
  exact Answers.of_done he fun t ht off ho => (ht.reg off (ticketReg_not_mem_trailRegs ho)).trans (State.reg_judge ho)

theorem customChange_set (hb : s.barOpen = true) : Answers (.customChange ch true) s (fun t => bit (t.reg (rArbChCtrl ch)) 0 = true ∧
    ∀ c, c < 10 → t.tickets ch c = s.tickets ch c) :=
  (customChange_answers true hb).imp fun t ht => ⟨by rw [ht _ ticketReg_ctrl, State.reg_customWritten_ctrl]; rfl,
    fun c hc => (State.tickets_congr ht c).trans (State.tickets_customWritten_set hc)⟩

theorem customChange_clear (hb : s.barOpen = true) : Answers (.customChange ch false) s (fun t =>
    ∀ c, c ≠ 4 → t.tickets ch c = preset (s.field rArbProfile 0 2) c) :=
  (customChange_answers false hb).imp fun _ ht c h4 => (State.tickets_congr ht c).trans (State.tickets_customWritten_clear h4)

end

/-- Settles O8: the draw edge by what it makes of the arbiter, the draw by its ranges, RESEED and CUSTOM by what they write. -/
theorem drawsAndTickets : Obligations.DrawsAndTickets := by
  unfold Obligations.DrawsAndTickets
  refine ⟨?_, fun a v ts hg _ hT => drawWinner_unguarded hg hT, fun ch s hb => ⟨reseed_answers hb, ?_, ?_⟩⟩
  · rintro ch c k s s1 rfl hst hslot hp hk ht
    exact arbDraw_of_single hst hslot hp hk ht
  · exact (customChange_set hb).imp fun _ ⟨hctrl, hkeep⟩ => ⟨hctrl, fun c hc _ => hkeep c hc⟩
  · exact (customChange_clear hb).imp fun _ h c _ h4 => h c h4

end Sys2Proof.Machine
end

section
/-! SUPPORT. Packets of the device commands that start: O23. -/

namespace Sys2Proof.Machine

/-- A packet that starts has the effect that its opcode's own rules give (R336). -/
theorem Effect.of_starts {i : Instr} {code : Nat} {port : Port} {pkt : Packet} {s s1 x : State} {c : Cmd} {act : State → Cmd → State}
    (hs : Starts code port pkt s s1 c) (he : exec i s = s.done (s.run code port pkt act)) (hx : act s1 c = x) : Effect i s x := by
  obtain ⟨hcode, harrive, hfence, hcheck⟩ := hs
  rw [State.run_of_checked act hcode harrive hfence hcheck, hx] at he
  exact Effect.of_done he

section
variable {s : State} {c x : Cmd}

/-- A command that has not started stops before it starts, unless it is an ABORT (R346). -/
theorem State.stopCmd_of_fetched (hf : x.step = .fetched) (ha : x.opcode ≠ 0x08) : s.stopCmd x = (s.finish x stAborted 0 none, true) := by
  simp [State.stopCmd, hf, ha]

/-- Where a command is the only one in progress, no other one stops for it. -/
theorem State.others_of_single (p : Cmd → Bool) (st : CmdStep) (h : s.cmdq.cmds = [c]) :
    (s.await c st).cmdq.cmds.filter (fun y => y.id != c.id && p y) = [] := by
  simp [State.await, State.updCmd, State.setCmdq, h]

end

/-- Settles O23: each command by the branch of its own rules that its state selects. -/
theorem deviceCommands : Obligations.DeviceCommands := by
  intro port pkt s s1 c
  refine ⟨fun hs => ?_, fun hs hd => ?_, fun hs hd => ?_, fun hs hd hn => ?_, fun hs hd hn => ?_, fun hs hx => ?_, fun x hs hx hf ha => ?_,
    fun hs hh hn hd hc => ?_, fun hs hh hn => ?_⟩
  · exact Effect.of_starts hs rfl rfl
  · exact Effect.of_starts hs rfl (by simp only [hd, if_true]; rfl)
  · exact Effect.of_starts hs rfl (by simp only [hd, reduceCtorEq, if_false]; rfl)
  · exact Effect.of_starts hs rfl (by simp only [hd, hn, ne_eq, not_true_eq_false, if_false, Bool.false_eq_true]; rfl)
  · exact Effect.of_starts hs rfl (by simp only [hd, hn, ne_eq, not_true_eq_false, if_false, if_true]; rfl)
  · exact Effect.of_starts hs rfl (by simp only [hx])
  · exact Effect.of_starts hs rfl (by simp only [hx, State.stopCmd_of_fetched hf ha, if_true])
  · refine Effect.of_starts hs rfl ?_
    have ho : (s1.setCmdq { s1.cmdq with stopped := some c.id }).cmdq.cmds = [c] := hc
    simp only [hd, hn, reduceCtorEq, ne_eq, not_true_eq_false, Option.isSome_none, Bool.false_eq_true, or_self, if_false,
      State.others_of_single _ _ ho, List.foldl_nil]
  · exact Effect.of_starts hs rfl (by simp only [hh, hn, true_or, if_false, if_true]; rfl)

end Sys2Proof.Machine
end

section
/-! SUPPORT. What counts, frames, births and retirements of tacks change: tack slots and what observes them. -/

namespace Sys2Proof.Machine

/-- The registers that counters and the trace port write of themselves (R440, R448). -/
abbrev obsRegs : List Nat := [rObsStatus, rObsCtrl, rTrcDrop]

/-- `t` is `s` but for the tack slots, the numbers given to tacks, and what observes them. -/
structure State.Observed (s t : State) : Prop where
  eq : t = { s with tacks := t.tacks, serial := t.serial, nonce := t.nonce, obs := t.obs, regs := t.regs }
  reg : ∀ off, off ∉ obsRegs → t.reg off = s.reg off

section
variable {s t u : State}

theorem State.Observed.refl (s : State) : s.Observed s := ⟨rfl, fun _ _ => rfl⟩

theorem State.Observed.trans (h : s.Observed t) (k : t.Observed u) : s.Observed u := by
  refine ⟨?_, fun off ho => (k.reg off ho).trans (h.reg off ho)⟩
  have hk := k.eq
  rw [h.eq] at hk
  exact hk

theorem State.Observed.ite {c : Prop} [Decidable c] {a b : State} (ha : s.Observed a) (hb : s.Observed b) :
    s.Observed (if c then a else b) := by
  split
  · exact ha
  · exact hb

theorem State.Observed.foldl {α : Type} {f : State → α → State} (hf : ∀ (s : State) a, s.Observed (f s a)) (s : State) (l : List α) :
    s.Observed (l.foldl f s) :=
  List.foldlRecOn l f (motive := fun t => s.Observed t) (.refl s) fun t ih a _ => ih.trans (hf t a)

theorem State.Observed.drift (h : s.Observed t) : t.drift = s.drift := (congrArg State.drift h.eq).trans rfl
theorem State.Observed.blocks (h : s.Observed t) : t.blocks = s.blocks := (congrArg State.blocks h.eq).trans rfl
theorem State.Observed.ctl (h : s.Observed t) : t.ctl = s.ctl := (congrArg State.ctl h.eq).trans rfl
theorem State.Observed.out (h : s.Observed t) : t.out = s.out := (congrArg State.out h.eq).trans rfl
theorem State.Observed.cache (h : s.Observed t) : t.cache = s.cache := (congrArg State.cache h.eq).trans rfl
theorem State.Observed.cmdq (h : s.Observed t) : t.cmdq = s.cmdq := (congrArg State.cmdq h.eq).trans rfl
theorem State.Observed.ctxs (h : s.Observed t) : t.ctxs = s.ctxs := (congrArg State.ctxs h.eq).trans rfl
theorem State.Observed.arbs (h : s.Observed t) : t.arbs = s.arbs := (congrArg State.arbs h.eq).trans rfl

end

section
variable (s : State)

theorem State.observed_obs (o : Obs) : s.Observed { s with obs := o } := ⟨rfl, fun _ _ => rfl⟩

theorem State.observed_setReg {off : Nat} (v : Nat) (h : off ∈ obsRegs) : s.Observed (s.setReg off v) := by
  refine ⟨rfl, fun o ho => ?_⟩
  have hne : off ≠ o := fun e => ho (e ▸ h)
  rw [State.reg_setReg, if_neg hne]

theorem State.observed_addCount (k inc : Nat) : s.Observed (s.addCount k inc) := by
  have hstatus (s : State) (i : Nat) : s.Observed (s.setBit rObsStatus i) := s.observed_setReg _ (by simp)
  have hctrl (s : State) (i : Nat) : s.Observed (s.setBit rObsCtrl i) := s.observed_setReg _ (by simp)
  unfold State.addCount
  dsimp only
  exact .ite (s.observed_obs _) (.ite (((s.observed_obs _).trans (hstatus _ _)).trans (hctrl _ _)) ((s.observed_obs _).trans (hstatus _ _)))

theorem State.observed_count (code : Nat) (t : Tag) (isT : Bool) : s.Observed (s.count code t isT) :=
  .ite (.refl s) (.foldl (fun s _ => .ite (s.observed_addCount _ _) (.refl s)) s _)

/-- A count leaves the tack slots. -/
theorem State.count_tacks (code : Nat) (t : Tag) (isT : Bool) : (s.count code t isT).tacks = s.tacks := by
  have hadd (s : State) (k : Nat) : (s.addCount k 1).tacks = s.tacks := by
    unfold State.addCount
    dsimp only
    repeat' split
    all_goals rfl
  unfold State.count
  split
  · rfl
  · refine List.foldlRecOn _ _ (motive := fun (u : State) => u.tacks = s.tacks) rfl fun u ih e _ => ?_
    split
    · exact (hadd u e.1).trans ih
    · exact ih

theorem State.observed_frame (ty : Byte) (payload : List Byte) : s.Observed (s.frame ty payload) := by
  have hdrop (s : State) : s.Observed (s.bump rTrcDrop 0 32 1) := s.observed_setReg _ (by simp)
  have hloss (s : State) (i : Nat) : s.Observed (s.setBit rObsStatus i) := s.observed_setReg _ (by simp)
  unfold State.frame
  dsimp only
  exact .ite (.refl s) (.ite (s.observed_obs _) (((s.observed_obs _).trans (hdrop _)).trans (hloss _ _)))

theorem State.observed_retire (k : Nat) : s.Observed (s.retire k) := by
  unfold State.retire
  split
  · exact .refl s
  · rename_i t ht
    have h1 : s.Observed { s with tacks := Tab.del s.tacks k } := ⟨rfl, fun _ _ => rfl⟩
    have hn (u : State) : u.Observed { u with nonce := u.nonce + 2 } := ⟨rfl, fun _ _ => rfl⟩
    have h2 := h1.trans (State.observed_count _ 0x02 (t.tag (some (t.media.toNat / 2 ^ 29))) true)
    have hw (u : State) : u.Observed (if t.flag fSampled then { u with obs := { u.obs with waiting := u.obs.waiting ++ [t.retired k] } } else u) :=
      .ite (u.observed_obs _) (.refl u)
    have h3 := h2.trans (hw _)
    exact .ite ((h3.trans (hn _)).trans (State.observed_frame _ _ _)) h3

theorem State.frame_tacks (ty : Byte) (payload : List Byte) : (s.frame ty payload).tacks = s.tacks := by
  unfold State.frame
  dsimp only
  repeat' split
  all_goals rfl

/-- A retirement frees its slot, and no other. -/
theorem State.retire_tacks {k : Nat} {t : Tack} (h : Tab.find s.tacks k = some t) : (s.retire k).tacks = Tab.del s.tacks k := by
  unfold State.retire
  simp only [h]
  repeat' split
  all_goals simp only [State.frame_tacks, State.count_tacks]

theorem State.observed_birthAt (k : Nat) (t : Tack) (ch : Option Nat) : s.Observed (s.birthAt k t ch) := by
  unfold State.birthAt
  extract_lets n t1 t2 t3
  have h1 : s.Observed { s with tacks := Tab.put s.tacks k t3, serial := s.serial + 1, obs := { s.obs with births := n } } :=
    ⟨rfl, fun _ _ => rfl⟩
  exact h1.trans (State.observed_count _ _ _ _)

theorem State.observed_birth (t : Tack) (ch : Option Nat) : s.Observed (s.birth t ch).1 := by
  unfold State.birth
  extract_lets t'
  split
  · exact .ite (s.observed_birthAt _ _ _) ((s.observed_birthAt _ _ _).trans (State.observed_retire _ _))
  · exact .refl s

theorem State.observed_of_birth {t : State} {x : Tack} {ch o : Option Nat} (h : s.birth x ch = (t, o)) : s.Observed t := by
  simpa [h] using s.observed_birth x ch

end

end Sys2Proof.Machine
end

section
/-! SUPPORT. Samples of the scrub patrol, system copies and wear snapshots: O47. -/

namespace Sys2Proof.Machine

/-! ### Plane-block records (R203, R228) -/

section
variable {s t : State}

/-- A record as it shows beside what the controller keeps for its die: that of a unit out of service is RETIRED (R228). -/
def PbRec.beside (c : DieCtl) (r : PbRec) : PbRec :=
  if c.retired || c.lost then { r with st := .retired, reason := if c.lost then 6 else 5, flags := r.flags &&& ~~~2#8 } else r

theorem State.pb_eq (s : State) (k : Nat) :
    s.pb k = PbRec.beside (s.ctlOf (pbDie k)) (Tab.get s.blocks.pbs k (PbRec.initAt s.blocks.blank k)) := rfl

theorem PbRec.beside_beside (c : DieCtl) (r : PbRec) : (r.beside c).beside c = r.beside c := by
  unfold PbRec.beside
  split
  · simp [BitVec.and_assoc]
  · rfl

theorem PbRec.beside_setCorrMax (c : DieCtl) (r : PbRec) (n : Nat) :
    PbRec.beside c { r with corrMax := n } = { r.beside c with corrMax := n } := by
  unfold PbRec.beside
  split
  · rfl
  · rfl

theorem PbRec.beside_corrMax (c : DieCtl) (r : PbRec) : (r.beside c).corrMax = r.corrMax := by
  unfold PbRec.beside
  split
  · rfl
  · rfl

/-- The record that a plane-block shows is one of the tables of blocks and dies alone. -/
theorem State.pb_congr (hp : t.blocks.pbs = s.blocks.pbs) (hb : t.blocks.blank = s.blocks.blank) (hc : t.ctl = s.ctl) (k : Nat) :
    t.pb k = s.pb k := by
  simp only [State.pb_eq, State.ctlOf, hp, hb, hc]

theorem State.pb_updPb (s : State) (k j : Nat) (f : PbRec → PbRec) :
    (s.updPb k f).pb j = if k = j then (f (s.pb k)).beside (s.ctlOf (pbDie k)) else s.pb j := by
  have h : (s.updPb k f).pb j =
      PbRec.beside (s.ctlOf (pbDie j)) (Tab.get (Tab.put s.blocks.pbs k (f (s.pb k))) j (PbRec.initAt s.blocks.blank j)) := rfl
  rw [h, Tab.get_put]
  split
  · rename_i e
    rw [e]
  · rfl

/-- A new CORR_MAX is all that changes of the record it is written to. -/
theorem State.pb_updPb_corrMax (s : State) (k j : Nat) (g : Nat → Nat) :
    (s.updPb k (fun r => { r with corrMax := g r.corrMax })).pb j = if k = j then { s.pb k with corrMax := g (s.pb k).corrMax } else s.pb j := by
  rw [State.pb_updPb, PbRec.beside_setCorrMax, State.pb_eq s k, PbRec.beside_beside]

/-- A flag that is set leaves CORR_MAX of every record. -/
theorem State.corrMax_updPb_setFlag (s : State) (k j i : Nat) : ((s.updPb k (fun r => r.setFlag i)).pb j).corrMax = (s.pb j).corrMax := by
  rw [State.pb_updPb]
  split
  · rename_i e
    rw [PbRec.beside_corrMax, e]
    rfl
  · rfl

/-- The records of `t` show the states, flags, links and pages of those of `s`. -/
structure State.SameRecords (s t : State) : Prop where
  st : ∀ j, (t.pb j).st = (s.pb j).st
  flags : ∀ j, (t.pb j).flags = (s.pb j).flags
  link : ∀ j, (t.pb j).link = (s.pb j).link
  lastPage : ∀ j, (t.pb j).lastPage = (s.pb j).lastPage

section
variable (h : s.SameRecords t)
include h

theorem State.SameRecords.serving (db p : Nat) : t.serving db p = s.serving db p := by
  unfold State.serving PbRec.flag
  exact if_congr (by rw [h.st, h.flags]) (by rw [h.link]) rfl

theorem State.SameRecords.isSpare (k : Nat) : t.isSpare k = s.isSpare k := by
  simp only [State.isSpare, PbRec.flag, h.st, h.flags, h.link]

theorem State.SameRecords.dbOf (a : MediaAddr) : t.dbOf a = s.dbOf a := by
  simp only [State.dbOf, State.servedBy, h.isSpare, h.link]

theorem State.SameRecords.holdsData (db : Nat) : t.holdsData db = s.holdsData db := by
  simp only [State.holdsData, State.dbRec, h.serving, h.st, h.lastPage]

end

end

/-! ### Samples (R225) -/

section
variable (s : State)

/-- Queueing for refresh leaves CORR_MAX of every record. -/
theorem State.corrMax_queueRefresh (db j : Nat) : ((s.queueRefresh db).pb j).corrMax = (s.pb j).corrMax := by
  unfold State.queueRefresh State.updDb
  dsimp only
  split
  · rfl
  · exact List.foldlRecOn _ _ (motive := fun (u : State) => (u.pb j).corrMax = (s.pb j).corrMax) rfl
      fun u ih k _ => (u.corrMax_updPb_setFlag k j pbRefresh).trans ih

theorem State.refreshQ_updDb (db : Nat) (f : PbRec → PbRec) : (s.updDb db f).blocks.refreshQ = s.blocks.refreshQ :=
  List.foldlRecOn _ _ (motive := fun (u : State) => u.blocks.refreshQ = s.blocks.refreshQ) rfl fun _ ih _ _ => ih

/-- A die-block with data that no job holds and the skiver need not empty is queued (R224). -/
theorem State.mem_queueRefresh {db : Nat} (hd : s.holdsData db = true) (hf : s.blocks.forced.contains db = false) (hj : s.blocks.jobs = []) :
    db ∈ (s.queueRefresh db).blocks.refreshQ := by
  unfold State.queueRefresh
  simp only [hd, hf, hj, List.any_nil, Bool.or_false, Bool.not_true]
  split
  · rename_i h
    simpa using h
  · rw [State.refreshQ_updDb]
    simp [State.setBlocks]

/-- The end of a sample leaves what the records show, and the queue for refresh. -/
theorem State.sampleEnded_frame (a : MediaAddr) (k : Nat) :
    (∀ j, ((s.scrubEnded a).retire k).pb j = s.pb j) ∧ ((s.scrubEnded a).retire k).blocks.refreshQ = s.blocks.refreshQ := by
  have h : (∀ j, (s.scrubEnded a).pb j = s.pb j) ∧ (s.scrubEnded a).blocks.refreshQ = s.blocks.refreshQ := by
    unfold State.scrubEnded
    dsimp only
    split
    · exact ⟨fun _ => rfl, rfl⟩
    · exact ⟨fun _ => rfl, rfl⟩
  obtain ⟨hpb, hq⟩ := h
  have ho := (s.scrubEnded a).observed_retire k
  refine ⟨fun j => (State.pb_congr ?_ ?_ ho.ctl j).trans (hpb j), (congrArg Blocks.refreshQ ho.blocks).trans hq⟩
  · rw [ho.blocks]
  · rw [ho.blocks]

/-- A sample that has passed its step, before its die-block is judged: CORR_MAX is raised (Table 6.1). -/
def State.scrubSampled (s : State) (a : MediaAddr) (corr : Nat) : State :=
  s.updPb (planeBlock a.toNat) (fun x => { x with corrMax := Nat.min 255 (Nat.max x.corrMax corr) })

theorem State.pb_scrubSampled (a : MediaAddr) (corr j : Nat) : (s.scrubSampled a corr).pb j =
    if planeBlock a.toNat = j then
      { s.pb (planeBlock a.toNat) with corrMax := Nat.min 255 (Nat.max (s.pb (planeBlock a.toNat)).corrMax corr) }
    else s.pb j :=
  State.pb_updPb_corrMax s _ _ (fun m => Nat.min 255 (Nat.max m corr))

theorem State.sameRecords_scrubSampled (a : MediaAddr) (corr : Nat) : s.SameRecords (s.scrubSampled a corr) := by
  constructor
  all_goals
    intro j
    rw [State.pb_scrubSampled]
    split
    · rename_i h
      rw [← h]
    · rfl

/-- A scrub read that passes a step raises CORR_MAX, queues its die-block when the sample asks for it, and ends; the other changes are
to counters and to what has been learned (R121, R225). -/
theorem State.stepPassed_of_scrubRead {t : Tack} (hop : t.op = .scrubRead) (k : Nat) (r : MediaRead) (c : Option Cell) (corr : Nat) (learn : List Int) :
    ∃ u : State, u.blocks = (s.scrubSampled r.addr corr).blocks ∧ u.ctl = s.ctl ∧
      s.stepPassed k t r c corr learn = (((if 5 ≤ t.retry ∨ (s.blocks.scrubbing.any (fun e => e.2.holds r.addr) = true ∧
        (t.retry ≠ 0 ∨ s.scrubLimit < corr)) then u.queueRefresh (u.dbOf r.addr) else u).scrubEnded r.addr).retire k) := by
  have hlim (u : State) (hu : u.store = s.store) : u.scrubLimit = s.scrubLimit := by
    simp only [State.scrubLimit, State.param, State.stored, hu]
  unfold State.stepPassed State.readDone
  extract_lets die q limit s1 s2 s3 sample put s4 s5 s6 leaf data
  have h3 : s3 = s2.updPb (planeBlock r.addr.toNat) (fun x => { x with corrMax := Nat.min 255 (Nat.max x.corrMax corr) }) := if_pos (.inr hop)
  have h4 : s4.blocks = s3.blocks ∧ s4.ctl = s3.ctl ∧ s4.store = s3.store := by
    simp only [s4, put]
    repeat' split
    all_goals exact ⟨rfl, rfl, rfl⟩
  obtain ⟨hblocks, hctl, hstore⟩ := h4
  have h3b : s3.blocks = (s.scrubSampled r.addr corr).blocks := by rw [h3]; rfl
  have h3c : s3.ctl = s.ctl := by rw [h3]; rfl
  have h3s : s3.store = s.store := by rw [h3]; rfl
  refine ⟨s4, hblocks.trans h3b, hctl.trans h3c, ?_⟩
  have hsample : sample = s.blocks.scrubbing.any (fun e => e.2.holds r.addr) := by
    simp only [sample, hop, h3b]
    rfl
  have h6 : s6 = s5 := if_neg (by simp [hop])
  have h5 : s5 = if 5 ≤ t.retry ∨ (s.blocks.scrubbing.any (fun e => e.2.holds r.addr) = true ∧ (t.retry ≠ 0 ∨ s.scrubLimit < corr)) then
      s4.queueRefresh (s4.dbOf r.addr) else s4 := by
    simp only [s5, hsample, hlim s4 (hstore.trans h3s)]
  rw [h6, hop, h5]

/-- What a scrub read that passes a step leaves of the records and of the queue for refresh (Table 6.1, R225). -/
theorem scrubRead_passed {s s1 : State} {t : Tack} (hop : t.op = .scrubRead) {k : Nat} {r : MediaRead} {c : Option Cell} {corr : Nat} {learn : List Int}
    (h1 : s.stepPassed k t r c corr learn = s1) :
    (s1.pb (planeBlock r.addr.toNat)).corrMax = Nat.min 255 (Nat.max (s.pb (planeBlock r.addr.toNat)).corrMax corr) ∧
      (s.blocks.scrubbing.any (fun e => e.2.holds r.addr) = true → t.retry ≠ 0 ∨ s.scrubLimit < corr → s.holdsData (s.dbOf r.addr) = true →
        s.blocks.forced.contains (s.dbOf r.addr) = false → s.blocks.jobs = [] → s.dbOf r.addr ∈ s1.blocks.refreshQ) := by
  obtain ⟨u, hblocks, hctl, hu⟩ := s.stepPassed_of_scrubRead hop k r c corr learn
  have hu' : ∀ j, u.pb j = (s.scrubSampled r.addr corr).pb j := State.pb_congr (congrArg Blocks.pbs hblocks) (congrArg Blocks.blank hblocks) hctl
  have hsame : s.SameRecords u := by
    have h := s.sameRecords_scrubSampled r.addr corr
    exact ⟨fun j => hu' j ▸ h.st j, fun j => hu' j ▸ h.flags j, fun j => hu' j ▸ h.link j, fun j => hu' j ▸ h.lastPage j⟩
  have hmax : (u.pb (planeBlock r.addr.toNat)).corrMax = Nat.min 255 (Nat.max (s.pb (planeBlock r.addr.toNat)).corrMax corr) := by
    rw [hu', State.pb_scrubSampled, if_pos rfl]
  rw [h1] at hu
  subst hu
  refine ⟨?_, fun hs hlim hd hf hj => ?_⟩
  · rw [(State.sampleEnded_frame _ _ _).1]
    split
    · rw [State.corrMax_queueRefresh, hmax]
    · exact hmax
  · rw [(State.sampleEnded_frame _ _ _).2, if_pos (.inr ⟨hs, hlim⟩), hsame.dbOf]
    have hf' : u.blocks.forced.contains (s.dbOf r.addr) = false := by rw [hblocks]; exact hf
    have hj' : u.blocks.jobs = [] := by rw [hblocks]; exact hj
    exact u.mem_queueRefresh ((hsame.holdsData _).trans hd) hf' hj'

end

/-! ### The patrol, system copies and snapshots (R225, R234) -/

section
variable {s : State}

theorem scrubPatrol_begins {n : BitVec 20} {last : Nat} {run : ReadRun} (he : s.engines = true) (hb : (s.dbRec (poolDb n.toNat)).st = .burnished)
    (hl : (s.dbRec (poolDb n.toNat)).lastPage = some last) (hn : Tab.find s.blocks.scrubbing (poolDb n.toNat) = none)
    (hr : { db := poolDb n.toNat, toRead := s.codewordsIn (poolDb n.toNat) (last + 1) (fun p => [p % 8]), waiting := [], bad := 0 } = run) :
    Effect (.scrubPatrol n () ()) s ((s.setBlocks { s.blocks with
      scrubbing := Tab.put s.blocks.scrubbing (poolDb n.toNat) run, scrubPos := n.toNat + 1 }).scrubOn (poolDb n.toNat)) := by
  subst hr
  refine Effect.of_done ((if_pos ⟨he, hb⟩).trans ?_)
  simp only [hl, hn]

theorem scrubPatrol_goes_on {n : BitVec 20} (he : s.engines = true) (hb : (s.dbRec (poolDb n.toNat)).st = .burnished)
    (hr : (Tab.find s.blocks.scrubbing (poolDb n.toNat)).isSome = true) :
    Effect (.scrubPatrol n () ()) s (s.scrubOn (poolDb n.toNat)) := by
  obtain ⟨run, hrun⟩ := Option.isSome_iff_exists.mp hr
  refine Effect.of_done ((if_pos ⟨he, hb⟩).trans ?_)
  simp only [hrun]

/-- The system block that SYSTEM_COPY_REFRESH takes next (R225). -/
def State.nextSystemBlock (s : State) : Option Nat :=
  s.blocks.refreshQ.find? (fun db => decide (1032 ≤ dbBlock db) && (s.ctlOf (dbDie db)).online && !s.blocks.erasing.contains db)

theorem exec_systemCopyRefresh_of_next {db : Nat} (he : s.engines = true) (hq : s.nextSystemBlock = some db) (hn : s.blocks.renew = none) :
    exec .systemCopyRefresh s = s.done (if dbBlock db = 1039 then
      ((s.spawnSystemErase engRefresh db).setBlocks { (s.spawnSystemErase engRefresh db).blocks with
        erasing := s.blocks.erasing ++ [db] }).kick (dbDie db) else (s.startRenew db).renewOn) := by
  have e : exec .systemCopyRefresh s = execSystemCopyRefresh s := rfl
  unfold State.nextSystemBlock at hq
  simp only [e, execSystemCopyRefresh, he, hn, hq, Bool.not_true, Bool.false_eq_true, if_false, Option.isSome_none]

theorem wearSnapshot_of_mounted (hm : s.mounted = true) : Answers .wearSnapshot s (fun t =>
    t.blocks.snapshots.getLast? = some s.wearNow ∧ (s.blocks.snapshots.length ≤ 32 → t.blocks.snapshots.length ≤ 32) ∧
      t.store.record (recWear0 + s.store.wearNext % 32) = some s.wearNow.bytes) := by
  refine Answers.of_done (x := s.wearSnapshot) (congrArg s.done (if_pos hm)) fun t ht => ?_
  have hs : t.blocks.snapshots =
      (s.blocks.snapshots ++ [s.wearNow]).drop ((s.blocks.snapshots ++ [s.wearNow]).length - 32) := congrArg Blocks.snapshots ht.blocks
  refine ⟨?_, fun _ => ?_, ?_⟩
  · simp [hs, List.getLast?_drop]
  · rw [hs, List.length_drop]
    omega
  · rw [ht.store]
    exact (Store.record_congr rfl _).trans (Store.record_writeOp_same _ _ _)

end

/-- Settles O47: the patrol and the other rows by their own branches, a sample by what a scrub read that passes leaves. -/
theorem scrubAndSnapshots : Obligations.ScrubAndSnapshots := by
  intro n corr k last learn db s s1 t r c run
  refine ⟨scrubPatrol_begins, scrubPatrol_goes_on, fun hb => ?_, fun hop h1 => scrubRead_passed hop h1, fun he hq hn => ⟨fun hb hs => ?_, fun hb => ?_⟩, fun he hr => ?_,
    wearSnapshot_of_mounted, fun hm => ?_⟩
  · exact Effect.of_done (if_neg fun h => hb h.2)
  · have e := exec_systemCopyRefresh_of_next he hq hn
    rw [if_pos hb, hs] at e
    exact Effect.of_done e
  · have e := exec_systemCopyRefresh_of_next he hq hn
    rw [if_neg hb] at e
    exact Effect.of_done e
  · exact Effect.of_done (congrArg s.done (by simp [he, hr]))
  · exact Effect.of_done (congrArg s.done (if_neg (by simp [hm])))

end Sys2Proof.Machine
end

section
/-! SUPPORT. `State.watched`: what the map updater, the journal, births and retirements leave for a read that the watchdog answers. -/

namespace Sys2Proof.Machine

/-- What has left the device, the count of the read watchdog, and what may still have the block answer a host: the requests that are not
born, whether the cache is enabled, and the commands in progress. -/
structure Watched where
  out : List Out
  wdog : Nat
  requests : List HostReq
  enabled : Bool
  cmds : List Cmd

def State.watched (s : State) : Watched :=
  { out := s.out, wdog := s.reg rHpWdog, requests := s.cache.requests, enabled := s.cache.enabled, cmds := s.cmdq.cmds }

section
variable (s : State)

theorem watched_foldl {α : Type} {f : State → α → State} (hf : ∀ s a, (f s a).watched = s.watched) (l : List α) :
    (l.foldl f s).watched = s.watched :=
  List.foldlRecOn l f (motive := fun t => t.watched = s.watched) rfl (fun _ ih a _ => (hf _ a).trans ih)

theorem watched_ite {s : State} {c : Prop} [Decidable c] {a b : State} (ha : a.watched = s.watched) (hb : b.watched = s.watched) :
    (if c then a else b).watched = s.watched := by
  split
  · exact ha
  · exact hb

theorem State.Observed.watched {s t : State} (h : s.Observed t) : t.watched = s.watched := by
  have hr : t.reg rHpWdog = s.reg rHpWdog := h.reg _ (by decide)
  simp only [State.watched, h.out, h.cache, h.cmdq, hr]

/-! #### Updates -/

@[simp] theorem watched_setXlat (x : Xlat) : (s.setXlat x).watched = s.watched := rfl
@[simp] theorem watched_setEntry (g : Nat) (e : DirEntry) : (s.setEntry g e).watched = s.watched := rfl
@[simp] theorem watched_updPb (k : Nat) (f : PbRec → PbRec) : (s.updPb k f).watched = s.watched := rfl
@[simp] theorem watched_updTack (k : Nat) (f : Tack → Tack) : (s.updTack k f).watched = s.watched := rfl
@[simp] theorem watched_updCtx (c : Nat) (f : Ctx → Ctx) : (s.updCtx c f).watched = s.watched := rfl

@[simp] theorem watched_bump {off : Nat} (lo w k : Nat) (h : off ≠ rHpWdog) : (s.bump off lo w k).watched = s.watched := by
  have hr : (s.bump off lo w k).reg rHpWdog = s.reg rHpWdog := (State.reg_setReg _ _ _ _).trans (if_neg h)
  simp only [State.watched, hr]
  rfl

@[simp] theorem watched_event (port code path : Nat) (params : List Byte) (tack : Nat) : (s.event port code path params tack).watched = s.watched := by
  unfold State.event
  exact watched_ite rfl (watched_bump s 0 32 1 (by decide))

/-! #### Tacks and the journal -/

@[simp] theorem watched_count (code : Nat) (t : Tag) (isT : Bool) : (s.count code t isT).watched = s.watched := (s.observed_count _ _ _).watched
@[simp] theorem watched_retire (k : Nat) : (s.retire k).watched = s.watched := (s.observed_retire k).watched

theorem watched_of_birth {s t : State} {x : Tack} {ch o : Option Nat} (h : s.birth x ch = (t, o)) : t.watched = s.watched :=
  (s.observed_of_birth h).watched

@[simp] theorem watched_ask (t : Tack) : (s.ask t).1.watched = s.watched := by
  unfold State.ask
  split
  · rename_i h
    have hw := watched_of_birth h
    exact hw
  · rename_i h
    have hw := watched_of_birth h
    exact hw

@[simp] theorem watched_bear (p : Tack → Bool) : (s.bear p).watched = s.watched := by
  refine watched_foldl s (fun s t => ?_) _
  split
  · rename_i h
    have hw := watched_of_birth h
    exact hw
  · rfl

@[simp] theorem watched_writeJournal (p : JPage) (second : Bool) : (s.writeJournal p second).watched = s.watched := by
  simp [State.writeJournal, State.spawnProgram]

@[simp] theorem watched_closePage : s.closePage.watched = s.watched := by
  simp only [State.closePage]
  repeat' split
  all_goals simp

@[simp] theorem watched_append (r : JRec) : (s.append r).watched = s.watched := by
  simp only [State.append]
  split
  all_goals simp

/-! #### Segments and leaves -/

@[simp] theorem watched_evict (k : Nat) : (s.evict k).watched = s.watched := by
  unfold State.evict
  split
  · rfl
  · rfl

@[simp] theorem watched_segRoom (g : Nat) : (s.segRoom g).1.watched = s.watched := by
  unfold State.segRoom
  repeat' split
  all_goals simp

theorem watched_of_segRoom {s t : State} {g : Nat} {o : Option Nat} (h : s.segRoom g = (t, o)) : t.watched = s.watched := by
  simpa [h] using watched_segRoom s g

@[simp] theorem watched_bringIn (g : Nat) : (s.bringIn g).watched = s.watched := by
  simp only [State.bringIn]
  split
  · rfl
  · split
    · rename_i h
      have hw := watched_of_segRoom h
      exact hw
    · rename_i h
      have hw := watched_of_segRoom h
      exact hw

@[simp] theorem watched_setLeaf (leaf rseq : Nat) (f : LeafEntry → LeafEntry) : (s.setLeaf leaf rseq f).watched = s.watched := by
  simp only [State.setLeaf]
  split
  all_goals simp

@[simp] theorem watched_unmapOld (e : LeafEntry) : (s.unmapOld e).watched = s.watched := watched_ite rfl rfl

@[simp] theorem watched_voidWritebacks (first n : Nat) : (s.voidWritebacks first n).watched = s.watched := rfl

@[simp] theorem watched_leafState (st : LeafSt) (first n reason : Nat) (hole : Bool) :
    (s.leafState st first n reason hole).watched = s.watched := by
  unfold State.leafState
  extract_lets g ctx rseq s1 s2 lo ls s3
  have h1 : s1.watched = s.watched := watched_ite rfl (watched_bringIn s g)
  have h3 : s3.watched = s2.watched := watched_foldl s2 (fun s i => by simp) ls
  rw [watched_voidWritebacks, h3, watched_append, h1]

@[simp] theorem watched_enterHoles (h : Hole) : (s.enterHoles h).watched = s.watched := by
  refine watched_foldl s (fun s h => ?_) _
  exact watched_ite rfl (watched_ite rfl rfl)

@[simp] theorem watched_poisonLeaf (leaf reason : Nat) (at' : Option MediaAddr) : (s.poisonLeaf leaf reason at').watched = s.watched := by
  simp only [State.poisonLeaf, State.poisonNow]
  repeat' split
  all_goals simp

@[simp] theorem watched_spawnSegRead (g : Nat) (host : Bool) (parent cmd : Option Nat) : (s.spawnSegRead g host parent cmd).watched = s.watched := by
  have hbump (u : State) : (u.bump rXlatSegMisses 0 32 1).watched = u.watched := watched_bump u 0 32 1 (by decide)
  unfold State.spawnSegRead
  refine watched_ite rfl ?_
  split
  · rfl
  · rename_i u slot h
    extract_lets a sl t t1 t2
    split
    · rename_i v k hb
      have hv : v.watched = s.watched := (watched_of_birth hb).trans (watched_of_segRoom h)
      exact watched_ite (((watched_count _ _ _ _).trans (hbump _)).trans hv) hv
    · rename_i hb
      exact (watched_of_birth hb).trans (watched_of_segRoom h)

theorem State.find_of_lineAt {s : State} {leaf w : Nat} {l : Line} (h : s.lineAt leaf = some (w, l)) : Tab.find s.cache.lines w = some l := by
  obtain ⟨i, _, hi⟩ := List.exists_of_findSome?_eq_some h
  split at hi
  · rename_i l' hl
    split at hi
    · simp only [Option.some.injEq, Prod.mk.injEq] at hi
      obtain ⟨rfl, rfl⟩ := hi
      exact hl
    · simp at hi
  · simp at hi

/-- A line that is not dirty leaves without a wait for its commit to end. -/
theorem watched_dropLine_of_clean {s : State} {k : Nat} {l : Line} (h : Tab.find s.cache.lines k = some l) (hd : l.isDirty = false) :
    (s.dropLine k).watched = s.watched := by
  unfold State.dropLine
  simp only [h, hd, Bool.false_and, Bool.false_eq_true, if_false]
  rfl

@[simp] theorem watched_dropStale (leaf : Nat) : (s.dropStale leaf).watched = s.watched := by
  unfold State.dropStale
  split
  · rename_i w l h
    by_cases hd : l.isDirty = true
    · simp [hd]
    · exact watched_ite rfl (watched_dropLine_of_clean (State.find_of_lineAt h) (by simpa using hd))
  · rfl

@[simp] theorem watched_poisonDue : s.poisonDue.watched = s.watched := by
  refine watched_foldl s (fun s p => ?_) _
  dsimp only
  repeat' split
  all_goals simp

@[simp] theorem watched_updaterReads : s.updaterReads.watched = s.watched :=
  watched_ite (watched_foldl s (fun s _ => watched_spawnSegRead s _ _ _ _) _) rfl

/-! ### An idle block that goes on -/

theorem State.foldl_emit {α : Type} (f : α → Out) (l : List α) : l.foldl (fun s a => s.emit (f a)) s = { s with out := s.out ++ l.map f } := by
  induction l generalizing s with
  | nil => simp
  | cons a l ih =>
    rw [List.foldl_cons, ih]
    simp [State.emit]

/-- The ends of waits for commits send credits, and leave the tack slots (R188, R261). -/
theorem State.endCommits_emits : ∃ os, s.endCommits.watched = { s.watched with out := s.out ++ os } ∧ s.endCommits.tacks = s.tacks := by
  unfold State.endCommits State.keepCommits
  refine List.foldlRecOn _ _ (motive := fun (t : State) => ∃ os, t.watched = { s.watched with out := s.out ++ os } ∧ t.tacks = s.tacks)
    ⟨[], by rw [List.append_nil]; rfl, rfl⟩ fun t ih o _ => ?_
  obtain ⟨os, hw, ht⟩ := ih
  split
  · rename_i a x _
    obtain ⟨o, he⟩ : ∃ o, t.sendCredit a x = t.emit o := ⟨_, rfl⟩
    have ho : t.out = s.out ++ os := congrArg Watched.out hw
    have hemit : (t.emit o).watched = { t.watched with out := t.out ++ [o] } := rfl
    exact ⟨os ++ [o], by rw [he, hemit, hw, ho, List.append_assoc], by rw [he]; exact ht⟩
  · exact ⟨os, hw, ht⟩

/-- Nothing waits to be born of a request. -/
theorem State.pump_of_none {s : State} (h : s.watched.requests = []) (n : Nat) : s.pump n = s := by
  have hr : s.cache.requests = [] := h
  cases n with
  | zero => rfl
  | succ n => simp only [State.pump, hr]

/-- Nothing runs over leaves for a command. -/
theorem State.stepRunCommands_of_none {s : State} (h : s.watched.cmds = []) : s.stepRunCommands = s := by
  have hc : s.cmdq.cmds = [] := h
  simp [State.stepRunCommands, hc]

/-- A block without tacks, requests or commands, its cache enabled, goes on by background work alone: it sends at most credits. -/
theorem State.advance_of_idle {s : State} (ht : s.tacks = []) (hr : s.watched.requests = []) (he : s.watched.enabled = true)
    (hc : s.watched.cmds = []) : s.out <+: s.advance.out ∧ s.advance.reg rHpWdog = s.reg rHpWdog := by
  obtain ⟨os, hw, ht'⟩ := s.endCommits_emits
  rw [ht] at ht'
  unfold State.advance
  extract_lets s1 ks s2 s3 s4 s5
  have hr1 : s1.watched.requests = [] := (congrArg Watched.requests hw).trans hr
  have he1 : s1.watched.enabled = true := (congrArg Watched.enabled hw).trans he
  have hc1 : s1.watched.cmds = [] := (congrArg Watched.cmds hw).trans hc
  have hks : ks = [] := by simp [ks, s1, ht', sortBy]
  have h2 : s2.watched = s1.watched := by simp [s2, hks]
  have h3 : s3.watched = s1.watched := by
    rw [← h2] at hr1 ⊢
    simp only [s3, watched_bear, State.pump_of_none hr1]
  clear_value s3
  have h4 : s4 = s3 := if_pos ((congrArg Watched.enabled h3).trans he1)
  have h5 : s5.watched = s1.watched := by
    rw [← h3] at hc1 ⊢
    simp only [s5, h4, State.stepRunCommands_of_none hc1, watched_bear, watched_updaterReads, watched_poisonDue]
  clear_value s5
  rw [← h5] at hr1
  rw [State.pump_of_none hr1]
  have hw5 : s5.watched = { s.watched with out := s.out ++ os } := h5.trans hw
  exact ⟨⟨os, (congrArg Watched.out hw5).symm⟩, congrArg Watched.wdog hw5⟩

end

/-! ### The answer of the watchdog (R156, R284, R289) -/

section
variable (s : State)

theorem chunks_ne_nil (mps a : Nat) (bs : List Byte) (fuel : Nat) : chunks mps a bs fuel ≠ [] := by
  cases fuel with
  | zero => simp [chunks]
  | succ f =>
    unfold chunks
    dsimp only
    split
    · simp
    · simp

/-- A poisoned piece of a memory-window read sends at least one poisoned completion, and changes no more that concerns the read. -/
theorem State.sendPiece_poisoned {r : HostReq} (hp : r.poison = true) (hc : r.cxl = false) (c : Nat) (tag : Tag) (bs : List Byte) :
    ∃ b os, (s.sendPiece r c tag bs).watched = { s.watched with out := s.out ++ .cpl r.tag.toNat .poisoned b :: os } ∧
      (s.sendPiece r c tag bs).tacks = s.tacks ∧ (s.sendPiece r c tag bs).arbs = s.arbs := by
  obtain ⟨b, ps, hparts⟩ := List.exists_cons_of_ne_nil (chunks_ne_nil s.host.mps r.addr.toNat (zeros r.len) ((zeros r.len).length / 64 + 2))
  have hans (p : List Byte) : r.answer true p = .cpl r.tag.toNat .poisoned p := by simp [HostReq.answer, hc]
  have hbump (u : State) (n : Nat) : (u.bump rHpPoison 0 32 n).watched = u.watched := watched_bump u 0 32 n (by decide)
  have he : s.sendPiece r c tag bs = ((({ s with out := s.out ++ .cpl r.tag.toNat .poisoned b :: ps.map (.cpl r.tag.toNat .poisoned) } : State).bump
      rHpPoison 0 32 (b :: ps).length).count 0x0F tag).updCtx c (fun x => { x with poison := satAdd 0xFFFFFFFF x.poison 1 }) := by
    simp only [State.sendPiece, hp, if_true, State.foldl_emit, hparts, List.map_cons, hans]
  rw [he]
  refine ⟨b, ps.map (.cpl r.tag.toNat .poisoned), ?_, ?_, ?_⟩
  · rw [watched_updCtx, watched_count, hbump]
    rfl
  · exact (State.count_tacks _ _ _ _).trans rfl
  · exact (State.observed_count _ _ _ _).arbs.trans rfl

theorem State.countOutside_frame (t : Tack) :
    (s.countOutside t).watched = s.watched ∧ (s.countOutside t).tacks = s.tacks ∧ (s.countOutside t).arbs = s.arbs := by
  have h1 : (s.bump rDriftOutside1 0 32 1).watched = s.watched := watched_bump s 0 32 1 (by decide)
  have h2 : (s.bump rDriftOutside2 0 32 1).watched = s.watched := watched_bump s 0 32 1 (by decide)
  unfold State.countOutside
  repeat' split
  · exact ⟨rfl, rfl, rfl⟩
  · exact ⟨h1, rfl, rfl⟩
  · exact ⟨h2, rfl, rfl⟩
  · exact ⟨rfl, rfl, rfl⟩

/-- A tack that neither the medium nor a data phase holds retires when it leaves service (R18). -/
theorem State.drain_of_free {s : State} {k : Nat} {t : Tack} (h : Tab.find s.tacks k = some t) (hr : t.rd = none)
    (ho : s.ownsPhase k = false) : s.drain k = s.retire k := by
  simp [State.drain, h, hr, Tack.onDie, ho]

end

section
variable {s : State} {slot : BitVec 16} {t : Tack} {r : HostReq}

/-- What the watchdog does with one piece of a read: it is sent as poison, and its tack leaves service. -/
def State.abandon (s : State) (k : Nat) (t : Tack) (p : HostReq) : State :=
  (((s.countOutside t).sendPiece { p with poison := true } t.origin.code (t.tag none) []).updTack k
    (fun t => (t.setFlag fAbandoned).setFlag fPoison)).drain k

/-- The only tack, a read that has not gone to the medium, is answered with poison and is gone. -/
theorem State.abandon_of_single {k : Nat} (hs : s.tacks = [(k, t)]) (hc : r.cxl = false) (hrd : t.rd = none)
    (ha : ∀ e ∈ s.arbs, e.2.grant ≠ some k) :
    ∃ b os, (s.abandon k t r).watched = { s.watched with out := s.out ++ .cpl r.tag.toNat .poisoned b :: os } ∧ (s.abandon k t r).tacks = [] := by
  obtain ⟨hw0, ht0, ha0⟩ := s.countOutside_frame t
  obtain ⟨b, os, hw, ht, harb⟩ := (s.countOutside t).sendPiece_poisoned (r := { r with poison := true }) rfl hc t.origin.code (t.tag none) []
  unfold State.abandon
  generalize hu : (s.countOutside t).sendPiece { r with poison := true } t.origin.code (t.tag none) [] = u at hw ht harb ⊢
  have htacks : (u.updTack k (fun t => (t.setFlag fAbandoned).setFlag fPoison)).tacks = [(k, (t.setFlag fAbandoned).setFlag fPoison)] := by
    simp [State.updTack, ht, ht0, hs, Tab.change, Tab.find, Tab.put]
  have hfind : Tab.find (u.updTack k (fun t => (t.setFlag fAbandoned).setFlag fPoison)).tacks k = some ((t.setFlag fAbandoned).setFlag fPoison) := by
    simp [htacks, Tab.find]
  have hown : (u.updTack k (fun t => (t.setFlag fAbandoned).setFlag fPoison)).ownsPhase k = false := by
    have harbs : (u.updTack k (fun t => (t.setFlag fAbandoned).setFlag fPoison)).arbs = s.arbs := harb.trans ha0
    simpa [State.ownsPhase, harbs] using ha
  rw [State.drain_of_free hfind hrd hown]
  refine ⟨b, os, ?_, ?_⟩
  · have ho : (s.countOutside t).out = s.out := congrArg Watched.out hw0
    rw [watched_retire, watched_updTack, hw, hw0, ho]
  · rw [State.retire_tacks _ hfind, htacks]
    simp [Tab.del]

theorem State.readsOf_of_single {k : Nat} (hs : s.tacks = [(k, t)]) (hr : t.req = some r) (ho : t.op = .hostRead) (hd : t.draining = false) :
    s.readsOf r.tag = [(k, t)] := by
  simp [State.readsOf, hs, hr, ho, hd, sortBy, insertBy]

/-- The state in which the watchdog has answered the only piece of a read. -/
def State.watchdogBites (s : State) (k : Nat) (t : Tack) (r : HostReq) : State :=
  ((s.abandon k t r).bump rHpWdog 0 32 1).event portHost 0x0804 s.devicePath (le 8 r.addr.toNat) k

theorem State.watchdogBites_of_single {k : Nat} (hs : s.tacks = [(k, t)]) (hc : r.cxl = false) (hrd : t.rd = none)
    (ha : ∀ e ∈ s.arbs, e.2.grant ≠ some k) :
    ∃ b os, (s.watchdogBites k t r).watched = { s.watched with out := s.out ++ .cpl r.tag.toNat .poisoned b :: os
                                                               wdog := Nat.min 0xFFFFFFFF (s.reg rHpWdog + 1) } ∧
      (s.watchdogBites k t r).tacks = [] := by
  obtain ⟨b, os, hw, ht⟩ := State.abandon_of_single hs hc hrd ha
  have hreg : ((s.abandon k t r).bump rHpWdog 0 32 1).reg rHpWdog = Nat.min 0xFFFFFFFF (s.reg rHpWdog + 1) := by
    rw [State.reg_bump_word _ (by decide), show (s.abandon k t r).reg rHpWdog = s.reg rHpWdog from congrArg Watched.wdog hw]
  have hbump : ((s.abandon k t r).bump rHpWdog 0 32 1).watched =
      { (s.abandon k t r).watched with wdog := Nat.min 0xFFFFFFFF (s.reg rHpWdog + 1) } := by
    rw [← hreg]
    rfl
  refine ⟨b, os, ?_, ?_⟩
  · rw [State.watchdogBites, watched_event, hbump, hw]
  · rw [State.watchdogBites, State.event_tacks]
    exact ht

theorem exec_readWatchdog_of_single (hs : s.tacks = [(slot.toNat, t)]) (hr : t.req = some r) (hop : t.op = .hostRead)
    (hd : t.draining = false) (hp : s.cache.pause = false) :
    exec (.readWatchdog slot) s = s.done (s.watchdogBites slot.toNat t r).advance := by
  have e : exec (.readWatchdog slot) s = execReadWatchdog slot s := rfl
  have hfind : Tab.find s.tacks slot.toNat = some t := by simp [hs, Tab.find]
  simp only [e, execReadWatchdog, hfind, hr, State.readsOf_of_single hs hr hop hd, List.foldl_cons, List.foldl_nil]
  exact if_pos ⟨hop, by simp [hd], by simp [hp]⟩

/-- The only read, one that has not gone to the medium, is answered with poison and counted (R156, R289). -/
theorem readWatchdog_of_single (hs : s.tacks = [(slot.toNat, t)]) (hr : t.req = some r) (hc : r.cxl = false) (hop : t.op = .hostRead)
    (hd : t.draining = false) (hp : s.cache.pause = false) (hrd : t.rd = none) (ha : ∀ e ∈ s.arbs, e.2.grant ≠ some slot.toNat)
    (hreq : s.cache.requests = []) (hcmd : s.cmdq.cmds = []) (hen : s.cache.enabled = true) :
    Answers (.readWatchdog slot) s (fun u => (∃ bs, Out.cpl r.tag.toNat .poisoned bs ∈ u.out) ∧
      u.reg rHpWdog = Nat.min 0xFFFFFFFF (s.reg rHpWdog + 1)) := by
  obtain ⟨b, os, hw, ht⟩ := State.watchdogBites_of_single hs hc hrd ha
  obtain ⟨hout, hreg⟩ := State.advance_of_idle ht ((congrArg Watched.requests hw).trans hreq) ((congrArg Watched.enabled hw).trans hen)
    ((congrArg Watched.cmds hw).trans hcmd)
  have hmem : Out.cpl r.tag.toNat .poisoned b ∈ (s.watchdogBites slot.toNat t r).out := by
    rw [show (s.watchdogBites slot.toNat t r).out = _ from congrArg Watched.out hw]
    simp
  refine Answers.of_done (exec_readWatchdog_of_single hs hr hop hd hp) fun u hu => ⟨⟨b, hu.out.subset (hout.subset hmem)⟩, ?_⟩
  rw [hu.reg rHpWdog (by decide), hreg]
  exact congrArg Watched.wdog hw

/-- A read that is not born is answered when no tack has slot 0xFFFF, which names it (R289). -/
theorem readWatchdog_of_unborn (hf : Tab.find s.tacks 0xFFFF = none) (hp : s.cache.pause = false)
    (hr : s.cache.requests.find? (fun r => !r.write) = some r) : Effect (.readWatchdog 0xFFFF) s (s.watchUnborn r) := by
  refine Effect.of_done ?_
  have e : exec (.readWatchdog 0xFFFF) s = execReadWatchdog 0xFFFF s := rfl
  have hslot : (0xFFFF : BitVec 16).toNat = 0xFFFF := rfl
  simp only [e, execReadWatchdog, hslot, hf, hp, hr, and_self, if_true]

/-- No watchdog runs through an activation pause (R289). -/
theorem readWatchdog_of_pause (hp : s.cache.pause = true) : Effect (.readWatchdog slot) s s := by
  refine Effect.of_done ?_
  have e : exec (.readWatchdog slot) s = execReadWatchdog slot s := rfl
  simp only [e, execReadWatchdog, hp, Bool.true_eq_false, and_false, if_false, not_true_eq_false]
  split
  · rfl
  · split
    · rfl
    · rfl

/-! ### A tack past its DEADLINE (R15, R301) -/

/-- A counter of 16 bits in the low half of its register rises up to its largest value. -/
theorem State.bits_bump_half (s : State) (off : Nat) : bits ((s.bump off 0 16 1).reg off) 0 16 = Nat.min 0xFFFF (bits (s.reg off) 0 16 + 1) := by
  have hmin (a b : Nat) : Nat.min a b = min a b := rfl
  simp only [State.bump, State.setField, State.reg_setReg, State.field, setBits, bits, satAdd, if_true, pow_zero, Nat.div_one, mul_one, hmin]
  omega

theorem State.ctx_updCtx_self (s : State) (c : Nat) (f : Ctx → Ctx) : (s.updCtx c f).ctx c = f (s.ctx c) := Tab.get_put_self _ _ _ _

/-- A late L1 read counts for its context and in DRIFT_LATE. -/
theorem exec_tackLate_of_hostRead {c : BitVec 12} (hf : Tab.find s.tacks slot.toNat = some t) (hl : t.flag fLate = false) (hd : t.deadline ≠ 0xFFFF)
    (hop : t.op = .hostRead) (ho : t.origin = .ctx c) (hcls : t.cls = 1) :
    exec (.tackLate slot) s = s.done ((((s.updTack slot.toNat (fun t => t.setFlag fLate)).count 0x03 (t.tag none)).bump rDriftLate 0 16 1).updCtx
      c.toNat (fun x => { x with late := satAdd 0xFFFFFFFF x.late 1 })) := by
  have e : exec (.tackLate slot) s = execTackLate slot s := rfl
  simp only [e, execTackLate, hf, hl, hd, hop, ho, hcls, Bool.false_eq_true, or_self, if_false, if_true]

theorem tackLate_of_hostRead {c : BitVec 12} (hf : Tab.find s.tacks slot.toNat = some t) (hl : t.flag fLate = false) (hd : t.deadline ≠ 0xFFFF)
    (hop : t.op = .hostRead) (ho : t.origin = .ctx c) (hcls : t.cls = 1) :
    Answers (.tackLate slot) s (fun u => (u.ctx c.toNat).late = Nat.min 0xFFFFFFFF ((s.ctx c.toNat).late + 1) ∧
      bits (u.reg rDriftLate) 0 16 = Nat.min 0xFFFF (bits (s.reg rDriftLate) 0 16 + 1) ∧
      Tab.find u.tacks slot.toNat = some (t.setFlag fLate)) := by
  have hobs := (s.updTack slot.toNat (fun t => t.setFlag fLate)).observed_count 0x03 (t.tag none) true
  have htacks := (s.updTack slot.toNat (fun t => t.setFlag fLate)).count_tacks 0x03 (t.tag none) true
  refine Answers.of_done (exec_tackLate_of_hostRead hf hl hd hop ho hcls) fun u hu => ⟨?_, ?_, ?_⟩
  · have hctx : ((s.updTack slot.toNat (fun t => t.setFlag fLate)).count 0x03 (t.tag none)).ctx c.toNat = s.ctx c.toNat := by
      simp only [State.ctx, hobs.ctxs]
      rfl
    have h := State.ctx_updCtx_self (((s.updTack slot.toNat (fun t => t.setFlag fLate)).count 0x03 (t.tag none)).bump rDriftLate 0 16 1) c.toNat
      (fun x => { x with late := satAdd 0xFFFFFFFF x.late 1 })
    rw [State.ctx, hu.ctxs, ← State.ctx, h, ← hctx]
    rfl
  · rw [hu.reg rDriftLate (by decide)]
    refine (State.bits_bump_half _ _).trans ?_
    rw [hobs.reg rDriftLate (by decide)]
    rfl
  · rw [hu.tacks]
    refine (congrArg (fun ts => Tab.find ts slot.toNat) htacks).trans ?_
    simp [State.updTack, Tab.change, hf]

end

end Sys2Proof.Machine
end

section
/-! SUPPORT. Brand assessment: pass 2, REASSESS, and what an assessment makes of a counter: O53. -/

namespace Sys2Proof.Machine

/-! ### What reads of brand rows leave (R132) -/

section
variable {s t u : State}

/-- `t` has the counters and the learned offsets of `s`, and all that `kept` shows. -/
structure State.SameCounters (s t : State) : Prop where
  counter : ∀ k, (t.age k).counter = (s.age k).counter
  learned : t.drift.learned = s.drift.learned
  kept : t.kept = s.kept

theorem State.SameCounters.refl (s : State) : s.SameCounters s := ⟨fun _ => rfl, rfl, rfl⟩

theorem State.SameCounters.trans (h : s.SameCounters t) (k : t.SameCounters u) : s.SameCounters u :=
  ⟨fun j => (k.counter j).trans (h.counter j), k.learned.trans h.learned, k.kept.trans h.kept⟩

theorem State.SameCounters.ite {c : Prop} [Decidable c] {a b : State} (ha : s.SameCounters a) (hb : s.SameCounters b) :
    s.SameCounters (if c then a else b) := by
  split
  · exact ha
  · exact hb

theorem State.SameCounters.foldl {α : Type} {f : State → α → State} (hf : ∀ (s : State) a, s.SameCounters (f s a)) (s : State) (l : List α) :
    s.SameCounters (l.foldl f s) :=
  List.foldlRecOn l f (motive := fun t => s.SameCounters t) (.refl s) fun t ih a _ => ih.trans (hf t a)

end

section
variable (s : State)

theorem State.age_setAge (k j : Nat) (a : DieAge) : (s.setAge k a).age j = if k = j then a else s.age j := Tab.get_put _ _ _ _ _

theorem State.sameCounters_setAge {k : Nat} {a : DieAge} (h : a.counter = (s.age k).counter) : s.SameCounters (s.setAge k a) := by
  refine ⟨fun j => ?_, rfl, kept_setAge s k a⟩
  rw [State.age_setAge]
  split
  · rename_i e
    rw [h, e]
  · rfl

theorem State.sameCounters_of_birth {s t : State} {x : Tack} {ch o : Option Nat} (h : s.birth x ch = (t, o)) : s.SameCounters t := by
  have hd : t.drift = s.drift := (s.observed_of_birth h).drift
  exact ⟨fun k => by rw [State.age, hd, ← State.age], by rw [hd], kept_of_birth h⟩

theorem State.sameCounters_brandOn (die : Nat) : s.SameCounters (s.brandOn die) := by
  unfold State.brandOn
  split
  · exact .refl s
  · refine .foldl (fun s r => ?_) s _
    dsimp only
    split
    · rename_i h
      exact (State.sameCounters_of_birth h).trans (State.sameCounters_setAge _ rfl)
    · rename_i h
      exact State.sameCounters_of_birth h

theorem State.sameCounters_brandBegin (die : Nat) : s.SameCounters (s.brandBegin die) := by
  refine State.SameCounters.trans ?_ (State.sameCounters_brandOn _ die)
  exact s.sameCounters_setAge rfl

theorem State.sameCounters_reassessed (die : Nat) : s.SameCounters (s.reassessed die) := by
  have hend (u : State) : u.SameCounters { u with drift := { u.drift with reassessing := false } } := ⟨fun _ => rfl, rfl, rfl⟩
  unfold State.reassessed
  extract_lets a rows s1
  have h1 : s.SameCounters s1 := by
    simp only [s1]
    split
    · exact s.sameCounters_setAge rfl
    · exact s.sameCounters_setAge rfl
  exact .ite h1 (h1.trans (hend _))

/-- REASSESS reads rows and gives reports; it moves no counter (R132). -/
theorem State.sameCounters_reassessAll : s.SameCounters s.reassessAll := by
  have hflag (u : State) (q : List Nat) : u.SameCounters { u with drift := { u.drift with reassessing := true, reassessQ := q } } :=
    ⟨fun _ => rfl, rfl, rfl⟩
  refine .foldl (fun s k => ?_) s _
  exact .ite (hflag s _) (.ite (.refl s) (.ite (s.sameCounters_reassessed k) ((hflag s s.drift.reassessQ).trans (State.sameCounters_brandBegin _ k))))

end

/-! ### Writes of DRIFT_CTRL (Table 4.13) -/

section
variable {s : State} {v : Word}

theorem bit_toNat (v : Word) (i : Nat) : bit v.toNat i = v.getLsbD i := bit_eq_testBit _ _

theorem State.sameCounters_setDriftCtrl (s : State) (v : Nat) : s.SameCounters (s.setReg rDriftCtrl v) :=
  ⟨fun _ => rfl, rfl, kept_setReg s v (by decide)⟩

/-- A write of DRIFT_CTRL moves no counter; LEARN_CLEAR alone touches what has been learned (R122, R132). -/
theorem State.writeDriftCtrl_frame (s : State) (n : Nat) : (∀ k, ((s.writeDriftCtrl n).age k).counter = (s.age k).counter) ∧
    (bit n 2 = false → (s.writeDriftCtrl n).drift.learned = s.drift.learned) ∧ (s.writeDriftCtrl n).kept = s.kept := by
  unfold State.writeDriftCtrl
  extract_lets s1 src s2
  have h1 : s.SameCounters s1 := s.sameCounters_setDriftCtrl _
  have h2 : (∀ k, (s2.age k).counter = (s1.age k).counter) ∧ (bit n 2 = false → s2 = s1) ∧ s2.kept = s1.kept := by
    simp only [s2]
    split
    · rename_i hb
      exact ⟨fun _ => rfl, fun h => absurd hb (by simp [h]), rfl⟩
    · exact ⟨fun _ => rfl, fun _ => rfl, rfl⟩
  obtain ⟨hcounter, hlearned, hkept⟩ := h2
  have h3 := State.SameCounters.ite (c := bit n 3 = true ∧ (s2.dev.state = .serving ∨ s2.dev.state = .maintenance))
    s2.sameCounters_reassessAll (.refl s2)
  refine ⟨fun k => (h3.counter k).trans ((hcounter k).trans (h1.counter k)), fun h => ?_, h3.kept.trans (hkept.trans h1.kept)⟩
  rw [h3.learned, hlearned h, h1.learned]

theorem reassess_of_open (hb : s.barOpen = true) : Answers (.reassess v ()) s (fun t => (∀ k, (t.age k).counter = (s.age k).counter) ∧
    (v.getLsbD 2 = false → t.drift.learned = s.drift.learned) ∧ t.media = s.media ∧ t.dies = s.dies) := by
  obtain ⟨hcounter, hlearned, hkept⟩ := s.writeDriftCtrl_frame v.toNat
  refine Answers.of_done (congrArg s.done (if_pos hb)) fun t ht => ⟨fun k => ?_, fun h2 => ?_, ?_, ?_⟩
  · rw [State.age, ht.drift, ← State.age, hcounter]
  · rw [ht.drift, hlearned (by rw [bit_toNat, h2])]
  · exact ht.media.trans (congrArg Kept.media hkept)
  · exact ht.dies.trans (congrArg Kept.dies hkept)

theorem learnClear_of_open (hb : s.barOpen = true) (h2 : v.getLsbD 2 = true) (h3 : v.getLsbD 3 = false) :
    Answers (.learnClear v) s (fun t => t.drift.learned = [] ∧ t.drift.dies = s.drift.dies ∧ t.drift.profile = s.drift.profile) := by
  have hd : (s.writeDriftCtrl v.toNat).drift = { s.drift with learned := [] } := by
    simp only [State.writeDriftCtrl, bit_toNat, h2, h3, Bool.false_eq_true, false_and, if_false, if_true]
    rfl
  refine Answers.of_done (congrArg s.done (if_pos hb)) fun t ht => ?_
  rw [ht.drift, hd]
  exact ⟨rfl, rfl, rfl⟩

end

/-! ### Pass 2 (R130, R131) -/

section
variable {s : State} {die : Fin 768}

/-- Whether a die of the channel of die `k` has its rows read (R130). -/
def State.brandBusy (s : State) (k : Nat) : Bool := (List.range 8).any (fun i => (s.age (dieKey (k / 8) i)).brandRun.isSome)

theorem State.brandBusy_of_none {k : Nat} (h : ∀ i : DieNo, (s.age (dieKey (k / 8) i)).brandRun = none) :
    s.brandBusy k = false ∧ (s.age k).brandRun = none := by
  refine ⟨List.any_eq_false.mpr fun i hi => ?_, ?_⟩
  · rw [h ⟨i, List.mem_range.mp hi⟩]
    simp
  · have hk : dieKey (k / 8) (k % 8) = k := by
      unfold dieKey
      omega
    have hm := h ⟨k % 8, Nat.mod_lt _ (by norm_num)⟩
    rwa [hk] at hm

theorem exec_brandPass2Die : exec (.brandPass2Die die) s = s.done (if ¬ (s.dev.state = .serving ∨ s.dev.state = .maintenance) then s
    else if (s.age die.val).provisional && (s.age die.val).read then
      ((((s.assess die.val (s.age die.val).rows).endPass2).checkAges).reassessNext die.val).kick die.val
    else if (s.age die.val).brandRun.isSome then s.brandOn die.val
    else if (s.age die.val).provisional && !s.brandBusy die.val then s.brandBegin die.val
    else s) := rfl

theorem brandPass2Die_of_read (hst : s.dev.state = .serving ∨ s.dev.state = .maintenance) (hp : (s.age die.val).provisional = true)
    (hr : (s.age die.val).read = true) : Effect (.brandPass2Die die) s
      (((((s.assess die.val (s.age die.val).rows).endPass2).checkAges).reassessNext die.val).kick die.val) := by
  refine Effect.of_done (exec_brandPass2Die.trans ?_)
  rw [if_neg (not_not_intro hst), if_pos (by simp [hp, hr])]

theorem brandPass2Die_begins (hst : s.dev.state = .serving ∨ s.dev.state = .maintenance) (hp : (s.age die.val).provisional = true)
    (hr : (s.age die.val).read = false) (hn : ∀ i : DieNo, (s.age (dieKey (die.val / 8) i)).brandRun = none) :
    Effect (.brandPass2Die die) s (s.brandBegin die.val) := by
  obtain ⟨hbusy, hrun⟩ := State.brandBusy_of_none hn
  refine Effect.of_done (exec_brandPass2Die.trans ?_)
  rw [if_neg (not_not_intro hst), if_neg (by simp [hr]), if_neg (by simp [hrun]), if_pos (by simp [hp, hbusy])]

theorem brandPass2Die_of_assessed (hp : (s.age die.val).provisional = false) (hn : (s.age die.val).brandRun = none) :
    Effect (.brandPass2Die die) s s := by
  refine Effect.of_done (exec_brandPass2Die.trans ?_)
  simp [hp, hn]

theorem brandPass2Die_of_other (h1 : s.dev.state ≠ .serving) (h2 : s.dev.state ≠ .maintenance) : Effect (.brandPass2Die die) s s :=
  Effect.of_done (exec_brandPass2Die.trans (by rw [if_pos (by simp [h1, h2])]))

end

/-! ### Assessments (R127 to R129) -/

theorem State.event_drift (s : State) (port code path : Nat) (params : List Byte) (tack : Nat) :
    (s.event port code path params tack).drift = s.drift := by
  unfold State.event
  dsimp only
  split
  · rfl
  · rfl

/-- An assessment moves the counter by U less the U applied before, and its die is provisional no more. -/
theorem State.assess_age (s : State) (k : Nat) (rows : List (List Nat)) : ((s.assess k rows).age k).provisional = false ∧
    ((s.assess k rows).age k).counter = satAge ((s.age k).counter + (s.assessed k rows).u - (s.age k).uApplied) := by
  unfold State.assess
  extract_lets a o s1 src s2
  have hs : s2.age k = { a with counter := satAge (a.counter + o.u - a.uApplied), uApplied := o.u, unpow := o.u / 256, provisional := false
                                brandRun := none, readable := o.readable, assumed := o.assumed, clamped := o.clamped, measured := o.measured
                                brandState := o.brand, reassessed := false } := Tab.get_put_self _ _ _ _
  have hevent (code : Nat) (params : List Byte) : ((s2.event portDrift code (s2.diePath k) params).tick).age k = s2.age k :=
    congrArg (fun d : Drift => Tab.get d.dies k DieAge.init) (s2.event_drift portDrift code (s2.diePath k) params 0xFFFF)
  split
  · rw [hevent, hs]
    exact ⟨rfl, rfl⟩
  · split
    · rw [hevent, hs]
      exact ⟨rfl, rfl⟩
    · rw [hs]
      exact ⟨rfl, rfl⟩

/-- Settles O53: a read that the watchdog answers by what the rest of the step leaves of it, REASSESS by the counters that it keeps, and
the other rows by their own branches. -/
theorem watchdogAndBrand : Obligations.WatchdogAndBrand := by
  refine ⟨fun slot s t => ⟨?_, fun r => readWatchdog_of_unborn, readWatchdog_of_pause, fun c => tackLate_of_hostRead⟩,
    fun die v s => ⟨fun hst => ⟨brandPass2Die_of_read hst, brandPass2Die_begins hst⟩, brandPass2Die_of_assessed, brandPass2Die_of_other,
      reassess_of_open, learnClear_of_open, s.assess_age⟩⟩
  intro r hs hr hc hop hd hp hrd ha hreq hcmd hen _
  exact readWatchdog_of_single hs hr hc hop hd hp hrd (fun e he => (ha e he).1) hreq hcmd hen

end Sys2Proof.Machine
end

section
/-! SUPPORT. What births, erases and journal pages leave of the translation (R185 to R188). -/

namespace Sys2Proof.Machine

/-! ### Tacks that are born, and the translation -/

section
variable {s t : State}

theorem State.Observed.xlat (h : s.Observed t) : t.xlat = s.xlat := (congrArg State.xlat h.eq).trans rfl

end

section
variable (s : State)

theorem State.ask_xlat (t : Tack) : (s.ask t).1.xlat = s.xlat := by
  unfold State.ask
  split
  · rename_i h
    exact (s.observed_of_birth h).xlat
  · rename_i h
    exact (s.observed_of_birth h).xlat

theorem State.spawnSystemErase_xlat (e : BitVec 12) (db : Nat) : (s.spawnSystemErase e db).xlat = s.xlat := by
  unfold State.spawnSystemErase
  dsimp only
  split
  · rfl
  · exact s.ask_xlat _

/-- Erases that are asked for change nothing of the translation, however many they are. -/
theorem State.spawnSystemErases_xlat (e : BitVec 12) (dbs : List Nat) :
    (dbs.foldl (fun s db => s.spawnSystemErase e db) s).xlat = s.xlat :=
  List.foldlRecOn dbs _ (motive := fun (t : State) => t.xlat = s.xlat) rfl fun t ih db _ => (t.spawnSystemErase_xlat e db).trans ih

/-! ### The open page (R185, R187) -/

/-- A copy of a page changes the rings alone. -/
theorem State.writeJournal_xlat (p : JPage) (second : Bool) :
    ∃ at' ring, (s.writeJournal p second).xlat = { s.xlat with ringAt := at', ring := ring } :=
  ⟨_, _, State.ask_xlat _ _⟩

/-- The page that the records of the open page make as it closes (R185). -/
def State.openPage (s : State) : JPage :=
  { jseq := s.xlat.jHead, epoch := s.xlat.epoch, weltSeq := (match s.newestWelt with | some w => w.seq | none => 0), recs := s.xlat.jRecs
    primary := false, mirror := false }

/-- A page that closes joins the pages and leaves its successor empty; beside that only the rings and WELT_DUE can change. -/
theorem State.closePage_xlat_of_records (h : s.xlat.jRecs ≠ []) : ∃ at' ring due, s.closePage.xlat =
    { s.xlat with pages := s.xlat.pages ++ [s.openPage], jRecs := [], jFlush := false, jHead := s.xlat.jHead + 1
                  ringAt := at', ring := ring, weltDue := due } := by
  unfold State.closePage
  extract_lets x newest p s1 s2
  obtain ⟨at1, ring1, h1⟩ := s1.writeJournal_xlat p false
  obtain ⟨at2, ring2, h2⟩ := (s1.writeJournal p false).writeJournal_xlat p true
  have h3 : s2.xlat = { s1.xlat with ringAt := at2, ring := ring2 } := by rw [h2, h1]
  rw [if_neg (by simpa [x] using h)]
  clear_value s2
  split
  · exact ⟨at2, ring2, true, congrArg (fun x : Xlat => { x with weltDue := true }) h3⟩
  · exact ⟨at2, ring2, s.xlat.weltDue, h3⟩

/-- The close of a page leaves a welt under way, and the welts there are. -/
theorem State.closePage_welts : s.closePage.xlat.run = s.xlat.run ∧ s.closePage.xlat.welts = s.xlat.welts ∧
    s.closePage.xlat.weltSeq = s.xlat.weltSeq := by
  by_cases h : s.xlat.jRecs = []
  · rw [show s.closePage = s by simp [State.closePage, h]]
    exact ⟨rfl, rfl, rfl⟩
  · obtain ⟨_, _, _, hx⟩ := s.closePage_xlat_of_records h
    rw [hx]
    exact ⟨rfl, rfl, rfl⟩

theorem State.closePage_records (h : s.xlat.jRecs ≠ []) : s.closePage.xlat.jRecs = [] ∧ s.closePage.xlat.jHead = s.xlat.jHead + 1 ∧
    ∃ p, s.closePage.xlat.pages = s.xlat.pages ++ [p] ∧ p.jseq = s.xlat.jHead ∧ p.recs = s.xlat.jRecs ∧ p.epoch = s.xlat.epoch := by
  obtain ⟨_, _, _, hx⟩ := s.closePage_xlat_of_records h
  rw [hx]
  exact ⟨rfl, rfl, s.openPage, rfl, rfl, rfl, rfl⟩

/-- A record joins the open page; one that does not fill it leaves it open (R187). -/
theorem State.append_records (r : JRec) (h : s.xlat.jRecs.length < 4031) :
    (s.append r).xlat.jRecs = s.xlat.jRecs ++ [r] ∧ (s.append r).xlat.jHead = s.xlat.jHead := by
  unfold State.append
  extract_lets x n s1
  have hl : s1.xlat.jRecs.length ≠ 4032 := by
    simp only [s1, x, State.setXlat_xlat, List.length_append, List.length_singleton]
    omega
  rw [if_neg hl]
  exact ⟨rfl, rfl⟩

end

end Sys2Proof.Machine
end

section
/-! SUPPORT. Segments that have been read or are to be written, and lines of the directory: O48. -/

namespace Sys2Proof.Machine

/-! ### Segments (R167, R181) -/

section
variable {s s0 s1 s2 : State} {seg : BitVec 22} {g k i : Nat} {t : Tack} {sl : SegSlot}

/-- The tack of a segment's read whose codewords have all been read. -/
def State.segmentRead (s : State) (g : Nat) : Option (Nat × Tack) :=
  s.tacks.find? (fun e => e.2.segment? == some g && !e.2.draining && e.2.rd.isNone)

theorem segReadDone_of_none (h : s.segmentRead seg.toNat = none) : Effect (.segReadDone seg () ()) s s := by
  unfold State.segmentRead at h
  have e : exec (.segReadDone seg () ()) s = execSegReadDone seg () () s := rfl
  exact Effect.of_done (by simp only [e, execSegReadDone, h])

theorem segReadDone_of_held (h : s.lineHeld (lineOf seg.toNat) = true) : Effect (.segReadDone seg () ()) s s := by
  have e : exec (.segReadDone seg () ()) s = execSegReadDone seg () () s := rfl
  refine Effect.of_done ?_
  simp only [e, execSegReadDone, h, if_true]
  split
  · rfl
  · rfl

/-- A segment that some copy gave is placed in its slot; what the read lost of it is then given up (R181). -/
theorem exec_segReadDone_of_loading (hf : s.segmentRead seg.toNat = some (k, t)) (hh : s.lineHeld (lineOf seg.toNat) = false)
    (hs : s.xlat.slots.find? (fun e => e.2.index == seg.toNat && e.2.st == .loading) = some (i, sl))
    (h0 : (s.markSegment seg.toNat t.outside).retire k = s0) (h1 : s0.setXlat { s0.xlat with slots := Tab.del s0.xlat.slots i } = s1)
    (hst : (s1.entry seg.toNat).st = .inMedia)
    (h2 : s1.placeSegment seg.toNat i (((s1.imageOf seg.toNat).map (fun x => x.leaves)).getD []) = s2) :
    exec (.segReadDone seg () ()) s =
      s.done (((if t.flag fPoison then s2.loseSegment seg.toNat else s2).pumpJobs.endUnits).searchOn.advance) := by
  unfold State.segmentRead at hf
  have e : exec (.segReadDone seg () ()) s = execSegReadDone seg () () s := rfl
  simp only [e, execSegReadDone, hf, hh, hs, Option.map_some, h0, h1, hst, h2, Bool.false_eq_true, if_false]

theorem segWrite_of_mapUp (hm : s.mapUp = true) {ds : List Nat} (hd : s.dirtySlots.map (fun e => e.2) = ds) :
    (seg.toNat ∈ ds → Effect (.segWrite seg) s (s.writeSegments (seg.toNat :: (ds.filter (fun x => x != seg.toNat)).take 3))) ∧
    (seg.toNat ∉ ds → Effect (.segWrite seg) s s) := by
  subst hd
  exact ⟨fun h => Effect.of_done (congrArg s.done (if_pos (by simp [hm, h]))),
    fun h => Effect.of_done (congrArg s.done (if_neg (by simp [h])))⟩

end

/-! ### Directory lines (R172 to R178) -/

section
variable {s : State} {line : BitVec 19} {out : LineRebuild}

/-- A line is rebuilt when it is one of the first four that wait (R175). -/
def State.rebuilds (s : State) (l : Nat) : Prop := s.xlat.dirUp = true ∧ l ∈ s.xlat.badLines.take 4

theorem dirLineRebuild_of_other (h : line.toNat ∉ s.xlat.badLines.take 4) : Effect (.dirLineRebuild line out) s s := by
  refine Effect.of_done (if_pos ?_)
  simp only [List.contains_iff_mem, h, Bool.or_eq_true, Bool.not_eq_true', Bool.eq_false_iff, ne_eq, not_false_eq_true, or_true]

/-- A line that reads back bad is met as an error once more (R172, R175 step 5). -/
theorem dirLineRebuild_of_badReadBack (h : s.rebuilds line.toNat) :
    Effect (.dirLineRebuild line ⟨true, false⟩) s (s.dirError line.toNat 3) := by
  obtain ⟨hup, hm⟩ := h
  refine Effect.of_done ((if_neg ?_).trans rfl)
  simp [hup, hm]

/-- A Corrected Internal Error changes nothing of the translation (R291). -/
theorem State.aer_corrected_xlat (s : State) (h : List Byte) : (s.aer .corrected h).xlat = s.xlat := by
  unfold State.aer State.aerCorrectable
  simp only [if_true]
  split
  · rfl
  · rfl

/-- The pins that waited for the rebuild of a line are made (R175). -/
def State.pinDue (s : State) (l : Nat) : State :=
  (s.xlat.pinsDue.filter (fun p => lineOf p.1 == l)).foldl (fun s p => s.pin p.1 p.2)
    (s.setXlat { s.xlat with pinsDue := s.xlat.pinsDue.filter (fun p => lineOf p.1 != l) })

theorem State.pinDue_of_nil {s : State} (h : s.xlat.pinsDue = []) (l : Nat) : s.pinDue l = s := by
  have hs : s.setXlat { s.xlat with pinsDue := [] } = s := by
    rw [← h]
    rfl
  simp only [State.pinDue, h, List.filter_nil, List.foldl_nil, hs]

theorem exec_dirLineRebuild_of_readBack {s0 : State} (h : s.rebuilds line.toNat)
    (he : s.xlat.errs.any (fun e => e.line == line.toNat && decide (3 ≤ e.count)) = false)
    (h0 : ({ s with host := { s.host with dirRebuilds := s.host.dirRebuilds + 1 } } : State).aer .corrected [] = s0) :
    exec (.dirLineRebuild line ⟨true, true⟩) s = s.done ((((List.range 8).map (fun i => 8 * line.toNat + i)).foldl State.segmentWritten
      ((s0.setXlat { s0.xlat with badLines := s0.xlat.badLines.filter (fun x => x != line.toNat) }).pinDue line.toNat)).advance) := by
  obtain ⟨hup, hm⟩ := h
  have hg : (!s.xlat.dirUp || !((s.xlat.badLines.take 4).contains line.toNat)) = false := by simp [hup, hm]
  have e : exec (.dirLineRebuild line ⟨true, true⟩) s = execDirLineRebuild line ⟨true, true⟩ s := rfl
  simp only [e, execDirLineRebuild, hg, he, h0, Bool.false_eq_true, if_false, if_true, Bool.not_true]
  rfl

theorem dirLineRebuild_of_readBack {s0 : State} (h : s.rebuilds line.toNat)
    (he : s.xlat.errs.any (fun e => e.line == line.toNat && decide (3 ≤ e.count)) = false) (hp : s.xlat.pinsDue = [])
    (h0 : ({ s with host := { s.host with dirRebuilds := s.host.dirRebuilds + 1 } } : State).aer .corrected [] = s0) :
    Effect (.dirLineRebuild line ⟨true, true⟩) s ((((List.range 8).map (fun i => 8 * line.toNat + i)).foldl State.segmentWritten
      (s0.setXlat { s0.xlat with badLines := s0.xlat.badLines.filter (fun x => x != line.toNat) })).advance) := by
  have hx : s0.xlat = s.xlat := h0 ▸ State.aer_corrected_xlat _ _
  have e := exec_dirLineRebuild_of_readBack h he h0
  rw [State.pinDue_of_nil (by rw [State.setXlat_xlat, hx]; exact hp)] at e
  exact Effect.of_done e

/-- A line that meets an error waits for its rebuild (R175). -/
theorem State.mem_badLines_dirError (s : State) (l source : Nat) : l ∈ (s.dirError l source).xlat.badLines := by
  have h : (s.dirError l source).xlat.badLines = if l ∈ s.xlat.badLines then s.xlat.badLines else s.xlat.badLines ++ [l] := rfl
  rw [h]
  split
  · assumption
  · exact List.mem_append_right _ (List.mem_singleton.mpr rfl)

theorem dirPatrol_of_bad (hp : s.powered = true) (hc : bit (s.reg rXlatCtrl) 9 = true) :
    Effect (.dirPatrol line .bad) s (s.dirError line.toNat 1) :=
  Effect.of_done (congrArg s.done (if_pos (by rw [hp, hc]; rfl)))

theorem dirPatrol_of_off (hc : bit (s.reg rXlatCtrl) 9 = false) : Effect (.dirPatrol line .bad) s s :=
  Effect.of_done (congrArg s.done (if_neg (by simp [hc])))

theorem dirPatrol_of_good (hu : s.xlat.dirUp = true) (hc : s.lineCorrupt line.toNat = false) : Effect (.dirPatrol line .good) s s :=
  Effect.of_done (congrArg s.done (if_neg (by simp [hu, hc])))

theorem dirPatrol_badToUpdater (hu : s.xlat.dirUp = true) : Effect (.dirPatrol line .badToUpdater) s (s.dirError line.toNat 0) :=
  Effect.of_done (congrArg s.done (if_pos hu))

/-- The word of a spare in record 0x0011 (Table 13.3). -/
def spareBytes (x : Option Spare) : List Byte :=
  match x with
  | some sp => le 8 ((match sp.line with | some l => 2 ^ 31 + l | none => 0) + flag sp.bad * 2 ^ 30)
  | none => zeros 8

theorem State.remapBytes_eq (s : State) : s.remapBytes = (List.range 8).flatMap (fun n => spareBytes (Tab.find s.xlat.spares n)) := by rfl

/-- Record 0x0011 while spare 0 alone is in use. -/
theorem State.remapBytes_of_first {s : State} {l : Nat} (h : s.xlat.spares = [(0, { line := some l, bad := false })]) :
    s.remapBytes = le 8 (2 ^ 31 + l) ++ zeros 56 := by
  have hr : List.range 8 = [0, 1, 2, 3, 4, 5, 6, 7] := by decide
  have hz : zeros 56 = zeros 8 ++ zeros 8 ++ zeros 8 ++ zeros 8 ++ zeros 8 ++ zeros 8 ++ zeros 8 := by decide
  simp [State.remapBytes_eq, h, hr, hz, Tab.find, spareBytes, flag]

/-- The first line that is remapped takes spare 0, and record 0x0011 names it (R177, Table 13.3). -/
theorem State.remapLine_of_no_spares (s : State) (l : Nat) (h : s.xlat.spares = []) :
    Tab.find (s.remapLine l).xlat.spares 0 = some { line := some l, bad := false } ∧
      (s.remapLine l).store.record recDirRemap = some (le 8 (2 ^ 31 + l) ++ zeros 56) := by
  have hfree : (List.range 8).find? (fun n => (Tab.find ([] : Tab Spare) n).isNone) = some 0 := rfl
  simp only [State.remapLine, h, List.map_nil, hfree, Tab.put]
  refine ⟨rfl, (Store.record_writeOp_same _ _ _).trans (congrArg some (State.remapBytes_of_first rfl))⟩

end

/-- Settles O48: a segment by the one branch of its read, the others by their own branches, a remap by the record that it stores. -/
theorem segmentsAndLines : Obligations.SegmentsAndLines := by
  intro seg line s s0 s1 s2 k i t sl g l hg hl
  subst hg hl
  refine ⟨segReadDone_of_none, segReadDone_of_held, fun hf hh hs h0 h1 hst h2 => ?_, fun ds hd hm => segWrite_of_mapUp hm hd,
    fun hu hm he hp h0 => dirLineRebuild_of_readBack ⟨hu, hm⟩ he hp h0, fun hu hm => dirLineRebuild_of_badReadBack ⟨hu, hm⟩,
    fun _ => dirLineRebuild_of_other, fun hp hc => ⟨dirPatrol_of_bad hp hc, s.mem_badLines_dirError _ 1⟩, dirPatrol_of_off, dirPatrol_of_good,
    s.remapLine_of_no_spares _⟩
  have e := exec_segReadDone_of_loading hf hh hs h0 h1 hst h2
  refine ⟨fun hp => ?_, fun hp => ?_⟩
  · rw [if_neg (by simp [hp])] at e
    exact Effect.of_done e
  · rw [if_pos hp] at e
    exact Effect.of_done e

end Sys2Proof.Machine
end

section
/-! SUPPORT. The map updater, the pages of the journal and its rings: O49. -/

namespace Sys2Proof.Machine

section
variable {s s1 : State} {i : MapItem}

/-- The item of its queue that the updater takes next (R165, R171). -/
def State.nextItem (s : State) : Option MapItem := s.xlat.queue.find? (fun i => s.updatable (granuleOf i.leaf))

/-- A programmed leaf for which no job and no tack waits is mapped, and no page closes for it (R165, R187). -/
theorem leafMapAppend_of_good (hm : s.mayMap = true) (hi : s.nextItem = some i) (ht : i.tack = none) (hsrc : i.source = none)
    (hc : s.lineCorrupt (lineOf (granuleOf i.leaf)) = false) (h1 : (s.setXlat { s.xlat with queue := s.xlat.queue.erase i }).mapLeaf i = s1)
    (hw : s1.pageAwaited = false) : Effect .leafMapAppend s s1.checkSpace.advance := by
  unfold State.nextItem at hi
  have e : exec .leafMapAppend s = execLeafMapAppend s := rfl
  refine Effect.of_done ?_
  simp only [e, execLeafMapAppend, hm, hi, hc, ht, hsrc, h1, hw, Bool.false_eq_true, if_false, if_true]

theorem leafMapAppend_of_corrupt (hm : s.mayMap = true) (hi : s.nextItem = some i) (hc : s.lineCorrupt (lineOf (granuleOf i.leaf)) = true) :
    Effect .leafMapAppend s (s.dirError (lineOf (granuleOf i.leaf)) 0) := by
  unfold State.nextItem at hi
  have e : exec .leafMapAppend s = execLeafMapAppend s := rfl
  refine Effect.of_done ?_
  simp only [e, execLeafMapAppend, hm, hi, hc, if_true]

theorem leafMapAppend_of_map_down (h : s.mapUp = false) : Effect .leafMapAppend s s := by
  have hm : s.mayMap = false := by simp [State.mayMap, h]
  have e : exec .leafMapAppend s = execLeafMapAppend s := rfl
  refine Effect.of_done ?_
  simp only [e, execLeafMapAppend, hm, Bool.false_eq_true, if_false]

/-! ### The rings (R190) -/

/-- Whether a page of the rings stands in block `b` of stream `st`. -/
def inRingBlock (st : Fin 8) (b : Fin 4) (e : Nat × Nat) : Bool := e.1 / 8192 == st.val && e.1 / 1024 % 4 == b.val

/-- A full die-block of a stream's rings, all of whose pages lie below REPLAY_FROM, is given back (R190). -/
theorem journalRingErase_of_old {st : Fin 8} {b : Fin 4} {w : Welt} (hu : s.xlat.dirUp = true) (hw : s.newestWelt = some w)
    (hl : (s.xlat.ring.filter (inRingBlock st b)).length = 2048)
    (ho : ∀ e ∈ s.xlat.ring, inRingBlock st b e = true → e.2 < w.replayFrom / 4096) :
    Answers (.journalRingErase st b) s (fun t => t.xlat.ring = s.xlat.ring.filter (fun e => !inRingBlock st b e)) := by
  have hall : (s.xlat.ring.filter (inRingBlock st b)).all (fun e => decide (e.2 < w.replayFrom / 4096)) = true := by
    simp only [List.all_eq_true, List.mem_filter, decide_eq_true_eq]
    exact fun e he => ho e he.1 he.2
  have hg : (s.xlat.dirUp && (s.xlat.ring.filter (inRingBlock st b)).length == 2048 &&
      (s.xlat.ring.filter (inRingBlock st b)).all (fun e => decide (e.2 <
        (match s.newestWelt with | some w => w.replayFrom / 4096 | none => 0)))) = true := by
    simp only [hu, hl, hw, hall]
    rfl
  exact Answers.of_done (if_pos hg) fun t ht => congrArg Xlat.ring ht.xlat

theorem journalRingErase_of_map_down {st : Fin 8} {b : Fin 4} (h : s.xlat.dirUp = false) : Effect (.journalRingErase st b) s s :=
  Effect.of_done (if_neg (by simp [h]))

end

/-- Settles O49: the updater by what it finds of its next leaf, the pages by what their close and an append leave of the journal. -/
theorem updaterAndJournal : Obligations.UpdaterAndJournal := by
  intro s s1 i st b line
  refine ⟨leafMapAppend_of_good, leafMapAppend_of_corrupt, dirPatrol_badToUpdater, leafMapAppend_of_map_down,
    fun hu => Effect.of_done (congrArg s.done (if_pos hu)), fun hu => Effect.of_done (congrArg s.done (if_neg (by simp [hu]))),
    s.closePage_records, s.append_records, fun w hu hw hl ho => journalRingErase_of_old hu hw hl fun e he hb => ?_, journalRingErase_of_map_down⟩
  simp only [inRingBlock, Bool.and_eq_true, beq_iff_eq] at hb
  exact ho e he hb.1 hb.2

end Sys2Proof.Machine
end

section
/-! SUPPORT. Welts that are due, begin, go on and end: O50. -/

namespace Sys2Proof.Machine

section
variable {s : State} {w : Welt}

theorem exec_weltStart (hm : s.mapUp = true) : exec .weltStart s = s.done (match s.xlat.run with
    | none => if s.xlat.weltDue then s.startWelt false else s
    | some (.segments _ clean) => s.startWelt clean
    | some (.image _ erasing streams) => s.resumeWelt erasing streams) :=
  congrArg s.done (if_neg (by simp [hm]))

/-- A welt that is due marks the map at once when no segment is left to write (R193). -/
theorem weltStart_of_written (hm : s.mapUp = true) (hr : s.xlat.run = none) (hd : s.xlat.weltDue = true) (hw : s.mustWrite false = [])
    (hi : s.imagesUnderWay false = false) : Effect .weltStart s (s.markWelt false) := by
  refine Effect.of_done ((exec_weltStart hm).trans ?_)
  simp only [hr, hd, State.startWelt, hw, hi, Bool.false_eq_true, if_false, if_true]

/-- Segments from before the last mark are written first (R183, R193 step 1). -/
theorem weltStart_of_dirty {g : Nat} {gs : List Nat} (hm : s.mapUp = true) (hr : s.xlat.run = none) (hd : s.xlat.weltDue = true)
    (hw : s.mustWrite false = g :: gs) :
    Effect .weltStart s ((s.setXlat { s.xlat with run := some (.segments (g :: gs) false) }).writeSegments ((g :: gs).take 4)) := by
  refine Effect.of_done ((exec_weltStart hm).trans ?_)
  simp only [hr, hd, State.startWelt, hw, if_true]

theorem weltStart_of_not_due (hr : s.xlat.run = none) (hd : s.xlat.weltDue = false) : Effect .weltStart s s := by
  refine Effect.of_done (congrArg s.done ?_)
  simp only [hr, hd, Bool.false_eq_true, if_false, ite_self]

theorem weltStart_of_image {er : List Nat} {st : Tab (Nat × Nat)} (hm : s.mapUp = true) (hr : s.xlat.run = some (.image w er st)) :
    Effect .weltStart s (s.resumeWelt er st) := by
  refine Effect.of_done ((exec_weltStart hm).trans ?_)
  simp only [hr]

/-! ### The mark (R193 steps 2 to 4) -/

/-- The mark puts its copy of the map under way, into the set whose welt leaves; the erases that it asks for change nothing more of the
translation. -/
theorem State.markWelt_xlat (s : State) (clean : Bool) : (s.markWelt clean).xlat =
    { (s.append (.weltMark (s.xlat.weltSeq + 1) (flag (s.captureWelt s.nextRseq clean).setB))).xlat with
        run := some (.image (s.captureWelt s.nextRseq clean) (weltBlocks (s.captureWelt s.nextRseq clean).setB)
          ((List.range 16).map (fun ch => (dieKey ch 0, (ch % 8, 0))))),
        welts := (s.append (.weltMark (s.xlat.weltSeq + 1) (flag (s.captureWelt s.nextRseq clean).setB))).xlat.welts.filter
          (fun x => x.setB != (s.captureWelt s.nextRseq clean).setB),
        markRseq := s.nextRseq, sinceMark := 0, weltDue := false } :=
  State.spawnSystemErases_xlat _ _ _

/-- The set of a welt is not that of the newest one (R191). -/
theorem State.captureWelt_setB {y : Welt} (h : s.newestWelt = some y) (rseq : Nat) (clean : Bool) :
    (s.captureWelt rseq clean).setB = !y.setB := by
  simp only [State.captureWelt, h]

theorem State.markWelt_image (s : State) : ∃ x, (s.markWelt false).xlat.run = some (.image x (weltBlocks x.setB)
      ((List.range 16).map (fun ch => (dieKey ch 0, (ch % 8, 0))))) ∧ x.seq = s.xlat.weltSeq + 1 ∧ x.clean = false ∧ x.markRseq = s.nextRseq ∧
    (s.markWelt false).xlat.weltDue = false ∧ (s.markWelt false).xlat.markRseq = s.nextRseq ∧
    (∀ y ∈ (s.markWelt false).xlat.welts, y.setB ≠ x.setB) ∧ ∀ y, s.newestWelt = some y → x.setB = !y.setB := by
  rw [s.markWelt_xlat false]
  refine ⟨s.captureWelt s.nextRseq false, rfl, rfl, rfl, rfl, rfl, rfl, fun y hy => ?_, fun y hy => State.captureWelt_setB hy _ _⟩
  simpa using (List.mem_filter.mp hy).2

/-! ### Triggers (R192) -/

theorem weltPeriodExpiry_of_idle (hm : s.mapUp = true) (hr : s.xlat.run = none) :
    Effect .weltPeriodExpiry s (s.setXlat { s.xlat with weltDue := true }) :=
  Effect.of_done (congrArg s.done (if_pos (by simp [hm, hr])))

theorem weltPeriodExpiry_of_run (hr : s.xlat.run ≠ none) : Effect .weltPeriodExpiry s s :=
  Effect.of_done (congrArg s.done (if_neg (by simp [hr])))

/-- WELT_NOW makes a welt due, and the register keeps the bits that are its own (Table 5.10). -/
theorem weltNow_of_open {v : Word} (hb : s.barOpen = true) (hm : s.mapUp = true) (hv : v.getLsbD 8 = true) :
    Answers (.weltNow v) s (fun t => t.xlat.weltDue = true ∧ t.reg rXlatCtrl = v.toNat % 4 + bits v.toNat 9 1 * 512) := by
  have hlt : v.toNat % 4 + bits v.toNat 9 1 * 512 < 2 ^ 32 := by
    unfold bits
    omega
  have hm' : (s.setReg rXlatCtrl (v.toNat % 4 + bits v.toNat 9 1 * 512)).mapUp = true := hm
  have he : s.writeXlatCtrl v.toNat = (s.setReg rXlatCtrl (v.toNat % 4 + bits v.toNat 9 1 * 512)).setXlat { s.xlat with weltDue := true } :=
    if_pos (by rw [bit_toNat, hv, hm']; rfl)
  refine Answers.of_done (congrArg s.done (if_pos hb)) fun t ht => ?_
  rw [he] at ht
  refine ⟨congrArg Xlat.weltDue ht.xlat, (ht.reg rXlatCtrl (by decide)).trans ?_⟩
  exact (State.reg_setReg s _ _ _).trans ((if_pos rfl).trans (Nat.mod_eq_of_lt hlt))

/-! ### The end of a welt (R193 step 6) -/

theorem State.saveWall_xlat (s : State) : s.saveWall.xlat = s.xlat := by
  unfold State.saveWall
  split
  · rfl
  · rfl

theorem State.endWelt_welts (s : State) (w : Welt) :
    (s.endWelt w).xlat.run = none ∧ (s.endWelt w).xlat.weltSeq = w.seq ∧ w ∈ (s.endWelt w).xlat.welts := by
  unfold State.endWelt
  extract_lets s1 x
  obtain ⟨hrun, hwelts, hseq⟩ := State.closePage_welts (s1.setXlat
    { x with welts := x.welts ++ [w], weltSeq := w.seq, run := none, weltDue := decide (s1.weltMib * 2 ^ 20 ≤ 32 * x.sinceMark) || s1.pressure })
  rw [State.saveWall_xlat, hrun, hwelts, hseq]
  exact ⟨rfl, rfl, List.mem_append_right _ (List.mem_singleton.mpr rfl)⟩

theorem weltDone_of_programmed (hm : s.mapUp = true) (hr : s.xlat.run = some (.image w [] [])) : Effect .weltDone s (s.endWelt w) := by
  have e : exec .weltDone s = execWeltDone s := rfl
  exact Effect.of_done (by simp only [e, execWeltDone, hr, hm, if_true])

theorem weltDone_of_none (hr : s.xlat.run = none) : Effect .weltDone s s := by
  have e : exec .weltDone s = execWeltDone s := rfl
  exact Effect.of_done (by simp only [e, execWeltDone, hr])

theorem weltDone_of_unfinished {er : List Nat} {st : Tab (Nat × Nat)} (hr : s.xlat.run = some (.image w er st)) (h : ¬ (er = [] ∧ st = [])) :
    Effect .weltDone s s := by
  have e : exec .weltDone s = execWeltDone s := rfl
  refine Effect.of_done ?_
  simp only [e, execWeltDone, hr]
  cases er with
  | nil =>
    cases st with
    | nil => exact absurd ⟨rfl, rfl⟩ h
    | cons => rfl
  | cons => rfl

end

/-- Settles O50: each row by its own branch, the mark by the copy that it puts under way, the end by the close of its page. -/
theorem weltRows : Obligations.WeltRows := by
  intro v s w
  exact ⟨weltStart_of_written, fun _ _ => weltStart_of_dirty, weltStart_of_not_due, fun _ _ => weltStart_of_image, s.markWelt_image,
    weltPeriodExpiry_of_idle, weltPeriodExpiry_of_run, fun hm hr => ⟨weltDone_of_programmed hm hr, s.endWelt_welts w⟩, weltDone_of_none,
    fun _ _ => weltDone_of_unfinished, weltNow_of_open⟩

end Sys2Proof.Machine
end

section
/-! SUPPORT. The choice of a welt, brand assessment before SERVING, replay and the writing of the directory: O52. -/

namespace Sys2Proof.Machine

/-! ### The choice of a welt (R195) -/

theorem newestOf_cons_cons (x y : Welt) (ws : List Welt) : newestOf (x :: y :: ws) = newestOf ((if x.seq < y.seq then y else x) :: ws) := by
  unfold newestOf
  simp only [List.foldl_cons]
  split
  · rfl
  · rfl

/-- Among welts there is a newest one, and none has a larger sequence. -/
theorem newestOf_cons_eq_some (x : Welt) (ws : List Welt) :
    ∃ w, newestOf (x :: ws) = some w ∧ w ∈ x :: ws ∧ ∀ y ∈ x :: ws, y.seq ≤ w.seq := by
  induction ws generalizing x with
  | nil => exact ⟨x, rfl, List.mem_singleton.mpr rfl, fun y hy => (congrArg Welt.seq (List.mem_singleton.mp hy)).le⟩
  | cons y ws ih =>
    obtain ⟨w, hw, hmem, hmax⟩ := ih (if x.seq < y.seq then y else x)
    rw [← newestOf_cons_cons] at hw
    have hhead : x.seq ≤ w.seq ∧ y.seq ≤ w.seq := by
      have h := hmax _ List.mem_cons_self
      split at h
      all_goals omega
    refine ⟨w, hw, ?_, fun z hz => ?_⟩
    · split at hmem
      all_goals simp only [List.mem_cons] at hmem ⊢
      all_goals tauto
    · rcases List.mem_cons.mp hz with rfl | hz
      · exact hhead.1
      · rcases List.mem_cons.mp hz with rfl | hz
        · exact hhead.2
        · exact hmax z (List.mem_cons_of_mem _ hz)

theorem newestOf_eq_some {ws : List Welt} {w : Welt} (h : newestOf ws = some w) : w ∈ ws ∧ ∀ x ∈ ws, x.seq ≤ w.seq := by
  cases ws with
  | nil => exact absurd h (Option.some_ne_none w).symm
  | cons x ws =>
    obtain ⟨u, hu, hmem, hmax⟩ := newestOf_cons_eq_some x ws
    obtain rfl : u = w := Option.some.inj (hu.symm.trans h)
    exact ⟨hmem, hmax⟩

theorem eq_nil_of_newestOf {ws : List Welt} (h : newestOf ws = none) : ws = [] := by
  cases ws with
  | nil => rfl
  | cons x ws =>
    obtain ⟨u, hu, _⟩ := newestOf_cons_eq_some x ws
    exact absurd (hu.symm.trans h) (Option.some_ne_none u)

section
variable {s : State} {reads : MountReads}

theorem mountWeltChoice_of_ready (hs : s.dev.state = .mounting) (hb : s.boot.step = .ready) :
    Effect (.mountWeltChoice reads) s (s.chooseWelt reads) :=
  Effect.of_done (congrArg s.done (if_pos ⟨hs, hb⟩))

/-- Without a usable welt the device faults, once no program holds it up (R31, R195). -/
theorem State.chooseWelt_of_none (hblank : s.isBlankDevice = false)
    (hn : (s.xlat.welts.filter (fun x => reads.welts.contains x.seq)).filter (s.setXlat { s.xlat with unread := reads.unread }).usable = [])
    (ha : s.arrayBusy = false) (hf : s.power.faultWait = none) :
    s.chooseWelt reads = (s.setXlat { s.xlat with unread := reads.unread }).enterFault causeNoWelt := by
  have hw : (s.setXlat { s.xlat with unread := reads.unread }).waitFault causeNoWelt =
      (s.setXlat { s.xlat with unread := reads.unread }).enterFault causeNoWelt := by
    have ha' : (s.setXlat { s.xlat with unread := reads.unread }).arrayBusy = false := ha
    simp only [State.waitFault, State.setXlat_power, hf, ha', Option.isSome_none, Bool.false_eq_true, if_false]
  have hnew : newestOf [] = none := rfl
  simp only [State.chooseWelt, hblank, State.setXlat_xlat, hn, hnew, Bool.false_eq_true, if_false]
  exact hw

theorem mountWeltChoice_of_none (hs : s.dev.state = .mounting) (hb : s.boot.step = .ready) (hblank : s.isBlankDevice = false)
    (hl : s.power.pfwLow = false) (ha : s.arrayBusy = false) (hf : s.power.faultWait = none)
    (hn : (s.xlat.welts.filter (fun x => reads.welts.contains x.seq)).filter (s.setXlat { s.xlat with unread := reads.unread }).usable = []) :
    Answers (.mountWeltChoice reads) s (fun t => t.dev.state = .fault) := by
  refine Answers.of_effect (mountWeltChoice_of_ready hs hb) fun t ht => ?_
  have hl' : (s.setXlat { s.xlat with unread := reads.unread }).power.pfwLow = false := hl
  rw [ht.state_eq, State.chooseWelt_of_none hblank hn ha hf, kept_enterFault hl']

/-! ### Pass 1 of brand assessment (R130) -/

theorem exec_brandPass1_of_welt (hs : s.dev.state = .mounting) (hb : s.boot.step = .welt) : exec (.brandPass1 ()) s =
    s.done (if s.firstDies.all (fun k => (s.age k).read) then s.pass1
      else s.firstDies.foldl (fun s k =>
        if (s.age k).read then s else if (s.age k).brandRun.isSome then s.brandOn k else s.brandBegin k) s) :=
  congrArg s.done (if_neg (by simp [hs, hb]))

theorem brandPass1_of_read (hs : s.dev.state = .mounting) (hb : s.boot.step = .welt)
    (hr : s.firstDies.all (fun k => (s.age k).read) = true) : Effect (.brandPass1 ()) s s.pass1 :=
  Effect.of_done ((exec_brandPass1_of_welt hs hb).trans (by rw [if_pos hr]))

/-- The reads of the only first die begin (R125, R130). -/
theorem brandPass1_begins {k : Nat} (hs : s.dev.state = .mounting) (hb : s.boot.step = .welt) (hk : s.firstDies = [k])
    (hn : (s.age k).brandRun = none) (hr : (s.age k).read = false) : Effect (.brandPass1 ()) s (s.brandBegin k) := by
  refine Effect.of_done ((exec_brandPass1_of_welt hs hb).trans ?_)
  simp [hk, hn, hr]

/-! ### Replay and the entry to SERVING (R196, R197) -/

theorem journalReplay_of_chosen {w : Welt} (hs : s.dev.state = .mounting) (hb : s.boot.step = .pass1) (hw : s.xlat.chosen = some w) :
    Effect .journalReplay s (s.replay w) := by
  have e : exec .journalReplay s = execJournalReplay s := rfl
  exact Effect.of_done (by simp only [e, execJournalReplay, hw, hs, hb, and_self, if_true])

theorem journalReplay_of_none (hw : s.xlat.chosen = none) : Effect .journalReplay s s := by
  have e : exec .journalReplay s = execJournalReplay s := rfl
  exact Effect.of_done (by simp only [e, execJournalReplay, hw])

theorem directoryWrite_of_replayed (hs : s.dev.state = .mounting) (hb : s.boot.step = .replayed) (hf : s.power.faultWait = none) :
    Effect .directoryWrite s
      (((s.xlat.dir.filter (fun e => e.2.pinned && e.2.st == .inMedia)).map (fun e => e.1)).foldl State.bringIn s).enterServing.releaseAll :=
  Effect.of_done (congrArg s.done (if_pos ⟨hs, hb, hf⟩))

/-- No row of the mount does anything outside MOUNTING. -/
theorem mount_of_other (h : s.dev.state ≠ .mounting) :
    Effect (.mountWeltChoice reads) s s ∧ Effect (.brandPass1 ()) s s ∧ Effect .directoryWrite s s :=
  ⟨Effect.of_done (congrArg s.done (if_neg fun hc => h hc.1)), Effect.of_done (congrArg s.done (if_pos (.inl h))),
    Effect.of_done (congrArg s.done (if_neg fun hc => h hc.1))⟩

end

/-- Settles O52: the choice by what the newest of a list is, a mount without a welt by the entry to FAULT, and the rows by their own
branches. -/
theorem mountRows : Obligations.MountRows := by
  intro reads ws w s
  exact ⟨newestOf_eq_some, eq_nil_of_newestOf, mountWeltChoice_of_ready, mountWeltChoice_of_none, brandPass1_of_read, fun _ => brandPass1_begins,
    journalReplay_of_chosen, journalReplay_of_none, directoryWrite_of_replayed, mount_of_other⟩

end Sys2Proof.Machine
end

section
/-! SUPPORT. The positions of a new stitch, and the programs of its members and of its parity: O44. -/

namespace Sys2Proof.Machine

/-! ### Positions of a new stitch (R208, R209) -/

section
variable {s : State} {k j d ch : Nat} {taken js : List Nat}

/-- A die that can take a position: it is online and has a free die-block. -/
def State.CanOpen (s : State) (d : Nat) : Prop := (s.ctlOf d).online = true ∧ (s.leastWorn d).isSome = true

/-- The die of a channel that takes a position is a die of that channel that can. -/
theorem State.stitchDie_spec (h : s.stitchDie ch = some d) : d / 8 = ch ∧ s.CanOpen d := by
  refine List.foldlRecOn ((List.range 8).map (fun d => dieKey ch d)) _ (motive := fun best => ∀ d, best = some d → d / 8 = ch ∧ s.CanOpen d)
    (by simp) (fun best ih x hx d hd => ?_) d h
  obtain ⟨i, hi, rfl⟩ := List.mem_map.mp hx
  have hx8 : dieKey ch i / 8 = ch := by
    have hi8 := List.mem_range.mp hi
    unfold dieKey
    omega
  split at hd
  · rename_i hok
    simp only [Bool.and_eq_true] at hok
    obtain ⟨⟨⟨hon, -⟩, -⟩, hfree⟩ := hok
    have hnew : dieKey ch i / 8 = ch ∧ s.CanOpen (dieKey ch i) := ⟨hx8, hon, hfree⟩
    split at hd
    · split at hd
      · exact Option.some.inj hd ▸ hnew
      · exact ih d hd
    · exact Option.some.inj hd ▸ hnew
  · exact ih d hd

/-- A position is placed on a channel that holds none yet, of an octet that holds less than two. -/
theorem State.placePosition_spec (h : s.placePosition k j taken = some d) :
    d / 8 ∉ taken ∧ (taken.filter (fun c => c / 8 == d / 64)).length < 2 ∧ s.CanOpen d := by
  obtain ⟨ch, -, hch⟩ := List.exists_of_findSome?_eq_some h
  split at hch
  · simp at hch
  · rename_i hfree
    obtain ⟨rfl, hopen⟩ := State.stitchDie_spec hch
    simp only [Bool.or_eq_true, List.contains_iff_mem, decide_eq_true_eq, not_or, Nat.not_le, Nat.div_div_eq_div_mul] at hfree
    exact ⟨hfree.1, hfree.2, hopen⟩

/-- A position that finds a die takes its channel; one that finds none is left out. -/
theorem State.placements_cons (s : State) (k j : Nat) (js taken : List Nat) :
    s.placements k (j :: js) taken = s.placements k js taken ∨
    ∃ d, s.placePosition k j taken = some d ∧ s.placements k (j :: js) taken = (j, d) :: s.placements k js (d / 8 :: taken) := by
  cases h : s.placePosition k j taken with
  | none => exact .inl (by simp only [State.placements, h])
  | some d => exact .inr ⟨d, rfl, by simp only [State.placements, h]⟩

theorem State.mem_placements {e : Nat × Nat} (h : e ∈ s.placements k js taken) : e.1 ∈ js ∧ s.CanOpen e.2 := by
  induction js generalizing taken with
  | nil => exact absurd h List.not_mem_nil
  | cons j js ih =>
    have hrest {taken : List Nat} (h : e ∈ s.placements k js taken) : e.1 ∈ j :: js ∧ s.CanOpen e.2 :=
      (ih h).imp_left (List.mem_cons_of_mem j)
    rcases s.placements_cons k j js taken with he | ⟨d, hd, he⟩
    · exact hrest (he ▸ h)
    · rcases List.mem_cons.mp (he ▸ h) with rfl | h
      · exact ⟨List.mem_cons_self, (State.placePosition_spec hd).2.2⟩
      · exact hrest h

/-- No channel takes two positions, or one when it is taken already. -/
theorem State.placements_channels (s : State) (k : Nat) (js taken : List Nat) :
    ((s.placements k js taken).map (fun e => e.2 / 8)).Nodup ∧ ∀ e ∈ s.placements k js taken, e.2 / 8 ∉ taken := by
  induction js generalizing taken with
  | nil => exact ⟨List.nodup_nil, by simp [State.placements]⟩
  | cons j js ih =>
    rcases s.placements_cons k j js taken with he | ⟨d, hd, he⟩
    · exact he ▸ ih taken
    · obtain ⟨hnd, hout⟩ := ih (d / 8 :: taken)
      rw [he]
      refine ⟨List.nodup_cons.mpr ⟨fun hm => ?_, hnd⟩, fun e hm => ?_⟩
      · obtain ⟨e, hm, hch⟩ := List.mem_map.mp hm
        exact hout e hm (hch ▸ List.mem_cons_self)
      · rcases List.mem_cons.mp hm with rfl | hm
        · exact (State.placePosition_spec hd).1
        · exact fun h => hout e hm (List.mem_cons_of_mem _ h)

/-- An octet of which at most two channels are taken takes no more than fill it up to two. -/
theorem State.placements_octet (s : State) (k o : Nat) (js taken : List Nat) (h : (taken.filter (fun c => c / 8 == o)).length ≤ 2) :
    (((s.placements k js taken).map (fun e => e.2 / 64)).filter (fun x => x == o)).length + (taken.filter (fun c => c / 8 == o)).length ≤ 2 := by
  induction js generalizing taken with
  | nil => simpa [State.placements] using h
  | cons j js ih =>
    rcases s.placements_cons k j js taken with he | ⟨d, hd, he⟩
    · exact he ▸ ih taken h
    · have hroom := (State.placePosition_spec hd).2.1
      have hd8 : d / 8 / 8 = d / 64 := Nat.div_div_eq_div_mul d 8 8
      have hih := ih (d / 8 :: taken)
      rw [he]
      by_cases ho : d / 64 = o
      · subst ho
        simp only [List.filter_cons, List.map_cons, hd8, beq_self_eq_true, if_true, List.length_cons] at hih ⊢
        omega
      · simp only [List.filter_cons, List.map_cons, hd8, beq_eq_false_iff_ne.mpr ho, Bool.false_eq_true, if_false] at hih ⊢
        exact hih h

end

/-! ### Forming a stitch (R208, R209, R230) -/

section
variable {s : State} {copy : Bool}

theorem stitchForm_of_open (h : (s.openStitch copy).isSome = true) : Effect (.stitchForm copy) s s :=
  Effect.of_done (if_pos (by simp [h]))

theorem stitchForm_of_unmounted (h : s.mounted = false) : Effect (.stitchForm copy) s s :=
  Effect.of_done (if_pos (by simp [h]))

/-- The first stitch of a block that may form one: with less than eight members, or without P or Q, it is logged; else it takes slot 0 and,
while space is low, its credits (R208, R230). -/
theorem exec_stitchForm_of_first {ps : List (Nat × Nat)} {n : Nat} (hps : s.placements (s.blocks.stitchSeq % 96) (List.range 18) [] = ps)
    (hc : (ps.filter (fun e => decide (e.1 < 16))).length = n) (hm : s.mounted = true) (he : s.engines = true) (hn : s.blocks.stitches = []) :
    exec (.stitchForm copy) s =
      if n < 8 || !(ps.any (fun e => e.1 == 16)) || !(ps.any (fun e => e.1 == 17)) then
        s.done (s.event portCore 0x0601 s.devicePath (le 8 s.blocks.stitchSeq ++ le 1 ps.length))
      else if !copy && s.dev.spaceLow && s.dev.state != .cinch && decide (s.blocks.credits < n) then s.done s
      else s.done (ps.foldl (fun s e => s.openPosition 0 copy e.1 e.2) (s.setBlocks { s.blocks with
        stitchSeq := s.blocks.stitchSeq + 1
        credits := s.blocks.credits - if !copy && s.dev.spaceLow && s.dev.state != .cinch then n else 0
        stitches := [(0, { Stitch.init with seq := s.blocks.stitchSeq, copy := copy })] })).checkSpace := by
  subst hps hc
  have e : exec (.stitchForm copy) s = execStitchForm copy s := rfl
  have ho : s.openStitch copy = none := by simp [State.openStitch, hn]
  have hfree : firstFree ([] : Tab Stitch) 0 47 = some 0 := rfl
  have hroom : (!copy && decide (40 ≤ 0)) = false := Bool.and_false _
  simp only [e, execStitchForm, hm, he, ho, hn, hfree, hroom, Tab.put, List.filter_nil, List.length_nil, Option.isSome_none, Bool.not_true,
    Bool.and_false, Bool.or_false, Bool.false_eq_true, if_false]

section
variable {ps : List (Nat × Nat)} (hps : s.placements (s.blocks.stitchSeq % 96) (List.range 18) [] = ps)
  (hm : s.mounted = true) (he : s.engines = true) (hn : s.blocks.stitches = [])
include hps hm he hn

theorem stitchForm_of_few (h : (ps.filter (fun e => decide (e.1 < 16))).length < 8) :
    Effect (.stitchForm copy) s (s.event portCore 0x0601 s.devicePath (le 8 s.blocks.stitchSeq ++ le 1 ps.length)) :=
  Effect.of_done ((exec_stitchForm_of_first hps rfl hm he hn).trans (if_pos (by simp [h])))

theorem stitchForm_of_enough (h : 8 ≤ (ps.filter (fun e => decide (e.1 < 16))).length) (hp : ps.any (fun e => e.1 == 16) = true)
    (hq : ps.any (fun e => e.1 == 17) = true) (hl : s.dev.spaceLow = false) :
    Effect (.stitchForm copy) s (ps.foldl (fun s e => s.openPosition 0 copy e.1 e.2) (s.setBlocks { s.blocks with
      stitchSeq := s.blocks.stitchSeq + 1, stitches := [(0, { Stitch.init with seq := s.blocks.stitchSeq, copy := copy })] })).checkSpace := by
  refine Effect.of_done ((exec_stitchForm_of_first hps rfl hm he hn).trans ?_)
  simp only [hp, hq, hl, decide_eq_false (Nat.not_lt.mpr h), Bool.not_true, Bool.or_self, Bool.and_false, Bool.false_and, Bool.false_eq_true,
    if_false, Nat.sub_zero]

end

end

/-! ### Programs of members and of parity (R210, R211) -/

section
variable {s : State} {i : Fin 48} {m : Fin 16} {x : Stitch} {row : Nat}

theorem memberProgram_of_mayTake (h : s.mayTake i m 32 = true) : Effect (.memberProgram i m) s (s.takeLeaves i m) :=
  Effect.of_done (congrArg s.done (if_pos h))

theorem memberProgram_of_not_mayTake (h : s.mayTake i m 32 = false) : Effect (.memberProgram i m) s s :=
  Effect.of_done (congrArg s.done (if_neg (by simp [h])))

theorem padTimeout_of_mayTake (h : s.mayTake i m 1 = true) : Effect (.padTimeout i m) s (s.takeLeaves i m) :=
  Effect.of_done (congrArg s.done (if_pos h))

theorem padTimeout_of_not_mayTake (h : s.mayTake i m 1 = false) : Effect (.padTimeout i m) s s :=
  Effect.of_done (congrArg s.done (if_neg (by simp [h])))

theorem parityRowProgram_of_complete (hx : Tab.find s.blocks.stitches i.val = some x) (hm : s.mounted = true) (hf : x.st = .filling)
    (hr : s.nextRow i x = some row) (hp : x.pLost = false) (hq : x.qLost = false) :
    Effect (.parityRowProgram i) s ((s.programParity i x row false).programParity i x row true) := by
  have e : exec (.parityRowProgram i) s = execParityRowProgram i s := rfl
  have hc : (s.mounted && x.st == .filling) = true := by simp [hm, hf]
  exact Effect.of_done (by simp only [e, execParityRowProgram, hx, hc, hr, hp, hq, Bool.false_eq_true, if_false, if_true])

theorem parityRowProgram_of_none (h : Tab.find s.blocks.stitches i.val = none) : Effect (.parityRowProgram i) s s := by
  have e : exec (.parityRowProgram i) s = execParityRowProgram i s := rfl
  exact Effect.of_done (by simp only [e, execParityRowProgram, h])

end

/-- Settles O44: the positions by induction over them, with the channels taken before; the rows by their own branches. -/
theorem stitchFilling : Obligations.StitchFilling := by
  refine ⟨fun s k js => ⟨(s.placements_channels k js []).1, fun o => s.placements_octet k o js [] (by simp), fun e he => State.mem_placements he⟩,
    fun copy i m s => ⟨stitchForm_of_open, stitchForm_of_unmounted, fun ps hps hm he _ hn =>
      ⟨stitchForm_of_few hps hm he hn, stitchForm_of_enough hps hm he hn⟩, memberProgram_of_mayTake, memberProgram_of_not_mayTake,
      padTimeout_of_mayTake, padTimeout_of_not_mayTake, fun x row => parityRowProgram_of_complete, parityRowProgram_of_none⟩⟩

end Sys2Proof.Machine
end

section
/-! SUPPORT. Burnishing of members: O45. -/

namespace Sys2Proof.Machine

section
variable {s s1 : State} {i : Fin 48} {m : Fin 16} {x : Stitch} {db : Nat} {run : ReadRun}

/-! ### The reads of a member (R216) -/

theorem burnishMember_of_next (hx : Tab.find s.blocks.stitches i.val = some x) (hdb : Tab.find x.positions m.val = some db)
    (he : s.engines = true) (hk : s.burnishOrder.head? = some (burnishKey i m))
    (hr : { db := db, toRead := s.codewordsIn db (x.next m) (fun _ => List.range 8), waiting := [], bad := 0 } = run)
    (h1 : s.setBlocks { s.blocks with
      burnishing := Tab.put s.blocks.burnishing (burnishKey i m) run
      burnishFirst := s.blocks.burnishFirst.filter (fun j => j != burnishKey i m)
      stitches := Tab.change s.blocks.stitches i.val (fun x => if x.st = .closed then { x with st := .burnishing } else x) } = s1) :
    Effect (.burnishMember i m) s (s1.burnishOn (burnishKey i m)) := by
  subst hr h1
  have e : exec (.burnishMember i m) s = execBurnishMember i m s := rfl
  have hg : Tab.get s.blocks.stitches i.val Stitch.init = x := congrArg (·.getD Stitch.init) hx
  exact Effect.of_done (by simp only [e, execBurnishMember, he, hk, hg, hdb, and_self, if_true])

theorem burnishMember_of_other (he : s.engines = true) (hk : s.burnishOrder.head? ≠ some (burnishKey i m)) :
    Effect (.burnishMember i m) s (s.burnishOn (burnishKey i m)) :=
  Effect.of_done ((if_neg fun h => hk h.2).trans (congrArg s.done (if_pos he)))

theorem burnishMember_of_stopped (he : s.engines = false) : Effect (.burnishMember i m) s s :=
  Effect.of_done ((if_neg (by simp [he])).trans (congrArg s.done (if_neg (by simp [he]))))

/-! ### The result of a member (R216, R217) -/

theorem burnishResult_of_none (h : Tab.find s.blocks.burnishing (burnishKey i m) = none) : Effect (.burnishResult i m () ()) s s := by
  have e : exec (.burnishResult i m () ()) s = execBurnishResult i m () () s := rfl
  exact Effect.of_done (by simp only [e, execBurnishResult, h])

section
variable (hx : Tab.find s.blocks.stitches i.val = some x) (hdb : Tab.find x.positions m.val = some db)
  (hr : Tab.find s.blocks.burnishing (burnishKey i m) = some run)
include hx hdb hr

/-- Reads that have not all ended go on; when they have, the planes on which one failed decide. -/
theorem exec_burnishResult_of_run (h1 : s.setBlocks { s.blocks with burnishing := Tab.del s.blocks.burnishing (burnishKey i m) } = s1) :
    exec (.burnishResult i m () ()) s =
      if !run.over then s.done (if s.engines then s.burnishOn (burnishKey i m) else s)
      else if (planesOf run.bad).isEmpty then s.done ((((s1.updDb db (fun r => { r with st := if r.st = .closed then .burnished else r.st })).setStitch i
        { x with passMask := x.passMask ||| BitVec.ofNat 16 (2 ^ m.val) }).append (.block 4 (dbDie db) (dbBlock db) 15 0 [])).releaseIf i)
      else s.done (((planesOf run.bad).foldl (fun s q => s.updPb (s.serving db q) (fun r =>
        { (r.setFlag pbBurnishFail) with reason := if r.reason = 0 then 3 else r.reason })) s1).force db (planesOf run.bad)) := by
  subst h1
  have e : exec (.burnishResult i m () ()) s = execBurnishResult i m () () s := rfl
  have hg : Tab.get s.blocks.stitches i.val Stitch.init = x := congrArg (·.getD Stitch.init) hx
  simp only [e, execBurnishResult, hr, hg, hdb]

theorem burnishResult_of_reading (ho : run.over = false) (he : s.engines = true) :
    Effect (.burnishResult i m () ()) s (s.burnishOn (burnishKey i m)) :=
  Effect.of_done ((exec_burnishResult_of_run hx hdb hr rfl).trans ((if_pos (by simp [ho])).trans (congrArg s.done (if_pos he))))

section
variable (ho : run.over = true) (h1 : s.setBlocks { s.blocks with burnishing := Tab.del s.blocks.burnishing (burnishKey i m) } = s1)
include ho h1

theorem burnishResult_of_pass (hb : planesOf run.bad = []) : Effect (.burnishResult i m () ()) s
    ((((s1.updDb db (fun r => { r with st := if r.st = .closed then .burnished else r.st })).setStitch i
      { x with passMask := x.passMask ||| BitVec.ofNat 16 (2 ^ m.val) }).append (.block 4 (dbDie db) (dbBlock db) 15 0 [])).releaseIf i) :=
  Effect.of_done ((exec_burnishResult_of_run hx hdb hr h1).trans ((if_neg (by simp [ho])).trans (if_pos (by simp [hb]))))

theorem burnishResult_of_fail (hb : planesOf run.bad ≠ []) : Effect (.burnishResult i m () ()) s
    (((planesOf run.bad).foldl (fun s q => s.updPb (s.serving db q) (fun r =>
      { (r.setFlag pbBurnishFail) with reason := if r.reason = 0 then 3 else r.reason })) s1).force db (planesOf run.bad)) :=
  Effect.of_done ((exec_burnishResult_of_run hx hdb hr h1).trans ((if_neg (by simp [ho])).trans (if_neg (by simp [hb]))))

end

end

end

/-- Settles O45: each row by its own branch, the result by whether the reads have ended and on which planes one failed. -/
theorem burnishRows : Obligations.BurnishRows := by
  intro i m db s s1 x run hx hdb
  exact ⟨burnishMember_of_next hx hdb, burnishMember_of_other, burnishMember_of_stopped, burnishResult_of_none, fun hr =>
    ⟨burnishResult_of_reading hx hdb hr, fun ho h1 => ⟨burnishResult_of_pass hx hdb hr ho h1, burnishResult_of_fail hx hdb hr ho h1⟩⟩⟩

end Sys2Proof.Machine
end

section
/-! SUPPORT. What births, the journal, segments and accesses to the map leave of the block tables, and of whether the skiver runs. -/

namespace Sys2Proof.Machine

/-- What every step of a fold leaves as it is, the fold leaves as it is. -/
theorem State.foldl_keeps {α β : Type} (v : State → β) {f : State → α → State} (hf : ∀ s a, v (f s a) = v s) (s : State) (l : List α) :
    v (l.foldl f s) = v s :=
  List.foldlRecOn l f (motive := fun t => v t = v s) rfl fun t ih a _ => (hf t a).trans ih

/-- What both branches leave as it is, the choice leaves as it is. -/
theorem State.ite_keeps {β : Type} (v : State → β) {c : Prop} [Decidable c] {a b : State} {x : β} (ha : v a = x) (hb : v b = x) :
    v (if c then a else b) = x := by
  split
  · exact ha
  · exact hb

section
variable (s : State)

/-! ### The block tables -/

@[simp] theorem State.bump_blocks (off lo w k : Nat) : (s.bump off lo w k).blocks = s.blocks := rfl
@[simp] theorem State.setEntry_blocks (g : Nat) (e : DirEntry) : (s.setEntry g e).blocks = s.blocks := rfl
@[simp] theorem State.save_blocks (id : Nat) (p : List Byte) : (s.save id p).blocks = s.blocks := rfl
@[simp] theorem State.updLife_blocks (k : Nat) (f : Life → Life) : (s.updLife k f).blocks = s.blocks := rfl
@[simp] theorem State.voidWritebacks_blocks (first n : Nat) : (s.voidWritebacks first n).blocks = s.blocks := rfl
@[simp] theorem State.count_blocks (code : Nat) (t : Tag) (isT : Bool) : (s.count code t isT).blocks = s.blocks := (s.observed_count _ _ _).blocks

@[simp] theorem State.event_blocks (port code path : Nat) (params : List Byte) (tack : Nat) :
    (s.event port code path params tack).blocks = s.blocks := by
  unfold State.event
  dsimp only
  split
  · rfl
  · rfl

theorem State.blocks_of_birth {s t : State} {x : Tack} {ch o : Option Nat} (h : s.birth x ch = (t, o)) : t.blocks = s.blocks :=
  (s.observed_of_birth h).blocks

@[simp] theorem State.ask_blocks (t : Tack) : (s.ask t).1.blocks = s.blocks := by
  unfold State.ask
  split
  · rename_i h
    have hb := State.blocks_of_birth h
    exact hb
  · rename_i h
    have hb := State.blocks_of_birth h
    exact hb

@[simp] theorem State.spawnProgram_blocks (op : TackOp) (e : BitVec 12) (rein : Option Rein) (db page : Nat) (cws : Tab PageCw) (what : ProgFor) :
    (s.spawnProgram op e rein db page cws what).1.blocks = s.blocks := s.ask_blocks _

@[simp] theorem State.writeJournal_blocks (p : JPage) (second : Bool) : (s.writeJournal p second).blocks = s.blocks := by
  simp [State.writeJournal]

@[simp] theorem State.closePage_blocks : s.closePage.blocks = s.blocks := by
  simp only [State.closePage]
  repeat' split
  all_goals simp

@[simp] theorem State.append_blocks (r : JRec) : (s.append r).blocks = s.blocks := by
  simp only [State.append]
  split
  · simp
  · rfl

@[simp] theorem State.checkSpace_blocks : s.checkSpace.blocks = s.blocks := by
  unfold State.checkSpace
  refine State.ite_keeps State.blocks rfl ?_
  extract_lets f d u
  have hu : u.blocks = s.blocks := State.ite_keeps State.blocks (by simp) (State.ite_keeps State.blocks rfl rfl)
  exact State.ite_keeps State.blocks (by simp [State.enterReadOnly, hu]) hu

@[simp] theorem State.evict_blocks (k : Nat) : (s.evict k).blocks = s.blocks := by
  unfold State.evict
  split
  · rfl
  · rfl

@[simp] theorem State.segRoom_blocks (g : Nat) : (s.segRoom g).1.blocks = s.blocks := by
  unfold State.segRoom
  repeat' split
  all_goals simp

theorem State.blocks_of_segRoom {s t : State} {g : Nat} {o : Option Nat} (h : s.segRoom g = (t, o)) : t.blocks = s.blocks := by
  simpa [h] using s.segRoom_blocks g

@[simp] theorem State.bringIn_blocks (g : Nat) : (s.bringIn g).blocks = s.blocks := by
  simp only [State.bringIn]
  split
  · rfl
  · split
    · rename_i h
      have hr := State.blocks_of_segRoom h
      exact hr
    · rename_i h
      exact State.blocks_of_segRoom h

@[simp] theorem State.setLeaf_blocks (leaf rseq : Nat) (f : LeafEntry → LeafEntry) : (s.setLeaf leaf rseq f).blocks = s.blocks := by
  simp only [State.setLeaf]
  split
  all_goals simp

@[simp] theorem State.dropSegment_blocks (g rseq : Nat) : (s.dropSegment g rseq).blocks = s.blocks := by
  simp only [State.dropSegment]
  split
  · rfl
  · rfl

@[simp] theorem State.enterHoles_blocks (h : Hole) : (s.enterHoles h).blocks = s.blocks := by
  refine State.foldl_keeps State.blocks (fun s h => ?_) s _
  unfold State.enterHole
  repeat' split
  all_goals rfl

@[simp] theorem State.keepCommits_blocks (p : Commit → Bool) : (s.keepCommits p).blocks = s.blocks := by
  refine (State.foldl_keeps State.blocks (fun s o => ?_) _ _).trans (State.setCache_blocks s _)
  split
  · rfl
  · rfl

@[simp] theorem State.dropLine_blocks (k : Nat) : (s.dropLine k).blocks = s.blocks := by
  unfold State.dropLine State.dropCommits
  repeat' split
  all_goals simp

@[simp] theorem State.dropStale_blocks (leaf : Nat) : (s.dropStale leaf).blocks = s.blocks := by
  unfold State.dropStale
  repeat' split
  all_goals simp

@[simp] theorem State.spawnSegRead_blocks (g : Nat) (host : Bool) (parent cmd : Option Nat) :
    (s.spawnSegRead g host parent cmd).blocks = s.blocks := by
  unfold State.spawnSegRead
  split
  · rfl
  · split
    · rfl
    · rename_i u slot hroom
      dsimp only
      split
      · rename_i hb
        have hv := (State.blocks_of_birth hb).trans (State.blocks_of_segRoom hroom)
        split
        · simp [hv]
        · exact hv
      · rename_i hb
        exact (State.blocks_of_birth hb).trans (State.blocks_of_segRoom hroom)

@[simp] theorem State.lookFor_blocks (a : MediaAddr) (gs : List Nat) : (s.lookFor a gs).1.blocks = s.blocks := by
  induction gs with
  | nil => rfl
  | cons g gs ih =>
    unfold State.lookFor
    split
    · dsimp only
      split
      · rfl
      · simp
    · split
      · rfl
      · exact ih

theorem State.blocks_of_lookFor {s t : State} {a : MediaAddr} {gs r : List Nat} {o : Option Nat} (h : s.lookFor a gs = (t, o, r)) :
    t.blocks = s.blocks := by
  simpa [h] using s.lookFor_blocks a gs

@[simp] theorem State.logLost_blocks (k : Nat) (a : MediaAddr) (leaf : Option Nat) : (s.logLost k a leaf).blocks = s.blocks := s.event_blocks _ _ _ _ _

@[simp] theorem State.closeFill_blocks (db : Nat) : (s.closeFill db).blocks = s.blocks := by
  unfold State.closeFill
  repeat' split
  all_goals simp

/-! ### Whether the skiver runs (R219) -/

@[simp] theorem State.updPb_skiving (k : Nat) (f : PbRec → PbRec) : (s.updPb k f).blocks.skiving = s.blocks.skiving := rfl

@[simp] theorem State.updDb_skiving (db : Nat) (f : PbRec → PbRec) : (s.updDb db f).blocks.skiving = s.blocks.skiving :=
  State.foldl_keeps (fun s => s.blocks.skiving) (fun s k => s.updPb_skiving k f) s _

@[simp] theorem State.recount_skiving (db : Nat) : (s.recount db).blocks.skiving = s.blocks.skiving :=
  State.foldl_keeps (fun s => s.blocks.skiving) (fun s k => s.updPb_skiving k _) s _

@[simp] theorem State.eraseNow_skiving (ks : List Nat) (f : PbRec → PbRec) : (s.eraseNow ks f).blocks.skiving = s.blocks.skiving :=
  State.foldl_keeps (fun s => s.blocks.skiving) (fun s k => by simp) (s.eraseCells ks) ks

@[simp] theorem State.takeBlank_skiving (db : Nat) : (s.takeBlank db).blocks.skiving = s.blocks.skiving := by
  unfold State.takeBlank
  split
  · rfl
  · simp

@[simp] theorem State.unmapOld_skiving (e : LeafEntry) : (s.unmapOld e).blocks.skiving = s.blocks.skiving := by
  unfold State.unmapOld
  split
  · rfl
  · rfl

@[simp] theorem State.leafState_skiving (st : LeafSt) (first n reason : Nat) (hole : Bool) :
    (s.leafState st first n reason hole).blocks.skiving = s.blocks.skiving := by
  unfold State.leafState
  extract_lets g ctx rseq s1 s2 lo ls s3
  have h1 : s1.blocks = s.blocks := by
    unfold s1
    split
    · rfl
    · simp
  have h3 : s3.blocks.skiving = s2.blocks.skiving := State.foldl_keeps (fun s => s.blocks.skiving) (fun s i => by simp) s2 ls
  rw [State.voidWritebacks_blocks, h3, State.append_blocks, h1]

@[simp] theorem State.poisonLeaf_skiving (leaf reason : Nat) (at' : Option MediaAddr) :
    (s.poisonLeaf leaf reason at').blocks.skiving = s.blocks.skiving := by
  simp only [State.poisonLeaf, State.poisonNow]
  repeat' split
  all_goals simp

@[simp] theorem State.loseLeaf_skiving (a : MediaAddr) (leaf reason : Nat) : (s.loseLeaf a leaf reason).blocks.skiving = s.blocks.skiving := by
  simp [State.loseLeaf, State.holedOn]

@[simp] theorem State.endSearch_skiving (x : Search) (leaf : Option Nat) : (s.endSearch x leaf).blocks.skiving = s.blocks.skiving := by
  simp only [State.endSearch, State.setBlocks_blocks]
  repeat' split
  all_goals simp

@[simp] theorem State.searchOn_skiving : s.searchOn.blocks.skiving = s.blocks.skiving := by
  refine State.foldl_keeps (fun s => s.blocks.skiving) (fun s x => ?_) s _
  split
  · rename_i h
    have hb := State.blocks_of_lookFor h
    exact congrArg Blocks.skiving hb
  · rename_i h
    simp [State.blocks_of_lookFor h]

/-! ### The segment writer, and the jobs -/

@[simp] theorem State.mapPage_skiving (d : Nat) : (s.mapPage d).1.blocks.skiving = s.blocks.skiving := by
  unfold State.mapPage
  repeat' split
  all_goals simp

theorem State.skiving_of_mapPage {s t : State} {d : Nat} {o : Option (Nat × Nat)} (h : s.mapPage d = (t, o)) :
    t.blocks.skiving = s.blocks.skiving := by
  simpa [h] using s.mapPage_skiving d

@[simp] theorem State.writeImages_skiving (is : List SegImage) (second : Bool) (o : Option Nat) :
    (s.writeImages is second o).1.blocks.skiving = s.blocks.skiving := by
  unfold State.writeImages
  split
  · rfl
  · split
    · rename_i h
      simp [State.skiving_of_mapPage h]
    · rename_i h
      exact State.skiving_of_mapPage h

theorem State.skiving_of_writeImages {s t : State} {is : List SegImage} {second : Bool} {o : Option Nat} {p : Option (Nat × Nat)}
    (h : s.writeImages is second o = (t, p)) : t.blocks.skiving = s.blocks.skiving := by
  simpa [h] using s.writeImages_skiving is second o

@[simp] theorem State.writeSegments_skiving (gs : List Nat) : (s.writeSegments gs).blocks.skiving = s.blocks.skiving := by
  have hdrop (l : List Nat) : (l.foldl (fun s g => (s.append (.segLoc (s.entry g).ctx g 0 0 s.nextRseq true)).dropSegment g s.nextRseq) s).blocks =
      s.blocks := State.foldl_keeps State.blocks (fun s g => by simp) s l
  unfold State.writeSegments
  dsimp only
  split
  · exact congrArg Blocks.skiving (hdrop _)
  · split
    · rename_i h
      exact (State.skiving_of_writeImages h).trans (congrArg Blocks.skiving (hdrop _))
    · rename_i hA
      have hA' := (State.skiving_of_writeImages hA).trans (congrArg Blocks.skiving (hdrop _))
      split
      · rename_i hB
        exact (State.skiving_of_writeImages hB).trans hA'
      · rename_i hB
        refine (State.foldl_keeps (fun s => s.blocks.skiving) (fun s e => ?_) _ _).trans ((State.skiving_of_writeImages hB).trans hA')
        split
        · rfl
        · rfl

@[simp] theorem State.pumpImages_skiving (j : Job) : (s.pumpImages j).blocks.skiving = s.blocks.skiving := by
  refine State.foldl_keeps (fun s => s.blocks.skiving) (fun s g => ?_) s _
  repeat' split
  all_goals simp

@[simp] theorem State.pumpJob_blocks (j : Job) (n : Nat) : (s.pumpJob j n).1.blocks = s.blocks := by
  induction n generalizing s j with
  | zero => rfl
  | succ n ih =>
    unfold State.pumpJob
    split
    · rfl
    · split
      · rfl
      · split
        · rename_i h
          exact (ih _ _).trans (State.blocks_of_birth h)
        · rfl

theorem State.blocks_of_pumpJob {s t : State} {j i : Job} {n : Nat} (h : s.pumpJob j n = (t, i)) : t.blocks = s.blocks := by
  simpa [h] using s.pumpJob_blocks j n

@[simp] theorem State.pumpJobs_skiving : s.pumpJobs.blocks.skiving = s.blocks.skiving := by
  unfold State.pumpJobs
  refine (State.foldl_keeps (fun s => s.blocks.skiving) (fun s j => ?_) _ _).trans
    ((State.foldl_keeps (fun s => s.blocks.skiving) State.pumpImages_skiving _ _).trans s.searchOn_skiving)
  split
  rename_i h
  have hs := congrArg Blocks.skiving (State.blocks_of_pumpJob h)
  exact hs

@[simp] theorem State.startJob_skiving (db : Nat) (refresh : Bool) : (s.startJob db refresh).blocks.skiving = s.blocks.skiving := by
  unfold State.startJob
  dsimp only
  split
  · simp
  · simp

end

end Sys2Proof.Machine
end

section
/-! SUPPORT. The skiver, its copies, refresh and the erases of what they empty: O46. -/

namespace Sys2Proof.Machine

section
variable {s s1 : State} {slot m db : Nat} {x : Stitch} {j : Job}

/-! ### The skiver runs and stops (R219) -/

/-- Whether the skiver runs after a look at the free count: from below SKV_START until SKV_STOP. -/
def State.skiverRuns (s : State) : Bool := if s.spaceFree < s.skvStart then true else if s.skvStop ≤ s.spaceFree then false else s.blocks.skiving

/-- The state in which the skiver looks for its next victim. -/
def State.skiverSet (s : State) : State := s.setBlocks { s.blocks with skiving := s.skiverRuns }

theorem exec_skiverVictimSelect_of_victim (he : s.engines = true) (hv : s.skiverSet.nextVictim = some db) :
    exec .skiverVictimSelect s = s.done ((s.skiverSet.startJob db false).pumpJobs) := by
  have e : exec .skiverVictimSelect s = execSkiverVictimSelect s := rfl
  unfold State.skiverSet State.skiverRuns at hv ⊢
  simp only [e, execSkiverVictimSelect, he, hv, Bool.not_true, Bool.false_eq_true, if_false]

theorem exec_skiverVictimSelect_of_no_victim (he : s.engines = true) (hv : s.skiverSet.nextVictim = none) :
    exec .skiverVictimSelect s = s.done s.skiverSet.pumpJobs := by
  have e : exec .skiverVictimSelect s = execSkiverVictimSelect s := rfl
  unfold State.skiverSet State.skiverRuns at hv ⊢
  simp only [e, execSkiverVictimSelect, he, hv, Bool.not_true, Bool.false_eq_true, if_false]

theorem skiverVictimSelect_of_engines (he : s.engines = true) :
    Answers .skiverVictimSelect s (fun t => t.blocks.skiving = s.skiverRuns) := by
  have hset : s.skiverSet.blocks.skiving = s.skiverRuns := rfl
  cases hv : s.skiverSet.nextVictim with
  | none =>
    refine Answers.of_done (exec_skiverVictimSelect_of_no_victim he hv) fun t ht => ?_
    rw [ht.blocks, State.pumpJobs_skiving, hset]
  | some db =>
    refine Answers.of_done (exec_skiverVictimSelect_of_victim he hv) fun t ht => ?_
    rw [ht.blocks, State.pumpJobs_skiving, State.startJob_skiving, hset]

/-- Nothing of block life goes on while the engines stand. -/
theorem blockLife_of_stopped (he : s.engines = false) {c : Instr} (hc : c ∈ [Instr.skiverVictimSelect, .skiverCopyProgram, .victimErase, .refreshJob]) :
    Effect c s s := by
  have hcopy : exec .skiverCopyProgram s = execSkiverCopyProgram s := rfl
  have herase : exec .victimErase s = execVictimErase s := rfl
  have hrefresh : exec .refreshJob s = execRefreshJob s := rfl
  simp only [List.mem_cons, List.not_mem_nil, or_false] at hc
  rcases hc with rfl | rfl | rfl | rfl
  · exact Effect.of_done (if_pos (by simp [he]))
  · exact Effect.of_done (by simp [hcopy, execSkiverCopyProgram, he])
  · exact Effect.of_done (by simp [herase, execVictimErase, he])
  · exact Effect.of_done (by simp [hrefresh, execRefreshJob, he])

/-! ### The COPY stream (R221) -/

section
variable (he : s.engines = true) (ho : s.openStitch true = some slot) (hx : Tab.find s.blocks.stitches slot = some x)
  (hm : x.order.find? (s.memberReady x) = some m)
include he ho hx hm

theorem exec_skiverCopyProgram_of_ready :
    exec .skiverCopyProgram s = s.done (if s.mayTake slot m 32 then (s.takeLeaves slot m).pumpJobs else s) := by
  have e : exec .skiverCopyProgram s = execSkiverCopyProgram s := rfl
  have hg : Tab.get s.blocks.stitches slot Stitch.init = x := congrArg (·.getD Stitch.init) hx
  simp only [e, execSkiverCopyProgram, he, ho, hg, hm, if_true]

theorem skiverCopyProgram_of_mayTake (h : s.mayTake slot m 32 = true) : Effect .skiverCopyProgram s (s.takeLeaves slot m).pumpJobs :=
  Effect.of_done ((exec_skiverCopyProgram_of_ready he ho hx hm).trans (congrArg s.done (if_pos h)))

theorem skiverCopyProgram_of_not_mayTake (h : s.mayTake slot m 32 = false) : Effect .skiverCopyProgram s s :=
  Effect.of_done ((exec_skiverCopyProgram_of_ready he ho hx hm).trans (congrArg s.done (if_neg (by simp [h]))))

end

/-! ### Erases (R218, R223) -/

section
variable (he : s.engines = true) (hj : s.blocks.jobs = [j]) (hd : s.jobDone j = true) (hn : s.blocks.erasing.contains j.db = false)
  (ho : (s.ctlOf (dbDie j.db)).online = true)
  (h1 : (s.passEmptied j.db).updDb j.db (fun r => { r with st := if r.st = .retired then .retired else .erasePending }) = s1)
include he hj hd hn ho h1

/-- An emptied die-block has passed and is ERASE_PENDING; its erase begins unless a tack refers to it. -/
theorem exec_victimErase_of_emptied : exec .victimErase s =
    s.done (if s1.referenced j.db then s1 else (s1.spawnErase j.db).kick (dbDie j.db)).checkSpace.endUnits := by
  subst h1
  have e : exec .victimErase s = execVictimErase s := rfl
  have hready : [j].filter (fun j => s.jobDone j && !s.blocks.erasing.contains j.db) = [j] := by simp only [List.filter_cons, hd, hn]; rfl
  have hfirst : ([j].filter (fun j => !s.referenced j.db) ++ [j]).head? = some j := by
    cases hr : s.referenced j.db with
    | true => simp [hr]
    | false => simp [hr]
  simp only [e, execVictimErase, he, hj, hready, hfirst, ho, if_true, Bool.not_true, Bool.false_eq_true, if_false]

theorem victimErase_of_unreferenced (h : s1.referenced j.db = false) :
    Effect .victimErase s (((s1.spawnErase j.db).kick (dbDie j.db)).checkSpace).endUnits :=
  Effect.of_done ((exec_victimErase_of_emptied he hj hd hn ho h1).trans (by rw [if_neg (by simp [h])]))

theorem victimErase_of_referenced (h : s1.referenced j.db = true) : Effect .victimErase s s1.checkSpace.endUnits :=
  Effect.of_done ((exec_victimErase_of_emptied he hj hd hn ho h1).trans (by rw [if_pos h]))

end

section
variable (he : s.engines = true) (hj : s.blocks.jobs = [])
include he hj

theorem victimErase_of_none (hp : s.pendingErase = none) : Effect .victimErase s s.pumpJobs := by
  have e : exec .victimErase s = execVictimErase s := rfl
  exact Effect.of_done (by simp only [e, execVictimErase, he, hj, hp, if_true, List.filter_nil, List.append_nil, List.head?_nil])

theorem victimErase_of_pending (hp : s.pendingErase = some db) : Effect .victimErase s (((s.spawnErase db).kick (dbDie db)).pumpJobs) := by
  have e : exec .victimErase s = execVictimErase s := rfl
  exact Effect.of_done (by simp only [e, execVictimErase, he, hj, hp, if_true, List.filter_nil, List.append_nil, List.head?_nil])

end

/-! ### Refresh (R224) -/

theorem refreshJob_of_single (he : s.engines = true) (hq : s.blocks.refreshQ = [db]) (hb : dbBlock db < 1024) (hc : s.jobCandidate db = true) :
    Effect .refreshJob s (s.startJob db true) := by
  have e : exec .refreshJob s = execRefreshJob s := rfl
  have hcands : [db].filter (fun db => decide (dbBlock db < 1024) && s.jobCandidate db) = [db] := by simp [hb, hc]
  exact Effect.of_done (by simp only [e, execRefreshJob, hq, hcands, he, List.foldl_cons, List.foldl_nil, if_true])

theorem refreshJob_of_nil (he : s.engines = true) (hq : s.blocks.refreshQ = []) : Effect .refreshJob s s := by
  have e : exec .refreshJob s = execRefreshJob s := rfl
  exact Effect.of_done (by simp only [e, execRefreshJob, hq, he, List.filter_nil, List.foldl_nil, if_true])

end

/-- Settles O46: whether the skiver runs by what its jobs and searches leave of the block tables, the other rows by their own branches. -/
theorem skiverRefreshAndErase : Obligations.SkiverRefreshAndErase := by
  intro s slot m db x
  exact ⟨skiverVictimSelect_of_engines, fun he _ => blockLife_of_stopped he,
    fun he ho hx hm => ⟨skiverCopyProgram_of_mayTake he ho hx hm, skiverCopyProgram_of_not_mayTake he ho hx hm⟩,
    fun j he hj hd hn ho s1 h1 => ⟨victimErase_of_unreferenced he hj hd hn ho h1, victimErase_of_referenced he hj hd hn ho h1⟩,
    victimErase_of_none, victimErase_of_pending, refreshJob_of_single, refreshJob_of_nil⟩

end Sys2Proof.Machine
end

section
/-! SUPPORT. The Global Persistent Flush, HDM decoders, hints, and the errors of Table 8.8: O18. -/

namespace Sys2Proof.Machine

section
variable {s s1 : State}

/-! ### The Global Persistent Flush (R262, R296) -/

/-- A state that refuses writes answers a flush at once. -/
theorem cxlGpf_of_not_in_service (hc : s.host.cxl = true) (hs : s.dev.state ≠ .serving) (hm : s.dev.state ≠ .maintenance) :
    Effect .cxlGpf s (s.emit (.message "GPF response" 0)) := by
  have e : exec .cxlGpf s = execCxlGpf s := rfl
  exact Effect.of_done (by rw [e, execCxlGpf, if_neg (by simp [hc]), if_pos ⟨hs, hm⟩])

/-- With no dirty line a flush closes the open journal page. -/
theorem cxlGpf_of_clean (hc : s.host.cxl = true) (hs : s.dev.state = .serving) (hd : s.cache.dirtyList = []) :
    Effect .cxlGpf s (((s.setCache { s.cache with gpf := true }).closePage).endGpf) := by
  have e : exec .cxlGpf s = execCxlGpf s := rfl
  exact Effect.of_done (by rw [e, execCxlGpf, if_neg (by simp [hc]), if_neg (by simp [hs]), hd, List.foldl_nil])

theorem gpfLate_of_running (ms : Word) (hg : s.cache.gpf = true) (hl : s.cache.gpfLate = false) :
    Effect (.gpfLate ms) s ((s.setCache { s.cache with gpfLate := true }).event portHost 0x0805 s.devicePath (le 4 ms.toNat)) := by
  have e : exec (.gpfLate ms) s = execGpfLate ms s := rfl
  exact Effect.of_done (by rw [e, execGpfLate, if_pos (by simp [hg, hl])])

/-! ### HDM decoders and hints (R292) -/

section
variable {i : Fin 4} {base size : BitVec 64} {ways gran : Nat}

theorem exec_hdmDecoderCommit (hc : s.host.cxl = true) :
    exec (.hdmDecoderCommit i base size ways gran) s = s.done (s.commitHdm i.val base size ways gran) := congrArg s.done (if_pos hc)

theorem hdmDecoderCommit_of_supported (hc : s.host.cxl = true) (hr : base.toNat + size.toNat ≤ 2 ^ 46) (hw : ways ∈ [1, 2, 4, 8])
    (hg : gran ∈ [256, 512, 1024, 2048, 4096, 8192, 16384]) {x : Hdm}
    (hx : x = { hpa := BitVec.ofNat 64 (s.reg (rHdm i + 4) * 2 ^ 32 + s.reg (rHdm i)), base := base, size := size, ways := ways, gran := gran }) :
    Effect (.hdmDecoderCommit i base size ways gran) s
      ((s.setHost { s.host with decoders := Tab.put s.host.decoders i.val x }).emit (.message "HDM committed" i.val)) := by
  subst hx
  exact Effect.of_done ((exec_hdmDecoderCommit hc).trans (congrArg s.done (if_pos ⟨hr, hw, hg⟩)))

theorem hdmDecoderCommit_of_beyond (hc : s.host.cxl = true) (hr : 2 ^ 46 < base.toNat + size.toNat) :
    Effect (.hdmDecoderCommit i base size ways gran) s (s.emit (.message "HDM commit error" i.val)) :=
  Effect.of_done ((exec_hdmDecoderCommit hc).trans (congrArg s.done (if_neg fun h => absurd h.1 (Nat.not_le.mpr hr))))

end

section
variable {hpa : BitVec 64}

/-- A hint that is taken is a PREFETCH of the leaf of its address. -/
theorem cxlMemSpecRd_of_taken {a k : Nat} (hc : s.host.cxl = true) (he : s.cache.enabled = true) (hs : s.dev.state = .serving)
    (ha : s.dpaOf hpa.toNat = some a)
    (hb : s.birth { Tack.engine .prefetch engRange (leafOf a) false with wait := .leaf } none = (s1, some k)) :
    Effect (.cxlMemSpecRd hpa true) s (s1.tryPrefetch k) := by
  have e : exec (.cxlMemSpecRd hpa true) s = execCxlMemSpecRd hpa true s := rfl
  have hgo : (s.host.cxl && true && s.cache.enabled && (s.dev.state == .serving || s.dev.state == .maintenance)) = true := by
    simp [hc, he, hs]
  exact Effect.of_done (by simp only [e, execCxlMemSpecRd, ha, hgo, hb, if_true])

theorem cxlMemSpecRd_of_dropped : Effect (.cxlMemSpecRd hpa false) s s := by
  have e : exec (.cxlMemSpecRd hpa false) s = execCxlMemSpecRd hpa false s := rfl
  refine Effect.of_done ?_
  cases ha : s.dpaOf hpa.toNat with
  | none => simp only [e, execCxlMemSpecRd, ha]
  | some a => simp only [e, execCxlMemSpecRd, ha, Bool.and_false, Bool.false_and, Bool.false_eq_true, if_false]

end

/-! ### Advanced Error Reporting (R291, Table 8.8) -/

section
variable (s) (e : AerError) (h : List Byte) (b : Nat)

/-- A correctable error changes of the registers the correctable status alone. -/
theorem State.aerCorrectable_aer : ∃ v, (s.aerCorrectable b).host.aer = { s.host.aer with corStatus := v } := by
  refine ⟨s.host.aer.corStatus ||| BitVec.ofNat 32 (2 ^ b), ?_⟩
  unfold State.aerCorrectable
  dsimp only
  split
  · rfl
  · rfl

/-- Whether the Header Log takes the header of an uncorrectable error: it is free, and the error is not masked. -/
def Aer.takes (a : Aer) (e : AerError) : Bool := (match a.first with | some b => !a.uncStatus.getLsbD b | none => true) && !a.uncMask.getLsbD e.bit

/-- The registers after an uncorrectable error: its status bit, and its header in a log that takes it. -/
def Aer.record (a : Aer) (e : AerError) (h : List Byte) : Aer :=
  { a with uncStatus := a.uncStatus ||| BitVec.ofNat 32 (2 ^ e.bit), first := if a.takes e then some e.bit else a.first
           headerLog := if a.takes e then h else a.headerLog }

/-- The state whose registers hold an uncorrectable error, before any message. -/
def State.aerRecord : State := { s with host := { s.host with aer := s.host.aer.record e h } }

variable {e}

/-- What an uncorrectable error makes: its record, and the message of its class unless it is masked. -/
theorem State.aer_of_uncorrectable (he : e ≠ .corrected) : s.aer e h =
    if e.advisory && !s.host.aer.uncSeverity.getLsbD e.bit then
      if s.host.aer.uncMask.getLsbD e.bit then s.aerRecord e h else (s.aerRecord e h).aerCorrectable 13
    else if s.host.aer.uncMask.getLsbD e.bit then s.aerRecord e h
    else (s.aerRecord e h).errMessage (if s.host.aer.uncSeverity.getLsbD e.bit then "ERR_FATAL" else "ERR_NONFATAL") e.bit := if_neg he

/-- An uncorrectable error that is masked is recorded, and no more. -/
theorem State.aer_of_masked (he : e ≠ .corrected) (hm : s.host.aer.uncMask.getLsbD e.bit = true) : s.aer e h = s.aerRecord e h := by
  rw [State.aer_of_uncorrectable s h he, if_pos hm, if_pos hm, ite_self]

/-- The registers after an uncorrectable error are its record, but for the correctable status. -/
theorem State.aer_aer (he : e ≠ .corrected) : ∃ v, (s.aer e h).host.aer = { s.host.aer.record e h with corStatus := v } := by
  rw [State.aer_of_uncorrectable s h he]
  split
  · split
    · exact ⟨_, rfl⟩
    · exact State.aerCorrectable_aer _ _
  · split
    · exact ⟨_, rfl⟩
    · exact ⟨_, rfl⟩

theorem State.aer_uncStatus (he : e ≠ .corrected) :
    (s.aer e h).host.aer.uncStatus = s.host.aer.uncStatus ||| BitVec.ofNat 32 (2 ^ e.bit) := by
  obtain ⟨v, hv⟩ := State.aer_aer s h he
  rw [hv]
  rfl

/-- The first error that is not masked leaves its header in the Header Log. -/
theorem State.aer_headerLog_of_first (he : e ≠ .corrected) (hm : s.host.aer.uncMask.getLsbD e.bit = false) (hf : s.host.aer.first = none) :
    (s.aer e h).host.aer.headerLog = h := by
  have ht : s.host.aer.takes e = true := by simp [Aer.takes, hf, hm]
  obtain ⟨v, hv⟩ := State.aer_aer s h he
  rw [hv]
  exact if_pos ht

theorem State.aer_out_of_fatal (he : e ≠ .corrected) (hm : s.host.aer.uncMask.getLsbD e.bit = false)
    (hs : s.host.aer.uncSeverity.getLsbD e.bit = true) : (s.aer e h).out = s.out ++ [.message "ERR_FATAL" e.bit] := by
  rw [State.aer_of_uncorrectable s h he, if_neg (by simp [hs]), if_neg (by simp [hm]), if_pos hs]
  rfl

theorem State.aer_out_of_masked (he : e ≠ .corrected) (hm : s.host.aer.uncMask.getLsbD e.bit = true) : (s.aer e h).out = s.out := by
  rw [State.aer_of_masked s h he hm]
  rfl

end

/-! ### Bad requests (R270, R280) -/

section
variable (tag : BitVec 14)

theorem bar0BadAccess_of_read (ho : s.barOpen = true) :
    Effect (.bar0BadAccess false tag) s ((s.emit (.cpl tag.toNat .unsupported [])).aerFree .unsupported) := by
  have e : exec (.bar0BadAccess false tag) s = execBar0BadAccess false tag s := rfl
  exact Effect.of_done (by rw [e, execBar0BadAccess, if_neg (by simp [ho]), if_neg Bool.false_ne_true])

theorem exec_bar0BadAccess_of_write (ho : s.barOpen = true) : exec (.bar0BadAccess true tag) s = s.done (s.bump rHpRefused 0 16 1) := by
  have e : exec (.bar0BadAccess true tag) s = execBar0BadAccess true tag s := rfl
  rw [e, execBar0BadAccess, if_neg (by simp [ho]), if_pos rfl]

theorem State.reg_bump_of_ne (s : State) {off o : Nat} (lo w k : Nat) (h : o ≠ off) : (s.bump off lo w k).reg o = s.reg o := by
  rw [State.bump, State.setField, State.reg_setReg, if_neg h.symm]

/-- A bad write is dropped and counted, and no other register changes. -/
theorem bar0BadAccess_of_write (ho : s.barOpen = true) :
    Answers (.bar0BadAccess true tag) s (fun t => bits (t.reg rHpRefused) 0 16 = Nat.min 0xFFFF (bits (s.reg rHpRefused) 0 16 + 1) ∧
      ∀ off, off ≠ rHpRefused → off ∉ trailRegs → t.reg off = s.reg off) := by
  have hr : rHpRefused ∉ trailRegs := by decide
  refine Answers.of_done (exec_bar0BadAccess_of_write tag ho) fun t ht => ⟨?_, fun off hne hoff => ?_⟩
  · rw [ht.reg _ hr, State.bits_bump_half]
  · rw [ht.reg _ hoff, State.reg_bump_of_ne s 0 16 1 hne]

theorem ecrcError_of_up (hu : s.host.up = true) : Effect .ecrcError s (s.aerFree .ecrc) :=
  Effect.of_done (congrArg s.done (if_pos hu))

theorem malformedTlp_of_up (hu : s.host.up = true) : Effect .malformedTlp s (s.aerFree .malformed) :=
  Effect.of_done (congrArg s.done (if_pos hu))

theorem unsupportedFeatureRequest_of_up (hu : s.host.up = true) :
    Effect (.unsupportedFeatureRequest tag) s ((s.emit (.cpl tag.toNat .unsupported [])).aerFree .unsupported) :=
  Effect.of_done (congrArg s.done (if_pos hu))

end

end

/-- Settles O18: each row by the branch of its meaning, and the status, log and messages of AER by what an uncorrectable error records. -/
theorem flushDecodersAndBadRequests : Obligations.FlushDecodersAndBadRequests := by
  refine ⟨fun ms i base size ways gran hpa a s hc => ?_, fun tag e h s hu => ?_⟩
  · exact ⟨fun hs => cxlGpf_of_not_in_service hc (by simp [hs]) (by simp [hs]), cxlGpf_of_clean hc, gpfLate_of_running ms,
      fun hr hw hg _ hx => hdmDecoderCommit_of_supported hc hr hw hg hx, hdmDecoderCommit_of_beyond hc,
      fun he hs ha _ _ hb => cxlMemSpecRd_of_taken hc he hs ha hb, cxlMemSpecRd_of_dropped⟩
  · exact ⟨fun ho => ⟨bar0BadAccess_of_read tag ho, bar0BadAccess_of_write tag ho⟩, ecrcError_of_up hu, malformedTlp_of_up hu,
      unsupportedFeatureRequest_of_up tag hu, State.aer_uncStatus s h, State.aer_headerLog_of_first s h, State.aer_out_of_fatal s h,
      State.aer_out_of_masked s h⟩

end Sys2Proof.Machine
end

section
/-! SUPPORT. The requests that the memory window and CXL.mem take in order, and CXL.mem addresses that no decoder holds: O16. -/

namespace Sys2Proof.Machine

section
variable {s : State} {r : HostReq}

/-! ### Requests that are taken (R281, Table 8.6) -/

/-- The states that take host requests in arrival order (Table 8.6). -/
def DevState.takesRequests (x : DevState) : Prop := x = .serving ∨ x = .maintenance ∨ x = .cinch

/-- The memory window decodes what lies inside its BAR (R275, R277, R278). -/
theorem State.decodes_of_window (hd : s.host.d3hot = false) (hm : s.host.memSpace = true) (hl : r.addr.toNat + r.len ≤ 2 ^ s.host.barBits) :
    s.decodes r = true := by
  simp [State.decodes, hd, hm, hl]

theorem State.decodes_of_cxl (hd : s.host.d3hot = false) (hc : r.cxl = true) : s.decodes r = true := by
  simp [State.decodes, hd, hc]

theorem State.takeRead_of_decodes (hu : s.host.up = true) (hs : s.dev.state.takesRequests) (hd : s.decodes r = true) :
    s.takeRead r = s.enqueue r := by
  unfold State.takeRead
  rw [if_neg (by simp [hu]), if_neg (by simp [hd])]
  obtain h | h | h := hs
  · rw [h]
  · rw [h]
  · rw [h]

theorem State.takeWrite_of_decodes (hu : s.host.up = true) (hs : s.dev.state.takesRequests) (hp : r.poison = false) (hd : s.decodes r = true) :
    s.takeWrite r = s.enqueue r := by
  unfold State.takeWrite
  rw [if_neg (by simp [hu]), if_neg (by simp [hp]), if_neg (by simp [hd])]
  obtain h | h | h := hs
  · rw [h]
  · rw [h]
  · rw [h]

/-! ### CXL.mem (R292) -/

/-- A CXL.mem read that fails with no tack under way gets data with Poison, which is counted. -/
theorem State.failRead_of_cxl (hc : r.cxl = true) (ht : s.tacks = []) (st : CplStatus) :
    s.failRead r st = (s.emit (.cxlData r.tag.toNat true "No-Op" (zeros r.len))).bump rHpPoison 0 32 1 := by
  have hr : s.readsOf r.tag = [] := by simp [State.readsOf, ht, sortBy]
  simp only [State.failRead, hr, List.foldl_nil, hc, if_true, HostReq.answer]

section
variable {hpa : BitVec 64} {tag : BitVec 14} {ev : AccessEv} {data : List Byte} {a : HostAddr}

/-- An access that the committed decoders place goes to its DPA. -/
theorem cxlMemRd_of_decoded (hu : s.host.up = true) (hc : s.host.cxl = true) (ha : s.dpaOf hpa.toNat = some a.toNat) :
    exec (.cxlMemRd hpa tag ev) s = s.done (s.takeRead
      { write := false, addr := a, len := 64, tag := tag, data := [], poison := false, cxl := true, ev := ev }) := by
  have e : exec (.cxlMemRd hpa tag ev) s = execCxlMemRd hpa tag ev s := rfl
  simp only [e, execCxlMemRd, hu, hc, ha, Bool.and_self, if_true, BitVec.ofNat_toNat, BitVec.setWidth_eq]

theorem cxlMemWr_of_decoded (hu : s.host.up = true) (hc : s.host.cxl = true) (ha : s.dpaOf hpa.toNat = some a.toNat) :
    exec (.cxlMemWr hpa data false ev) s = s.done (s.takeWrite
      { write := true, addr := a, len := data.length, tag := 0, data := data, poison := false, cxl := true, ev := ev }) := by
  have e : exec (.cxlMemWr hpa data false ev) s = execCxlMemWr hpa data false ev s := rfl
  simp only [e, execCxlMemWr, hu, hc, ha, Bool.and_self, if_true, BitVec.ofNat_toNat, BitVec.setWidth_eq]

theorem cxlMemRd_of_undecoded (hu : s.host.up = true) (hc : s.host.cxl = true) (ha : s.dpaOf hpa.toNat = none) (ht : s.tacks = []) :
    Effect (.cxlMemRd hpa tag ev) s ((s.emit (.cxlData tag.toNat true "No-Op" (zeros 64))).bump rHpPoison 0 32 1) := by
  have e : exec (.cxlMemRd hpa tag ev) s = execCxlMemRd hpa tag ev s := rfl
  refine Effect.of_done ?_
  simp only [e, execCxlMemRd, hu, hc, ha, Bool.and_self, if_true]
  exact congrArg s.done (State.failRead_of_cxl rfl ht .unsupported)

theorem cxlMemWr_of_undecoded (hu : s.host.up = true) (hc : s.host.cxl = true) (ha : s.dpaOf hpa.toNat = none) :
    Effect (.cxlMemWr hpa data false ev) s (s.emit (.message "CXL.mem Cmp, MetaField No-Op" (hpa.toNat % 2 ^ 46))) := by
  have e : exec (.cxlMemWr hpa data false ev) s = execCxlMemWr hpa data false ev s := rfl
  refine Effect.of_done ?_
  simp only [e, execCxlMemWr, hu, hc, ha, Bool.and_self, if_true, State.sendCredit, BitVec.toNat_ofNat]

end

end

/-- Settles O16: each access is a request that the state takes once it decodes, and a CXL.mem address that no decoder holds by the answer of
its own row. -/
theorem windowTakesRequestsInOrder : Obligations.WindowTakesRequestsInOrder := by
  intro a hpa len tag data ev s hu hd hs
  refine ⟨fun hm hl => ?_, fun hm hl => ?_, fun hm hl => ?_, fun hc ha => ⟨?_, ?_⟩,
    fun hc ha ht => ⟨cxlMemRd_of_undecoded hu hc ha ht, cxlMemWr_of_undecoded hu hc ha⟩⟩
  · exact Effect.of_done (congrArg s.done (State.takeRead_of_decodes hu hs (State.decodes_of_window hd hm hl)))
  · exact Effect.of_done (congrArg s.done (State.takeRead_of_decodes hu hs (State.decodes_of_window hd hm hl)))
  · exact Effect.of_done (congrArg s.done (State.takeWrite_of_decodes hu hs rfl (State.decodes_of_window hd hm hl)))
  · exact Effect.of_done ((cxlMemRd_of_decoded hu hc ha).trans (congrArg s.done (State.takeRead_of_decodes hu hs (State.decodes_of_cxl hd rfl))))
  · exact Effect.of_done ((cxlMemWr_of_decoded hu hc ha).trans
      (congrArg s.done (State.takeWrite_of_decodes hu hs rfl (State.decodes_of_cxl hd rfl))))

end Sys2Proof.Machine
end

section
/-! SUPPORT. The answers of the CXL mailbox: O36. -/

namespace Sys2Proof.Machine

section
variable {s t : State}

theorem mem_out_of_trails_mailbox {st : MailboxStatus} {f : List (String × Int)} {rs : List (List Byte)} (h : (s.mailbox st f rs).Trails t) :
    Out.mailbox st f rs ∈ t.out :=
  h.out.subset (List.mem_append_right _ (List.mem_singleton_self _))

theorem State.Trails.logs (h : s.Trails t) : t.host.logs = s.host.logs := by
  have hl := congrArg HostPort.logs h.host
  exact hl

/-! ### A mailbox that is up (R293 to R295) -/

theorem cxlIdentify_of_up (hm : s.mailboxUp = true) :
    Answers .cxlIdentifyMemoryDevice s (fun t => ∃ f, Out.mailbox .success f [] ∈ t.out ∧ ("Total Capacity", (262144 : Int)) ∈ f ∧
      ("Volatile Only Capacity", (0 : Int)) ∈ f) :=
  Answers.of_done (congrArg s.done (if_pos hm)) fun _ ht => ⟨_, mem_out_of_trails_mailbox ht, by simp, by simp⟩

section
variable {dpa len ns : BitVec 64}

theorem cxlGetPoisonList_of_notReady (hm : s.mailboxUp = true) (hn : s.notReady = true) :
    Effect (.cxlGetPoisonList dpa len) s (s.mailbox .busy [] []) :=
  Effect.of_done (congrArg s.done ((if_neg (by simp [hm])).trans (if_pos hn)))

theorem cxlSetTimestamp_of_notReady (hm : s.mailboxUp = true) (hn : s.notReady = true) :
    Effect (.cxlSetTimestamp ns) s (s.mailbox .busy [] []) :=
  Effect.of_done (congrArg s.done ((if_neg (by simp [hm])).trans (if_pos hn)))

/-- The poison list is the hole records in range, and the hole list that is not full has not overflowed (R294). -/
theorem cxlGetPoisonList_of_ready (hm : s.mailboxUp = true) (hn : s.notReady = false) (hf : s.drift.holeFull = false) :
    Effect (.cxlGetPoisonList dpa len) s
      (s.mailbox .success [("Overflow", 0)] (s.drift.holes.filterMap (fun h => h.poison dpa.toNat len.toNat))) := by
  have e : exec (.cxlGetPoisonList dpa len) s = execCxlGetPoisonList dpa len s := rfl
  refine Effect.of_done ?_
  rw [e, execCxlGetPoisonList, if_neg (by simp [hm]), if_neg (by simp [hn]), hf]
  rfl

/-- Set Timestamp acts as SET_WALLTIME with whole seconds. -/
theorem cxlSetTimestamp_of_ready (hm : s.mailboxUp = true) (hn : s.notReady = false) :
    Answers (.cxlSetTimestamp ns) s (fun t => t.power.wall = some (ns.toNat / 1000000000, s.power.aonSeconds) ∧ t.power.wallFresh = true) :=
  Answers.of_done (x := (s.setWall (ns.toNat / 1000000000)).mailbox .success [] [])
    (congrArg s.done ((if_neg (by simp [hm])).trans (if_neg (by simp [hn]))))
    fun _ ht => ⟨congrArg Power.wall ht.power, congrArg Power.wallFresh ht.power⟩

end

/-- The oldest records leave the log of the view, and neither the other logs nor the recorder's log change (R295). -/
theorem cxlClearEventRecords_of_up (log : Fin 4) (n : Nat) (hm : s.mailboxUp = true) :
    Answers (.cxlClearEventRecords log n) s (fun t => Tab.get t.host.logs log.val [] = (Tab.get s.host.logs log.val []).drop n ∧
      t.store.evlog = s.store.evlog ∧ t.store.evCount = s.store.evCount ∧
      ∀ k, k ≠ log.val → Tab.get t.host.logs k [] = Tab.get s.host.logs k []) := by
  refine Answers.of_done (congrArg s.done (if_pos hm)) fun t ht =>
    ⟨?_, congrArg Store.evlog ht.store, congrArg Store.evCount ht.store, fun k hk => ?_⟩
  · rw [ht.logs]
    exact Tab.get_put_self _ _ _ _
  · rw [ht.logs]
    exact (Tab.get_put _ _ _ _ _).trans (if_neg hk.symm)

/-! ### A mailbox that is not up -/

theorem mailbox_ignores_of_down (log : Fin 4) (n : Nat) (opc : BitVec 16) (dpa len ns : BitVec 64) (hm : s.mailboxUp = false) :
    ∀ c ∈ [Instr.cxlIdentifyMemoryDevice, .cxlGetHealthInfo, .cxlGetPoisonList dpa len, .cxlSetTimestamp ns, .cxlGetEventRecords log,
      .cxlClearEventRecords log n, .mailboxUnsupportedOpcode opc], Effect c s s := by
  have hup : ¬ s.mailboxUp = true := by simp [hm]
  have hdown : (!s.mailboxUp) = true := by simp [hm]
  simp only [List.forall_mem_cons]
  refine ⟨?_, ?_, ?_, ?_, ?_, ?_, ?_, by simp⟩
  · exact Effect.of_done (congrArg s.done (if_neg hup))
  · exact Effect.of_done (congrArg s.done (if_neg hup))
  · exact Effect.of_done (congrArg s.done (if_pos hdown))
  · exact Effect.of_done (congrArg s.done (if_pos hdown))
  · exact Effect.of_done (congrArg s.done (if_neg hup))
  · exact Effect.of_done (congrArg s.done (if_neg hup))
  · exact Effect.of_done (congrArg s.done (if_neg hup))

end

/-- Settles O36: each row by the branch that the state of the mailbox and DEV_STATE select. -/
theorem cxlMailbox : Obligations.CxlMailbox := by
  intro log n opc dpa len ns s
  refine ⟨fun hm => ⟨cxlIdentify_of_up hm, ?_, fun hn => ⟨cxlGetPoisonList_of_notReady hm hn, cxlSetTimestamp_of_notReady hm hn⟩,
    cxlGetPoisonList_of_ready hm, cxlSetTimestamp_of_ready hm, ?_, cxlClearEventRecords_of_up log n hm, ?_⟩,
    mailbox_ignores_of_down log n opc dpa len ns⟩
  · exact Effect.of_done (congrArg s.done (if_pos hm))
  · exact Effect.of_done (congrArg s.done (if_pos hm))
  · exact Effect.of_done (congrArg s.done (if_pos hm))

end Sys2Proof.Machine
end

section
/-! SUPPORT. `State.still`: what of the state no access, tack, command over runs, journal record or event changes, up to `advance`. -/

namespace Sys2Proof.Machine

/-- The host port but for error reporting and the pending bits of MSI-X. -/
def HostPort.still (h : HostPort) : HostPort := { h with aer := Aer.reset, pba := [] }

/-- The state with all that background work changes struck out: tacks and what they leave behind, the tables of translation, blocks, line
cache and contexts, registers, events and outputs. What stands is the rest: above all the host port, the interrupt controller, the dies
with the medium, thermal management, boot, images, the service port, and the power steward as `Power.kept` has it. -/
def State.still (s : State) : State :=
  { s with nonce := 0, out := [], regs := [], dev := { s.dev with readOnly := false, spaceLow := false }, tacks := [], unborn := [], serial := 0
           progSeq := 0, life := [], arbs := [], drift := Drift.reset, store := Store.reset, obs := Obs.reset, xlat := Xlat.reset
           blocks := Blocks.reset, cache := Cache.reset, ctxs := [], harness := Harness.reset, host := s.host.still, cmdq := Cmdq.reset
           power := s.power.kept }

section
variable (s : State)

theorem still_foldl {α : Type} {f : State → α → State} (hf : ∀ s a, (f s a).still = s.still) (l : List α) : (l.foldl f s).still = s.still :=
  State.foldl_keeps State.still hf s l

@[simp] theorem still_ite {c : Prop} [Decidable c] (a b : State) : (if c then a else b).still = if c then a.still else b.still :=
  apply_ite State.still c a b

theorem still_of_eq {β : Type} {p : State × β} {t : State} {b : β} (h : p = (t, b)) : t.still = p.1.still := by rw [h]

theorem State.Observed.still {s t : State} (h : s.Observed t) : t.still = s.still := by
  rw [h.eq]
  rfl

/-! #### Updates -/

@[simp] theorem still_update (nonce : Nat) (out : List Out) (regs : Tab Word) (tacks : Tab Tack) (unborn : List Tack) (serial progSeq : Nat)
    (life : Tab Life) (arbs : Tab Arb) (drift : Drift) (store : Store) (obs : Obs) (xlat : Xlat) (blocks : Blocks) (cache : Cache)
    (ctxs : Tab Ctx) (harness : Harness) (cmdq : Cmdq) :
    State.still { s with nonce := nonce, out := out, regs := regs, tacks := tacks, unborn := unborn, serial := serial, progSeq := progSeq,
                         life := life, arbs := arbs, drift := drift, store := store, obs := obs, xlat := xlat, blocks := blocks
                         cache := cache, ctxs := ctxs, harness := harness, cmdq := cmdq } = s.still := by rfl

@[simp] theorem still_setCache (c : Cache) : (s.setCache c).still = s.still := by rfl
@[simp] theorem still_setXlat (x : Xlat) : (s.setXlat x).still = s.still := by rfl
@[simp] theorem still_setBlocks (b : Blocks) : (s.setBlocks b).still = s.still := by rfl
@[simp] theorem still_setCmdq (c : Cmdq) : (s.setCmdq c).still = s.still := by rfl
@[simp] theorem still_setQueue (q : Nat) (x : Queue) : (s.setQueue q x).still = s.still := by rfl
@[simp] theorem still_updCmd (id : Nat) (f : Cmd → Cmd) : (s.updCmd id f).still = s.still := by rfl
@[simp] theorem still_updCtx (c : Nat) (f : Ctx → Ctx) : (s.updCtx c f).still = s.still := by rfl
@[simp] theorem still_setTack (k : Nat) (t : Tack) : (s.setTack k t).still = s.still := by rfl
@[simp] theorem still_updTack (k : Nat) (f : Tack → Tack) : (s.updTack k f).still = s.still := by rfl
@[simp] theorem still_setLine (k : Nat) (l : Line) : (s.setLine k l).still = s.still := by rfl
@[simp] theorem still_setEntry (g : Nat) (e : DirEntry) : (s.setEntry g e).still = s.still := by rfl
@[simp] theorem still_updPb (k : Nat) (f : PbRec → PbRec) : (s.updPb k f).still = s.still := by rfl
@[simp] theorem still_setArb (ch : Nat) (a : Arb) : (s.setArb ch a).still = s.still := by rfl
@[simp] theorem still_setBit (off i : Nat) : (s.setBit off i).still = s.still := by rfl
@[simp] theorem still_bump (off lo w k : Nat) : (s.bump off lo w k).still = s.still := by rfl
@[simp] theorem still_emit (o : Out) : (s.emit o).still = s.still := by rfl
@[simp] theorem still_sendCredit (a : HostAddr) (cxl : Bool) : (s.sendCredit a cxl).still = s.still := by rfl
@[simp] theorem still_storeCtx (c : Nat) (x : Ctx) : (s.storeCtx c x).still = s.still := by rfl
@[simp] theorem still_placeSegment (g k : Nat) (leaves : Tab LeafEntry) : (s.placeSegment g k leaves).still = s.still := by rfl
@[simp] theorem still_voidWritebacks (first n : Nat) : (s.voidWritebacks first n).still = s.still := by rfl
@[simp] theorem still_noteWrite (t : Tack) (r : HostReq) (ctx : BitVec 12) : (s.noteWrite t r ctx).still = s.still := by rfl

@[simp] theorem still_event (port code path : Nat) (params : List Byte) (tack : Nat) : (s.event port code path params tack).still = s.still := by
  simp [State.event]

@[simp] theorem still_msix (v : Nat) : (s.msix v).still = s.still := by
  unfold State.msix
  split
  · rfl
  · rfl

@[simp] theorem still_count (code : Nat) (t : Tag) (isT : Bool) : (s.count code t isT).still = s.still := (s.observed_count code t isT).still

/-! #### Tacks and the journal -/

@[simp] theorem still_retire (k : Nat) : (s.retire k).still = s.still := (s.observed_retire k).still

@[simp] theorem still_birth (t : Tack) (ch : Option Nat) : (s.birth t ch).1.still = s.still := (s.observed_birth t ch).still

@[simp] theorem still_ask (t : Tack) : (s.ask t).1.still = s.still := by
  unfold State.ask
  split
  all_goals rename_i h; simp [still_of_eq h]

@[simp] theorem still_bear (p : Tack → Bool) : (s.bear p).still = s.still := by
  refine still_foldl s (fun s t => ?_) _
  split
  · rename_i h
    simp [still_of_eq h]
  · rfl

@[simp] theorem still_writeJournal (p : JPage) (second : Bool) : (s.writeJournal p second).still = s.still := by
  simp [State.writeJournal, State.spawnProgram]

@[simp] theorem still_closePage : s.closePage.still = s.still := by
  simp [State.closePage]

@[simp] theorem still_append (r : JRec) : (s.append r).still = s.still := by
  simp [State.append]

/-! #### Commands -/

@[simp] theorem still_settlePair (q : Fin 1024) : (s.settlePair q).still = s.still := by
  simp [State.settlePair]

@[simp] theorem still_postReady (q n : Nat) : (s.postReady q n).still = s.still := by
  induction n generalizing s with
  | zero => rfl
  | succ n ih =>
    simp only [State.postReady, State.postEntry]
    repeat' split
    all_goals simp [ih]

@[simp] theorem still_finish (c : Cmd) (code detail : Nat) (r : Option (List Byte)) : (s.finish c code detail r).still = s.still := by
  simp only [State.finish, State.respond]
  repeat' split
  all_goals simp

/-! #### Errors -/

@[simp] theorem still_aerCorrectable (b : Nat) : (s.aerCorrectable b).still = s.still := by
  unfold State.aerCorrectable
  dsimp only
  split
  · rfl
  · rfl

@[simp] theorem still_aerRecord (e : AerError) (h : List Byte) : (s.aerRecord e h).still = s.still := by rfl

@[simp] theorem still_aer (e : AerError) (h : List Byte) : (s.aer e h).still = s.still := by
  by_cases he : e = .corrected
  · simp [State.aer, he]
  · simp [State.aer_of_uncorrectable s h he, State.errMessage]

/-! #### Lines -/

@[simp] theorem still_keepCommits (p : Commit → Bool) : (s.keepCommits p).still = s.still := by
  refine (still_foldl _ (fun s o => ?_) _).trans (still_setCache s _)
  split
  · rfl
  · rfl

@[simp] theorem still_dropLine (k : Nat) : (s.dropLine k).still = s.still := by
  simp only [State.dropLine, State.dropCommits]
  repeat' split
  all_goals simp

@[simp] theorem still_poisonDrop (k tack : Nat) : (s.poisonDrop k tack).still = s.still := by
  simp only [State.poisonDrop]
  split
  all_goals simp

@[simp] theorem still_invalidate (k tack : Nat) : (s.invalidate k tack).still = s.still := by
  simp only [State.invalidate]
  repeat' split
  all_goals simp

@[simp] theorem still_listDirty (k : Nat) (wt : Bool) : (s.listDirty k wt).still = s.still := by
  simp [State.listDirty]

@[simp] theorem still_allocate (leaf tack : Nat) : (s.allocate leaf tack).1.still = s.still := by
  simp only [State.allocate]
  repeat' split
  all_goals simp

@[simp] theorem still_sweepLine (k : Nat) : (s.sweepLine k).still = s.still := by
  simp only [State.sweepLine]
  repeat' split
  all_goals simp

/-! #### Segments and leaves -/

@[simp] theorem still_segRoom (g : Nat) : (s.segRoom g).1.still = s.still := by
  simp only [State.segRoom, State.evict]
  repeat' split
  all_goals simp

@[simp] theorem still_bringIn (g : Nat) : (s.bringIn g).still = s.still := by
  simp only [State.bringIn]
  split
  · rfl
  · split
    all_goals rename_i h; simp [still_of_eq h]

@[simp] theorem still_setLeaf (leaf rseq : Nat) (f : LeafEntry → LeafEntry) : (s.setLeaf leaf rseq f).still = s.still := by
  simp only [State.setLeaf]
  split
  all_goals simp

@[simp] theorem still_unmapOld (e : LeafEntry) : (s.unmapOld e).still = s.still := by
  simp [State.unmapOld, State.subValid]

@[simp] theorem still_leafState (st : LeafSt) (first n reason : Nat) (hole : Bool) : (s.leafState st first n reason hole).still = s.still := by
  simp [State.leafState, still_foldl]

@[simp] theorem still_enterHoles (h : Hole) : (s.enterHoles h).still = s.still :=
  still_foldl s (fun s h => by simp [State.enterHole]) _

@[simp] theorem still_poisonLeaf (leaf reason : Nat) (at' : Option MediaAddr) : (s.poisonLeaf leaf reason at').still = s.still := by
  simp only [State.poisonLeaf, State.poisonNow]
  repeat' split
  all_goals simp

/-! #### Reads -/

@[simp] theorem still_sendPiece (r : HostReq) (c : Nat) (tag : Tag) (bs : List Byte) : (s.sendPiece r c tag bs).still = s.still := by
  simp [State.sendPiece, State.foldl_emit]

@[simp] theorem still_sendReady (ps : List (Nat × Tack)) : (s.sendReady ps).still = s.still := by
  induction ps generalizing s with
  | nil => rfl
  | cons e ps ih =>
    simp only [State.sendReady]
    repeat' split
    all_goals simp [ih]

@[simp] theorem still_countOutside (t : Tack) : (s.countOutside t).still = s.still := by
  simp [State.countOutside]

@[simp] theorem still_complete (k : Nat) : (s.complete k).still = s.still := by
  simp only [State.complete]
  repeat' split
  all_goals simp

@[simp] theorem still_deliver (k : Nat) (bs : List Byte) (poison : Bool) : (s.deliver k bs poison).still = s.still := by
  simp only [State.deliver]
  repeat' split
  all_goals simp

@[simp] theorem still_tryComplete (k : Nat) : (s.tryComplete k).still = s.still := by
  simp only [State.tryComplete]
  split
  all_goals simp

@[simp] theorem still_failRead (r : HostReq) (st : CplStatus) : (s.failRead r st).still = s.still := by
  simp [State.failRead, still_foldl]

@[simp] theorem still_beginRead (k : Nat) (a : MediaAddr) {lost : State → State} (h : ∀ s, (lost s).still = s.still) :
    (s.beginRead k a lost).still = s.still := by
  simp only [State.beginRead]
  repeat' split
  all_goals simp [h]

@[simp] theorem still_spawnFill (k : Nat) (t : Tack) (a : MediaAddr) (ctx : BitVec 12) : (s.spawnFill k t a ctx).still = s.still := by
  simp only [State.spawnFill]
  split
  all_goals rename_i h; simp [still_of_eq h]

@[simp] theorem still_spawnSegRead (g : Nat) (host : Bool) (parent cmd : Option Nat) : (s.spawnSegRead g host parent cmd).still = s.still := by
  unfold State.spawnSegRead
  split
  · rfl
  split
  · rfl
  rename_i h
  dsimp only
  split
  all_goals rename_i hb; simp [still_of_eq hb, still_of_eq h]

@[simp] theorem still_awaitSegment (k g : Nat) (host : Bool) : (s.awaitSegment k g host).still = s.still := by
  simp [State.awaitSegment]

@[simp] theorem still_dropStale (leaf : Nat) : (s.dropStale leaf).still = s.still := by
  simp only [State.dropStale]
  split
  all_goals simp

@[simp] theorem still_poisonDue : s.poisonDue.still = s.still := by
  simp [State.poisonDue, still_foldl]

@[simp] theorem still_updaterReads : s.updaterReads.still = s.still := by
  simp [State.updaterReads, still_foldl]

@[simp] theorem still_sectorLost (leaf sector tack : Nat) : (s.sectorLost leaf sector tack).still = s.still := by
  simp only [State.sectorLost]
  repeat' split
  all_goals simp

@[simp] theorem still_meetBad (leaf : Nat) (m : BitVec 64) (tack : Nat) : (s.meetBad leaf m tack).1.still = s.still := by
  refine List.foldlRecOn _ _ (motive := fun (a : State × Bool) => a.1.still = s.still) rfl (fun a ih i _ => ?_)
  repeat' split
  all_goals simp [ih]

@[simp] theorem still_meetFaults (k : Nat) (t : Tack) (ev : AccessEv) (m : BitVec 64) : (s.meetFaults k t ev m).1.still = s.still := by
  simp only [State.meetFaults]
  repeat' split
  all_goals simp

@[simp] theorem still_readMiss (k : Nat) (t : Tack) (r : HostReq) (e : DirEntry) (c : Ctx) (off : Nat) (blocked : Bool) :
    (s.readMiss k t r e c off blocked).still = s.still := by
  simp only [State.readMiss]
  split
  · simp
  · split
    · simp
    · split
      · simp
      · split
        · simp
        · split
          all_goals rename_i h; simp [still_of_eq h]
    · split
      all_goals simp

@[simp] theorem still_tryRead (k : Nat) : (s.tryRead k).still = s.still := by
  unfold State.tryRead
  split
  · rfl
  split
  · rfl
  rename_i t _ _ r _
  extract_lets leaf g passed e0 e c off u blocked
  have hu : u.still = s.still := still_updTack s k _
  split
  · rfl
  split
  · simp
  split
  · exact hu
  split
  · simp [hu]
  split
  rename_i h
  repeat' split
  all_goals simp [still_of_eq h, hu]

/-! #### Writes -/

@[simp] theorem still_returnCredit (r : HostReq) : (s.returnCredit r).still = s.still := by
  simp [State.returnCredit]

/-- Credits that freeze are what `Power.kept` does not show of a cinch. -/
@[simp] theorem still_acceptFull : s.acceptFull.still = s.still := by
  have he : s.acceptEnds.still = s.still := by
    unfold State.acceptEnds
    split
    · rename_i x hx
      split
      · rename_i h
        simp [State.still, Power.kept, Cinch.accepted, hx, h.1]
      · rfl
    · rfl
  simp [State.acceptFull, he]

@[simp] theorem still_mergeWrite (k w : Nat) (t : Tack) (r : HostReq) (l : Line) (off : Nat) : (s.mergeWrite k w t r l off).still = s.still := by
  simp [State.mergeWrite]

@[simp] theorem still_placeLine (k leaf : Nat) (ctx : BitVec 12) (c : Ctx) (poisoned : Bool) :
    (s.placeLine k leaf ctx c poisoned).1.still = s.still := by
  simp only [State.placeLine]
  split
  · rfl
  · split
    all_goals rename_i h; simp [still_of_eq h]

@[simp] theorem still_tryWrite (k : Nat) : (s.tryWrite k).still = s.still := by
  unfold State.tryWrite
  split
  · rfl
  split
  · rfl
  extract_lets leaf e c off passed
  split
  · rfl
  split
  · rfl
  dsimp only
  split
  · simp
  split
  all_goals rename_i h
  · simp [still_of_eq h]
  · repeat' split
    all_goals simp [still_of_eq h]

/-! #### Prefetches, write-backs and the range engine -/

@[simp] theorem still_tryPrefetch (k : Nat) : (s.tryPrefetch k).still = s.still := by
  unfold State.tryPrefetch
  split
  · rfl
  extract_lets leaf e c lock u
  have hu : u.still = s.still := still_updTack s k _
  split
  · exact hu
  split
  · simp [hu]
  split
  · exact hu
  split
  · simp [hu]
  · split
    · simp [hu]
    · split
      all_goals rename_i h
      · simp [still_of_eq h, hu]
      · repeat' split
        all_goals simp [still_of_eq h, hu]

@[simp] theorem still_tryWriteback (k : Nat) : (s.tryWriteback k).still = s.still := by
  simp only [State.tryWriteback]
  repeat' split
  all_goals simp

@[simp] theorem still_takeVictim (k w : Nat) : (s.takeVictim k w).still = s.still := by
  simp only [State.takeVictim]
  split
  all_goals simp

@[simp] theorem still_flushLine (k : Nat) (o : CommitFor) : (s.flushLine k o).still = s.still := by
  simp only [State.flushLine]
  repeat' split
  all_goals simp

@[simp] theorem still_rangeLeaf (r : RangeOp) (leaf tack : Nat) : (s.rangeLeaf r leaf tack).1.still = s.still := by
  simp only [State.rangeLeaf]
  repeat' split
  all_goals simp

@[simp] theorem still_tryRange (k : Nat) : (s.tryRange k).still = s.still := by
  simp only [State.tryRange]
  repeat' split
  all_goals simp

@[simp] theorem still_tryTack (k : Nat) : (s.tryTack k).still = s.still := by
  simp only [State.tryTack]
  repeat' split
  all_goals simp

/-! #### Requests -/

@[simp] theorem still_refuseWrite (r : HostReq) (reason : Nat) (abort : Bool) : (s.refuseWrite r reason abort).still = s.still := by
  simp [State.refuseWrite, still_foldl]

@[simp] theorem still_birthPieces (r : HostReq) : (s.birthPieces r).still = s.still := by
  simp only [State.birthPieces]
  refine (still_foldl _ (fun s k => by simp) _).trans ?_
  refine List.foldlRecOn _ _ (motive := fun (a : State × List Nat) => a.1.still = s.still) rfl (fun a ih leaf _ => ?_)
  split
  all_goals rename_i h; simp [still_of_eq h, ih]

theorem still_of_takeIn {r : HostReq} {t : State} (h : s.takeIn r = some t) : t.still = s.still := by
  have hm : (s.takeIn r).map State.still = (s.takeIn r).map (fun _ => s.still) := by
    simp only [State.takeIn, apply_ite (Option.map _), Option.map_some, Option.map_none, still_ite, still_refuseWrite, still_failRead,
      still_birthPieces, ite_self]
  simpa [h] using hm

@[simp] theorem still_pump (n : Nat) : (s.pump n).still = s.still := by
  induction n generalizing s with
  | zero => rfl
  | succ n ih =>
    simp only [State.pump]
    split
    · rfl
    split
    · rename_i h
      simp [ih, still_of_takeIn _ h]
    split
    · rfl
    split
    · rfl
    split
    · rename_i h
      simp [ih, still_of_takeIn _ h]
    · rfl

/-! #### Commands over runs -/

@[simp] theorem still_checkSpace : s.checkSpace.still = s.still := by
  have hr (u : State) : u.enterReadOnly.still = u.still := still_event _ _ _ _ _ _
  unfold State.checkSpace
  split
  · rfl
  extract_lets f d u
  have hd (b : Bool) : State.still { s with dev := { d with spaceLow := b } } = s.still := rfl
  have hu : u.still = s.still := by simp [u, hd]
  simp [hr, hu]

@[simp] theorem still_leaveHoles (first n : Nat) : (s.leaveHoles first n).still = s.still := by
  simp [State.leaveHoles]

@[simp] theorem still_dropRun (first n : Nat) : (s.dropRun first n).still = s.still := still_foldl s (fun s k => still_dropLine s k) _

@[simp] theorem still_clearRun (zero : Bool) (first n : Nat) : (s.clearRun zero first n).still = s.still := by
  simp [State.clearRun]

@[simp] theorem still_clearLeaves (zero : Bool) (first last serial n : Nat) : (s.clearLeaves zero first last serial n).1.still = s.still := by
  induction n generalizing s first serial with
  | zero => rfl
  | succ n ih =>
    simp only [State.clearLeaves]
    repeat' split
    all_goals simp [ih]

@[simp] theorem still_needRunTack (id first : Nat) : (s.needRunTack id first).1.still = s.still := by
  simp only [State.needRunTack]
  split
  · rfl
  · split
    all_goals rename_i h; simp [still_of_eq h]

@[simp] theorem still_endRunTack (id : Nat) : (s.endRunTack id).still = s.still := by
  simp only [State.endRunTack]
  split
  all_goals simp

@[simp] theorem still_dropSegment (g rseq : Nat) : (s.dropSegment g rseq).still = s.still := by
  simp [State.dropSegment]

@[simp] theorem still_unbindGranule (g : Nat) : (s.unbindGranule g).still = s.still := by
  simp [State.unbindGranule, still_foldl]

@[simp] theorem still_unbindRun (gs : List Nat) : (s.unbindRun gs).1.still = s.still := by
  induction gs generalizing s with
  | nil => rfl
  | cons g gs ih =>
    simp only [State.unbindRun]
    split
    all_goals simp [ih]

@[simp] theorem still_checkMailbox : s.checkMailbox.still = s.still := by
  simp [State.checkMailbox]

@[simp] theorem still_sweepGranule (g : Nat) : (s.sweepGranule g).still = s.still := by
  simp [State.sweepGranule]

@[simp] theorem still_pin (g : Nat) (on : Bool) : (s.pin g on).still = s.still := by
  simp [State.pin]

@[simp] theorem still_pinRun (c first n : Nat) : (s.pinRun c first n).still = s.still := by
  simp [State.pinRun, still_foldl]

@[simp] theorem still_unpinRun (c first n : Nat) : (s.unpinRun c first n).still = s.still := by
  simp [State.unpinRun, still_foldl]

@[simp] theorem still_bindGranule (c g : Nat) : (s.bindGranule c g).still = s.still := by rfl

@[simp] theorem still_bindRun (c first n : Nat) : (s.bindRun c first n).still = s.still := by
  simp [State.bindRun, still_foldl]

@[simp] theorem still_stepRunCommand (c : Cmd) : (s.stepRunCommand c).still = s.still := by
  simp only [State.stepRunCommand]
  split
  · split
    all_goals rename_i h; simp [still_of_eq h]
  · split
    all_goals simp
  · simp [still_foldl]
  · split
    all_goals simp
  · split
    · rfl
    · split
      all_goals simp
  · rfl

@[simp] theorem still_stepRunCommands : s.stepRunCommands.still = s.still := by
  simp [State.stepRunCommands, still_foldl]

/-- What follows from a change elsewhere leaves alone what `still` shows. -/
@[simp] theorem still_advance : s.advance.still = s.still := by
  unfold State.advance
  extract_lets s1 ks s2 s3 s4 s5
  have h2 : s2.still = s.still := (still_bear _ _).trans ((still_foldl s1 (fun s k => still_tryTack s k) ks).trans (still_keepCommits s _))
  have h3 : s3.still = s.still := by simp [s3, h2]
  have h4 : s4.still = s.still := by simp [s4, still_foldl, h3]
  simp [s5, h4]

end

end Sys2Proof.Machine
end

section
/-! SUPPORT. The link, the host-port reset, and on and off requests: O39. -/

namespace Sys2Proof.Machine

section
variable {s s1 : State}

/-! ### Trainings, power states and L1 (R270, R274, R275) -/

section
variable {rate width : Nat} {flit cxl : Bool}

/-- A training below a cap of the link is logged and raises source 16. -/
theorem linkTraining_of_may (hm : s.mayTrain rate width flit cxl = true)
    (h1 : s.setHost { s.host with up := true, rate := rate, width := width, flit := flit, cxl := cxl, l1ss := s.param 0x0805 3 } = s1) :
    (s.linkParam 0x0801 ≤ rate → s.linkParam 0x0802 ≤ width → Effect (.linkTraining rate width flit cxl) s s1) ∧
    (rate < s.linkParam 0x0801 ∨ width < s.linkParam 0x0802 → Effect (.linkTraining rate width flit cxl) s
      ((s1.event portHost 0x0801 s.devicePath [BitVec.ofNat 8 rate, BitVec.ofNat 8 width]).raise 16)) := by
  subst h1
  refine ⟨fun hr hw => ?_, fun hd => ?_⟩
  · exact Effect.of_done ((if_pos hm).trans (congrArg s.done (if_neg (by omega))))
  · exact Effect.of_done ((if_pos hm).trans (congrArg s.done (if_pos hd)))

theorem linkTraining_of_may_not (hm : s.mayTrain rate width flit cxl = false) : Effect (.linkTraining rate width flit cxl) s s :=
  Effect.of_done (if_neg (by simp [hm]))

end

theorem pmStateChange_of_up (d3 : Bool) (hu : s.host.up = true) : Effect (.pmStateChange d3) s (s.setHost { s.host with d3hot := d3 }) :=
  Effect.of_done (congrArg s.done (if_pos hu))

theorem aspmL1Entry_of_idle (hu : s.host.up = true) (hr : s.holdsReads = false) :
    Effect .aspmL1Entry s (s.emit (.message "ASPM L1 request" 0)) :=
  Effect.of_done (congrArg s.done (if_pos (by simp [hu, hr])))

end

/-! ### The host-port reset (R276, R425, Table 8.12) -/

section
variable (s : State)

@[simp] theorem still_drain (k : Nat) : (s.drain k).still = s.still := by
  have hm (u : State) (k : Nat) : (u.dropMembers k).still = u.still :=
    still_foldl u (fun s e => by simp [State.withdraw]) _
  simp only [State.drain]
  split
  · rfl
  · split
    all_goals simp [State.rescrub, State.withdraw, hm]

@[simp] theorem still_dropReads : s.dropReads.still = s.still := by
  simp [State.dropReads, still_foldl]

/-- The host port after a reset: at its reset values but for what describes the link, the HDM decoders, the CXL view, and the counts
(Table 8.12, log 18). -/
def HostPort.afterReset (h : HostPort) (cause : ResetCause) : HostPort :=
  { HostPort.reset with up := h.up && cause == .flr, rate := h.rate, width := h.width, flit := h.flit, cxl := h.cxl, l1ss := h.l1ss
                        decoders := h.decoders, mailboxCode := h.mailboxCode, logs := h.logs, logsFull := h.logsFull
                        cinchCut := h.cinchCut, dirtyMounts := h.dirtyMounts, dirRebuilds := h.dirRebuilds }

theorem State.still_intc : s.still.intc = s.intc := by rfl
theorem still_setHost (h : HostPort) : (s.setHost h).still = s.still.setHost h.still := by rfl
theorem still_resetHostRoutes : s.resetHostRoutes.still = s.still.resetHostRoutes := by rfl
theorem still_raise (id : Nat) : (s.raise id).still = s.still.raise id := by rfl
@[simp] theorem still_resetRegs (p : Nat → Bool) : (s.resetRegs p).still = s.still := by rfl
@[simp] theorem still_resetCmdq : s.resetCmdq.still = s.still := by rfl

/-- Of what `still` shows, a host-port reset changes the host port, the host's routes and targets, and source 16. -/
theorem still_hostPortReset (cause : ResetCause) :
    (s.hostPortReset cause).still = ((s.still.setHost (s.host.afterReset cause).still).resetHostRoutes).raise 16 := by
  simp [State.hostPortReset, still_setHost, still_resetHostRoutes, still_raise, HostPort.afterReset]

end

section
variable {s t : State}

theorem State.Trails.host_still (h : s.Trails t) : t.host.still = s.still.host := by
  have hs := congrArg HostPort.still h.host
  exact hs

/-- A state that trails one without host routes has none. -/
theorem State.Trails.routes_nil (h : s.Trails t) (hs : s.intc.host = []) : t.intc.host = [] := by
  cases hl : t.intc.host with
  | nil => rfl
  | cons e r =>
    have hr := h.routes e.1
    simp [hs, hl, Tab.find] at hr

theorem hostPortReset_of_powered {cause : ResetCause} (hs : s.dev.state ≠ .standby) (hc : s.host.up = true ∨ cause = .perst) :
    Answers (.hostPortReset cause) s (fun t => t.host.memSpace = false ∧ t.host.busMaster = false ∧
      t.host.up = (s.host.up && cause == .flr) ∧ t.host.decoders = s.host.decoders ∧ t.intc.host = []) := by
  have hgo : (s.dev.state != .standby && (s.host.up || cause == .perst)) = true := by simpa [hs] using hc
  have hk := still_hostPortReset s cause
  refine Answers.of_done (congrArg s.done (if_pos hgo)) fun t ht => ?_
  have hh : t.host.still = (s.host.afterReset cause).still := ht.host_still.trans (congrArg State.host hk)
  have hf {β : Type} (f : HostPort → β) : f t.host.still = f (s.host.afterReset cause).still := congrArg f hh
  refine ⟨hf HostPort.memSpace, hf HostPort.busMaster, hf HostPort.up, hf HostPort.decoders, ht.routes_nil ?_⟩
  rw [← State.still_intc, hk]
  rfl

end

/-! ### On and off requests (R355 to R357, R433) -/

section
variable {s : State} {secs : Nat}

theorem State.checkTie_state (id : Nat) : (s.checkTie id).dev.state = s.dev.state := by
  have hk : (s.checkTie id).still = s.still := by simp [State.checkTie]
  have hs := congrArg (fun s : State => s.dev.state) hk
  exact hs

/-- POWERING begins with the bulk bus, and the cycle is counted and stored (R357, R403). -/
theorem onRequest_of_standby (hs : s.dev.state = .standby) (hl : s.power.offLatch = false) (hu : s.power.up = .none)
    (hc : s.power.critLock = false) :
    Answers (.onRequest secs) s (fun t => t.dev.state = .powering ∧ t.dev.prev = .standby ∧ t.dev.seq = 1 ∧ t.power.up = .bulk ∧
      t.power.shelfEn = true ∧ t.store.powerCycles = s.store.powerCycles + 1 ∧
      t.store.record recPowerCycles = some (le 8 (s.store.powerCycles + 1)) ∧ Out.pin "PFW_N" true ∈ t.out) := by
  have hd : (s.checkTie recBoard).dev.state = .standby := (State.checkTie_state recBoard).trans hs
  refine Answers.of_done ((if_neg (by simp [hs, hl, hu])).trans (if_neg (by simp [hc]))) fun t ht =>
    ⟨congrArg Dev.state ht.dev, (congrArg Dev.prev ht.dev).trans hd, (congrArg Dev.seq ht.dev).trans (if_pos hd), congrArg Power.up ht.power,
      congrArg Power.shelfEn ht.power, congrArg Store.powerCycles ht.store, ?_, ht.out.subset (List.mem_append_right _ (List.mem_singleton_self _))⟩
  rw [ht.store]
  exact Store.record_writeOp_same _ _ _

theorem onRequest_of_lockout (hs : s.dev.state = .standby) (hl : s.power.offLatch = false) (hu : s.power.up = .none)
    (hc : s.power.critLock = true) : Effect (.onRequest secs) s (s.setPower { s.power with shelfEn := true, onPending := true }) :=
  Effect.of_done ((if_neg (by simp [hs, hl, hu])).trans (if_pos hc))

theorem onRequest_of_refused (h : s.dev.state ≠ .standby ∨ s.power.offLatch = true) : Effect (.onRequest secs) s s :=
  Effect.of_done (if_pos (h.imp_right Or.inl))

/-- In SERVING an off request is only noted: the clean shutdown path runs first (R356). -/
theorem State.offRequest_of_serving (hs : s.dev.state = .serving) (hn : s.power.shutdown = .none) :
    s.offRequest = s.setPower { s.power with offAsked := true } := by
  simp only [State.offRequest, hs, hn, reduceCtorEq, if_false]

/-- Entry to POWERING_DOWN stores OP_SECONDS (R359, R403). -/
theorem State.powerDown_record : s.powerDown.store.record recOpSeconds = some (le 8 s.store.opSeconds) := by
  simp only [State.powerDown]
  split
  · exact (Store.record_writeOp_other _ (by decide) _).trans (Store.record_writeOp_same _ _ _)
  · exact Store.record_writeOp_same _ _ _

/-- In HELD an off request takes the device down (R356). -/
theorem State.offRequest_of_held (hs : s.dev.state = .held) : s.offRequest = s.powerDown := by
  simp only [State.offRequest, hs]

theorem shelfEnLow_of_serving (hs : s.dev.state = .serving) (hn : s.power.shutdown = .none) :
    Effect .shelfEnLow s (s.setPower { s.power with shelfEn := false, offLatch := false, onPending := false, offAsked := true }) :=
  Effect.of_done (congrArg s.done (State.offRequest_of_serving (s := s.setPower _) hs hn))

theorem offReq_of_serving (hs : s.dev.state = .serving) (hn : s.power.shutdown = .none) (ho : s.barOpen = true) :
    Effect .offReq s (s.setPower { s.power with offLatch := true, offAsked := true }) :=
  Effect.of_done (congrArg s.done ((if_pos ho).trans (State.offRequest_of_serving (s := s.setPower _) hs hn)))

theorem offReq_of_held (hs : s.dev.state = .held) (ho : s.barOpen = true) :
    Answers .offReq s (fun t => t.dev.state = .poweringDown ∧ t.power.offLatch = true ∧
      t.store.record recOpSeconds = some (le 8 s.store.opSeconds)) := by
  refine Answers.of_done (x := (s.setPower { s.power with offLatch := true }).powerDown)
    (congrArg s.done ((if_pos ho).trans (State.offRequest_of_held (s := s.setPower _) hs))) fun t ht => ⟨?_, ?_, ?_⟩
  · exact (congrArg Dev.state ht.dev).trans (State.powerDown_state _)
  · exact (congrArg Power.offLatch ht.power).trans (congrArg Power.offLatch (State.powerDown_power _))
  · rw [ht.store]
    exact State.powerDown_record

end

/-- Settles O39: each row by its own branch; a host-port reset by what the rest of the step leaves of the host port and its routes. -/
theorem linkAndPowerRequests : Obligations.LinkAndPowerRequests := by
  refine ⟨fun rate width flit cxl d3 cause s s1 => ?_, fun secs s => ?_⟩
  · exact ⟨linkTraining_of_may, linkTraining_of_may_not, pmStateChange_of_up d3, aspmL1Entry_of_idle, hostPortReset_of_powered⟩
  · exact ⟨onRequest_of_standby, onRequest_of_lockout, onRequest_of_refused,
      fun hs hn => ⟨shelfEnLow_of_serving hs hn, offReq_of_serving hs hn⟩, offReq_of_held, Effect.of_done rfl⟩

end Sys2Proof.Machine
end

section
/-! SUPPORT. What the context and key commands do where their checks pass: O26. -/

namespace Sys2Proof.Machine

section
variable {s : State} {c : Cmd}

/-! ### Contexts (R300, R304 to R306) -/

/-- The entry that CTX_CREATE stores, made of the entry before it. -/
def Ctx.created (x : Ctx) (attr : Nat) : Ctx :=
  { x.withAttr attr with valid := true, key := if bit attr 24 then .empty else .none, sweep := false, generation := x.generation + 1 }

/-- CTX_CREATE whose checks pass stores the entry, and binds its run if there is one. -/
theorem State.ctxCreate_of_free (hb : s.ctxBusy c.ctxOf = false) (ha : attrOk (c.pkt.u 0x18 4) = true)
    (hu : s.runUnbound (c.pkt.u 0x20 4) (c.pkt.u 0x24 4) = true) (hp : s.pinDemand + c.pkt.u 0x24 4 ≤ s.pinLimit) :
    s.ctxCreate c = (if c.pkt.u 0x24 4 = 0 then (s.storeCtx c.ctxOf ((s.ctx c.ctxOf).created (c.pkt.u 0x18 4))).ok c
      else (s.storeCtx c.ctxOf ((s.ctx c.ctxOf).created (c.pkt.u 0x18 4))).bindFor c (c.pkt.u 0x20 4) (c.pkt.u 0x24 4)) := by
  simp only [State.ctxCreate, hb, ha, hu, Nat.not_lt.mpr hp, and_false, Bool.not_true, Bool.false_eq_true, if_false]
  rfl

theorem State.ctxCreate_of_bad_attr (hb : s.ctxBusy c.ctxOf = false) (ha : attrOk (c.pkt.u 0x18 4) = false) :
    s.ctxCreate c = s.finish c stField 0x18 none := by
  simp only [State.ctxCreate, hb, ha, Bool.not_false, Bool.false_eq_true, if_false, if_true]

/-- CTX_MODIFY that binds and unbinds nothing and keeps ENC, pinning and write-through only stores the entry: no granule is pinned
anew, so PIN_LIMIT does not matter. -/
theorem State.ctxModify_of_unbound {x : Ctx} (hb : s.ctxBusy c.ctxOf = false) (h0 : c.pkt.u 0x28 1 = 0)
    (hx : (s.ctx c.ctxOf).modified (c.pkt.u 0x18 4) (c.pkt.u 0x1C 4) = x) (he : x.enc = (s.ctx c.ctxOf).enc) (ha : attrOk x.attr = true)
    (hc : (x.cls = 2#2) = ((s.ctx c.ctxOf).cls = 2#2)) (hw : x.wt = (s.ctx c.ctxOf).wt) :
    s.ctxModify c = (s.storeCtx c.ctxOf x).await c .commits := by
  by_cases h2 : (s.ctx c.ctxOf).cls = 2#2
  · simp [State.ctxModify, hx, hb, h0, he, ha, hw, h2, hc.mpr h2]
  · simp [State.ctxModify, hx, hb, h0, he, ha, hw, h2, mt hc.mp h2]

theorem State.ctxModify_of_enc {x : Ctx} (hb : s.ctxBusy c.ctxOf = false)
    (hx : (s.ctx c.ctxOf).modified (c.pkt.u 0x18 4) (c.pkt.u 0x1C 4) = x) (he : x.enc ≠ (s.ctx c.ctxOf).enc) :
    s.ctxModify c = s.finish c stField 0x18 none := by
  simp only [State.ctxModify, hx, hb, he, ne_eq, not_false_eq_true, true_or, Bool.false_eq_true, if_false, if_true]

theorem State.ctxDelete_of_unloaded (hb : s.ctxBusy c.ctxOf = false) (hk : (s.ctx c.ctxOf).key ≠ .loaded) :
    s.ctxDelete c = (s.await c (.unbind (s.granulesOf c.ctxOf))).advance := by
  simp only [State.ctxDelete, hb, hk, Bool.false_eq_true, if_false]

/-! ### Keys (R309 to R312) -/

theorem fit_length_self (b : List Byte) : fit b.length b = b := by simp [fit, zeros]

theorem State.keyLoad_of_good {b : List Byte} (hb : s.ctxBusy c.ctxOf = false) (hl : b.length = 80) (hk : recField b 1 1 = 1)
    (hf : s.keyFault c.ctxOf b = none) :
    s.keyLoad c (.bytes b) = ((s.save (recKey0 + c.ctxOf) (fit 72 (Config.storedKey s.kek (b.drop 8)))).storeCtx c.ctxOf
      { s.ctx c.ctxOf with key := .loaded }).ok c := by
  have hfit : fit 80 b = b := hl ▸ fit_length_self b
  simp only [State.keyLoad, hfit, hk, hb, hf, Bool.false_eq_true, and_false, if_false, if_true]
  rfl

theorem State.keyDestroy_of_loaded (hb : s.ctxBusy c.ctxOf = false) (hk : (s.ctx c.ctxOf).key = .loaded) :
    s.keyDestroy c = ((s.destroyKey c.ctxOf).await c (.sweep s.serial)).advance := by
  simp only [State.keyDestroy, hb, hk, ne_eq, not_true_eq_false, Bool.false_eq_true, if_false]

theorem State.keyDestroy_of_unloaded (hb : s.ctxBusy c.ctxOf = false) (hk : (s.ctx c.ctxOf).key ≠ .loaded) :
    s.keyDestroy c = s.finish c stKey 0 none := by
  simp only [State.keyDestroy, hb, hk, ne_eq, not_false_eq_true, Bool.false_eq_true, if_false, if_true]
  rfl

end

section
variable (s : State) (k : Nat)

theorem State.storeCtx_ctx (x : Ctx) : (s.storeCtx k x).ctx k = x := Tab.get_put_self _ _ _ _

theorem State.destroyKey_ctx : (s.destroyKey k).ctx k = { s.ctx k with key := .destroyed, sweep := true } := State.storeCtx_ctx _ _ _

end

/-- Both copies of an erased record are gone (R404). -/
theorem Store.record_eraseOp (st : Store) (id : Nat) : (st.eraseOp [id]).record id = none := by
  have hf (c : Nat) (h : c ≤ 1) : Tab.find (st.eraseOp [id]).copies (2 * id + c) = none := by
    show Tab.find (Tab.del (Tab.del st.copies (2 * id)) (2 * id + 1)) (2 * id + c) = none
    rw [Tab.find_del, Tab.find_del]
    split
    · rfl
    · exact if_pos (by omega)
  have ht : (st.eraseOp [id]).taken id = none := by simp only [Store.taken, Store.seqOf, hf 0 (by omega), hf 1 (by omega)]
  simp only [Store.record, ht]

/-- The wrapped key is gone with the key (R312). -/
theorem State.destroyKey_record (s : State) (k : Nat) : (s.destroyKey k).store.record (recKey0 + k) = none :=
  (Store.record_writeOp_other _ (by simp) _).trans (s.store.record_eraseOp _)

/-- Settles O26: each command by the branch of its own rules that its checks select. -/
theorem contextAndKeyCommands : Obligations.ContextAndKeyCommands := by
  rintro port _ b s s1 c _ _ rfl rfl rfl hb
  refine ⟨fun hs hn ha hu hp => ?_, fun hs hn ha hu hp => ?_, fun hs ha => ?_, fun hs h0 x hx he ha hc hw => ?_, fun hs x hx he => ?_, fun hs hk => ?_,
    fun hs hl hk hf => ?_, fun hs => Effect.of_starts hs rfl rfl, fun hs hk => ⟨?_, ?_, ?_, s1.destroyKey_record _⟩, fun hs hk => ?_⟩
  · refine ⟨(s1.ctx c.ctxOf).created (c.pkt.u 0x18 4), Effect.of_starts hs rfl ?_, rfl, rfl, rfl, rfl, rfl⟩
    exact (State.ctxCreate_of_free hb ha (by rwa [hn]) (by rwa [hn])).trans (if_pos hn)
  · refine ⟨(s1.ctx c.ctxOf).created (c.pkt.u 0x18 4), rfl, Effect.of_starts hs rfl ?_⟩
    exact (State.ctxCreate_of_free hb ha hu hp).trans (if_neg hn)
  · exact Effect.of_starts hs rfl (State.ctxCreate_of_bad_attr hb ha)
  · exact Effect.of_starts hs rfl (State.ctxModify_of_unbound hb h0 hx he ha hc hw)
  · exact Effect.of_starts hs rfl (State.ctxModify_of_enc hb hx he)
  · exact Effect.of_starts hs rfl (State.ctxDelete_of_unloaded hb hk)
  · exact Effect.of_starts hs rfl (State.keyLoad_of_good hb hl hk hf)
  · exact Effect.of_starts hs rfl (State.keyDestroy_of_loaded hb hk)
  · rw [State.destroyKey_ctx]
  · rw [State.destroyKey_ctx]
  · exact Effect.of_starts hs rfl (State.keyDestroy_of_unloaded hb hk)

end Sys2Proof.Machine
end

section
/-! SUPPORT. Pushes of a member, the leader's read of its mailbox, and the harness commands: O31. -/

namespace Sys2Proof.Machine

/-! ### Pushes (R317, R318) -/

/-- The end of the commands that wait for a push is only the end of commands. -/
theorem trails_endPushCommands (s : State) : s.Trails s.endPushCommands :=
  State.Trails.fold _ (fun s c => State.Trails.ite (trails_finish s c _ _ _) (.refl s)) _ s

section
variable {s : State}

/-- A push with Bus Master Enable set writes the record, then the notice, and waits for the SEQUENCE that it wrote. -/
theorem State.startPush_of_busMaster (hb : s.host.busMaster = true) : ∃ life r n,
    s.startPush = { s with life := life, out := s.out ++ [.hostWrite s.slotAt r] ++ [.hostWrite s.noticeAt (le 4 s.dev.unitId.toNat)]
                           harness := { s.harness with pushing := some n } } := by
  simp only [State.startPush, hb, Bool.not_true, Bool.false_eq_true, if_false]
  split
  · exact ⟨_, _, _, rfl⟩
  · exact ⟨_, _, _, rfl⟩

theorem State.pushRead_of_match {n : Nat} {b : List Byte} (hp : s.harness.pushing = some n) (hl : b.length = 8) (hn : ofLe b = n) :
    s.pushRead (.bytes b) = (s.setHarness { s.harness with
      pushing := none, pushFails := 0, leaderLost := false, pushes := s.harness.pushes + 1, lastPush := s.store.opSeconds }).endPushCommands := by
  simp only [State.pushRead, hp, hl, hn, and_self, if_true]

theorem State.pushRead_of_other {n : Nat} {b : List Byte} (hp : s.harness.pushing = some n) (hn : ofLe b ≠ n) :
    s.pushRead (.bytes b) = s.pushFailed := by
  simp only [State.pushRead, hp, hn, and_false, if_false]

/-- Before HARNESS_LOST failures in a row the leader is not lost yet. -/
theorem State.pushFailed_of_few (h : s.harness.pushFails + 1 < s.harnessLost) :
    s.pushFailed = (s.setHarness { s.harness with pushFails := s.harness.pushFails + 1, pushing := none }).endPushCommands := by
  have hl : ¬ (s.setHarness { s.harness with pushFails := s.harness.pushFails + 1, pushing := none }).harnessLost ≤ s.harness.pushFails + 1 :=
    Nat.not_le.mpr h
  simp only [State.pushFailed, hl, if_false]

theorem State.pushRead_of_idle (hp : s.harness.pushing = none) (r : HostRead) : s.pushRead r = s := by
  simp only [State.pushRead, hp]

theorem harnessPush_of_member (hs : s.dev.state = .serving) (hm : s.harness.member = true) (hp : s.harness.pushing = none)
    (hq : s.harness.silent = false) (he : s.engines = true) : Effect .harnessPush s s.startPush :=
  Effect.of_done (congrArg s.done (if_pos (by simp [hs, hm, hp, hq, he])))

theorem completionTimeout_readBack_of_idle (hp : s.harness.pushing = none) : Effect (.completionTimeout .readBack) s s :=
  Effect.of_done (congrArg s.done ((congrArg _ (State.pushRead_of_idle hp _)).trans (ite_self s)))

end

/-! ### The leader's read (R319) -/

section
variable (s : State)

theorem State.event_cmds (port code path : Nat) (params : List Byte) (tack : Nat) :
    (s.event port code path params tack).cmdq.cmds = s.cmdq.cmds := by
  unfold State.event
  dsimp only
  split <;> rfl

theorem State.leaderRead_cmds : s.leaderRead.cmdq.cmds = s.cmdq.cmds := by
  refine State.foldl_keeps (fun s => s.cmdq.cmds) (fun s m => ?_) s _
  exact State.ite_keeps (fun s => s.cmdq.cmds) (State.event_cmds _ _ _ _ _ _) rfl

/-- With no command in progress none waits for the leader's record. -/
theorem State.leaderEnds_of_no_cmds (hc : s.cmdq.cmds = []) :
    s.leaderEnds = (s.setHarness { s.harness with reading := false }).leaderRead.formHarness.1 := by
  have hf : (s.setHarness { s.harness with reading := false }).leaderRead.formHarness.1.cmdq.cmds = [] := (State.leaderRead_cmds _).trans hc
  simp only [State.leaderEnds, hf, List.filter_nil, List.foldl_nil]

end

section
variable {s : State}

theorem harnessLeaderRead_of_reading (hr : s.harness.reading = true) :
    Effect .harnessLeaderRead s (if s.mailboxBusy then s else s.leaderEnds) :=
  Effect.of_done (congrArg s.done (if_pos hr))

theorem harnessLeaderRead_of_leader (hs : s.dev.state = .serving) (hl : s.harness.leader = true) (hm : s.harness.mailboxLost = false)
    (he : s.engines = true) (hr : s.harness.reading = false) : Effect .harnessLeaderRead s (s.leaderBegins none) :=
  Effect.of_done (congrArg s.done ((if_neg (by simp [hr])).trans (if_pos (by simp [hs, hl, hm, he]))))

theorem State.leaderBegins_of_no_reads {o : Option Nat} (h : s.mailboxReads o = []) : s.leaderBegins o = s.leaderEnds := by
  simp only [State.leaderBegins, h]

end

/-! ### Commands (R316, R318) -/

section
variable {port : Port} {pkt : Packet} {s s1 : State} {c : Cmd}

/-- A join as HARNESS_JOIN takes and stores it (R316). -/
def State.joined (s : State) (pkt : Packet) : State :=
  let h : Harness := { s.harness with
    role := BitVec.ofNat 2 (pkt.u 0x1A 1), parent := BitVec.ofNat 64 (pkt.u 0x20 8), mailbox := pkt.u 0x28 8, leaderLost := false
    mailboxLost := false, pushFails := 0, pushing := none, slots := [] }
  ((({ s with dev := { s.dev with unitId := BitVec.ofNat 14 (pkt.u 0x18 2) }, harness := h }).save recUnitId (le 8 (pkt.u 0x18 2))).save
    recHarnessJoin (h.joinBytes (pkt.u 0x18 2)))

theorem State.joined_record (s : State) (pkt : Packet) : (s.joined pkt).store.record recUnitId = some (le 8 (pkt.u 0x18 2)) :=
  (Store.record_writeOp_other _ (by decide) _).trans (Store.record_writeOp_same _ _ _)

/-- A member writes its records at its UNIT_ID in the parent's mailbox. -/
theorem State.joined_slotAt (s : State) (pkt : Packet) :
    (s.joined pkt).slotAt = pkt.u 0x20 8 + 256 * (BitVec.ofNat 14 (pkt.u 0x18 2)).toNat :=
  congrArg (· + _) (Nat.mod_mod _ (2 ^ 64))

theorem harnessJoin_of_member (hs : Starts 0x90 port pkt s s1 c) (hl : bit (pkt.u 0x1A 1) 1 = false) (hm : bit (pkt.u 0x1A 1) 0 = true) :
    Effect (.harnessJoin port pkt) s ((s1.joined pkt).await c .push).startPush :=
  Effect.of_starts hs rfl (by simp only [hl, hm, Bool.false_and, Bool.false_eq_true, if_false, if_true]; rfl)

theorem harnessJoin_answers (hs : Starts 0x90 port pkt s s1 c) (hl : bit (pkt.u 0x1A 1) 1 = false) (hm : bit (pkt.u 0x1A 1) 0 = true)
    (hb : s1.host.busMaster = true) :
    Answers (.harnessJoin port pkt) s (fun t => t.dev.unitId = BitVec.ofNat 14 (pkt.u 0x18 2) ∧ t.harness.role = BitVec.ofNat 2 (pkt.u 0x1A 1) ∧
      t.harness.parent = BitVec.ofNat 64 (pkt.u 0x20 8) ∧ t.store.record recUnitId = some (le 8 (pkt.u 0x18 2)) ∧ t.harness.pushing ≠ none ∧
      ∃ r, Out.hostWrite (pkt.u 0x20 8 + 256 * (BitVec.ofNat 14 (pkt.u 0x18 2)).toNat) r ∈ t.out) := by
  refine Answers.of_effect (harnessJoin_of_member hs hl hm) fun t ht => ?_
  obtain ⟨life, r, n, hx⟩ := State.startPush_of_busMaster (s := (s1.joined pkt).await c .push) hb
  rw [hx] at ht
  refine ⟨congrArg Dev.unitId ht.dev, congrArg Harness.role ht.harness, congrArg Harness.parent ht.harness, ?_, ?_, r, ht.out.subset ?_⟩
  · rw [ht.store]
    exact State.joined_record s1 pkt
  · simp [ht.harness]
  · rw [← State.joined_slotAt s1]
    exact List.mem_append_left _ (List.mem_append_right _ (List.mem_singleton_self _))

theorem harnessJoin_of_bad_mailbox (hs : Starts 0x90 port pkt s s1 c) (hl : bit (pkt.u 0x1A 1) 1 = true) (hm : s1.mailboxOk (pkt.u 0x28 8) = false) :
    Effect (.harnessJoin port pkt) s (s1.finish c 0x05 0 none) :=
  Effect.of_starts hs rfl (by simp only [hl, hm, Bool.not_false, Bool.and_self, if_true]; rfl)

/-- A member that leaves has no join stored, and keeps only the count and time of its pushes. -/
theorem harnessLeave_answers (hs : Starts 0x91 port pkt s s1 c) (hm : bit (pkt.u 0x1A 1) 0 = false) :
    Answers (.harnessLeave port pkt) s (fun t => t.harness = { Harness.reset with pushes := s1.harness.pushes, lastPush := s1.harness.lastPush } ∧
      t.store.record recHarnessJoin = none) := by
  refine Answers.of_effect (Effect.of_starts hs rfl (if_neg (by simp [hm]))) fun t ht => ?_
  have hx := ((trails_endPushCommands _).trans (trails_finish _ _ _ _ _)).trans ht
  refine ⟨hx.harness, ?_⟩
  rw [hx.store]
  exact Store.record_eraseOp _ _

end

/-- Settles O31: each row by its own branch; a join by what its first push leaves of it. -/
theorem harnessRows : Obligations.HarnessRows := by
  intro port pkt s s1 c
  refine ⟨harnessJoin_answers, harnessJoin_of_bad_mailbox, harnessLeave_answers, harnessPush_of_member,
    fun n b hp hl => ⟨fun hn => ?_, fun hn hf => ?_⟩, completionTimeout_readBack_of_idle, harnessLeaderRead_of_reading, harnessLeaderRead_of_leader,
    State.leaderBegins_of_no_reads, State.leaderEnds_of_no_cmds s⟩
  · exact Effect.of_done (congrArg s.done (State.pushRead_of_match hp hl hn))
  · exact Effect.of_done (congrArg s.done ((State.pushRead_of_other hp hn).trans (State.pushFailed_of_few hf)))

end Sys2Proof.Machine
end

section
/-! SUPPORT. The hold-up bank and its measurement: O41. -/

namespace Sys2Proof.Machine

section
variable (s : State)

@[simp] theorem State.event_power (port code path : Nat) (params : List Byte) (tack : Nat) :
    (s.event port code path params tack).power = s.power := by
  unfold State.event
  dsimp only
  split
  · rfl
  · rfl

@[simp] theorem State.event_dev (port code path : Nat) (params : List Byte) (tack : Nat) :
    (s.event port code path params tack).dev = s.dev := by
  unfold State.event
  dsimp only
  split
  · rfl
  · rfl

@[simp] theorem State.recomputeCeiling_power (e : Nat) : (s.recomputeCeiling e).power = s.power := by
  simp [State.recomputeCeiling, apply_ite State.power]

@[simp] theorem State.setEnergy_power (e : Nat) : (s.setEnergy e).power = { s.power with bankE := e } := by
  rw [State.setEnergy, State.recomputeCeiling_power, State.setPower_power]

/-- The end of the commands that wait for a measurement is only the end of commands. -/
theorem trails_endMeasCommands : s.Trails s.endMeasCommands :=
  State.Trails.fold _ (fun s c => State.Trails.ite (trails_finish s c _ _ _) (.refl s)) _ s

/-- A measurement that fails leaves no usable energy, and the device DEGRADED (R366, R369). -/
theorem State.measFailed_figures (m : Meas) :
    (s.measFailed m).power.bankE = 0 ∧ (s.measFailed m).power.meas = none ∧ (s.measFailed m).dev.degraded = true := by
  unfold State.measFailed
  extract_lets p flags s1 s2
  have hp : s2.power = { s1.power with bankE := 0 } := by simp [s2, State.saveBank, State.save]
  have ht := trails_endMeasCommands { s2 with dev := { s2.dev with degraded := true } }
  exact ⟨(congrArg Power.bankE ht.power).trans (congrArg Power.bankE hp), (congrArg Power.meas ht.power).trans (congrArg Power.meas hp),
    congrArg Dev.degraded ht.dev⟩

end

section
variable {s : State} {m : Meas}

/-- A measurement in service starts in SERVING and MAINTENANCE with no other one running (R367). -/
theorem State.startMeasure_of_service (hs : s.dev.state = .serving ∨ s.dev.state = .maintenance) (hm : s.power.meas = none)
    (ho : s.power.overvolt = false) :
    s.startMeasure = (s.setPower { s.power with meas := some { Meas.charging true true s.power.bankE with step := .dirty }, tempCeiling := true }).setEnergy
      (s.energyAt s.power.bankC s.power.bankEsr 30000) :=
  if_neg (by rcases hs with hs | hs <;> simp [hs, hm, ho])

/-- The figure for 30.0 V is in force until the measurement ends (R367). -/
theorem State.startMeasure_figures (hs : s.dev.state = .serving ∨ s.dev.state = .maintenance) (hm : s.power.meas = none)
    (ho : s.power.overvolt = false) :
    s.startMeasure.power.tempCeiling = true ∧ s.startMeasure.power.bankE = s.energyAt s.power.bankC s.power.bankEsr 30000 ∧
      ∃ x, s.startMeasure.power.meas = some x ∧ x.step = .dirty ∧ x.inService = true ∧ x.prevE = s.power.bankE := by
  rw [State.startMeasure_of_service hs hm ho, State.setEnergy_power]
  exact ⟨rfl, rfl, _, rfl, rfl, rfl, rfl⟩

variable (hm : s.power.meas = some m)
include hm

theorem measurementDrainDone_of_dirty (hd : m.step = .dirty) (ho : s.overCeiling = false) :
    Effect .measurementDrainDone s (s.setPower { s.power with
      chg := false, pathHold := true, pathMain := false, holdNext := true, meas := some { m with step := .drain } }) := by
  refine Effect.of_done (congrArg s.done ?_)
  simp only [hm, hd, ho, and_self, if_true]

theorem measurementDrainDone_of_over (ho : s.overCeiling = true) : Effect .measurementDrainDone s s := by
  refine Effect.of_done (congrArg s.done ?_)
  simp only [hm, ho, Bool.true_eq_false, and_false, if_false]

theorem drainTimeout_of_drain (hd : m.step = .drain) :
    Effect .drainTimeout s (((s.setPower { s.power with
      pathMain := true, pathHold := false, tempCeiling := false, meas := none
      measFlags := s.power.measFlags ||| 4#7 }).setEnergy m.prevE).endMeasCommands) := by
  refine Effect.of_done (congrArg s.done ?_)
  simp only [hm, hd, if_true]

theorem measurementTimeout_of_charge (hc : m.step = .charge) : Effect .measurementTimeout s (s.measFailed m) := by
  refine Effect.of_done (congrArg s.done ?_)
  simp only [hm, hc, true_or, if_true]

theorem energyEstimate_of_charging (hi : m.inService = false) :
    Effect .energyEstimate s ((s.setPower { s.power with measFlags := s.power.measFlags ||| 8#7 }).setEnergy
      (s.energyAt s.power.bankC s.power.bankEsr (s.adcMv 32))) := by
  refine Effect.of_done (congrArg s.done ?_)
  simp only [hm, hi, Bool.false_eq_true, if_false]

end

/-- Settles O41: each row by its own branch; the figures of a measurement that starts or fails by what is left of the power steward. -/
theorem bankMeasurement : Obligations.BankMeasurement := by
  intro m s
  refine ⟨fun h => ?_, fun h0 hh => ?_, fun h => ?_, State.startMeasure_figures, fun hm => ⟨measurementDrainDone_of_dirty hm,
    fun _ => measurementDrainDone_of_over hm, drainTimeout_of_drain hm, fun hc => ⟨measurementTimeout_of_charge hm hc, s.measFailed_figures m⟩,
    energyEstimate_of_charging hm⟩⟩
  · exact Effect.of_done (congrArg s.done (if_pos h))
  · exact Effect.of_done (congrArg s.done (if_pos ⟨h0, hh⟩))
  · exact Effect.of_done (congrArg s.done (if_neg (by omega)))

end Sys2Proof.Machine
end

section
/-! SUPPORT. Limits, parameters and the board description: O29. -/

namespace Sys2Proof.Machine

/-! ### The parameter store -/

/-- A record is what its two copies are (R401). -/
theorem Store.record_of_copies {a b : Store} {j : Nat} (h : ∀ c ≤ 1, Tab.find a.copies (2 * j + c) = Tab.find b.copies (2 * j + c)) :
    a.record j = b.record j := by
  have ht : a.taken j = b.taken j := by simp only [Store.taken, Store.seqOf, h 0 (by omega), h 1 (by omega)]
  unfold Store.record
  rw [ht]
  cases hk : b.taken j with
  | none => rfl
  | some c => simp only [h c (b.taken_le hk)]

/-- An operation that erases other records leaves a record as it is (R404). -/
theorem Store.record_eraseOp_other (st : Store) {ids : List Nat} {j : Nat} (h : j ∉ ids) : (st.eraseOp ids).record j = st.record j := by
  refine Store.record_of_copies fun c hc => ?_
  refine List.foldlRecOn ids Store.eraseRecord (motive := fun t : Store => Tab.find t.copies (2 * j + c) = Tab.find st.copies (2 * j + c)) rfl
    fun t ih i hi => ?_
  have hij : i ≠ j := fun e => h (e ▸ hi)
  rw [← ih, Store.eraseRecord, Tab.find_del, if_neg (by omega), Tab.find_del, if_neg (by omega)]

/-! ### SET_LIMITS (R376) -/

theorem Packet.u_lt (pkt : Packet) (off n : Nat) : pkt.u off n < 2 ^ (8 * n) := Nat.mod_lt _ (by positivity)

/-- What SET_LIMITS stores of a power-fail level: its multiple of 50 mV, with the limits beside it. -/
def State.limitPfw (s : State) (mv : Nat) : State :=
  let s := s.setReg rPwrPfwLevel (mv / 50 * 50)
  s.save recLimits (le 2 (s.reg rPwrBudget) ++ le 2 (s.reg rPwrPfwLevel) ++ zeros 4)

section
variable {port : Port} {pkt : Packet} {s s1 : State} {c : Cmd} (hs : Starts 0x52 port pkt s s1 c)
include hs

theorem setLimits_of_ceiling (hm : pkt.u 0x18 1 = 1) : Effect (.setLimits port pkt) s
    (((s1.setReg rCacheCeilLimit (pkt.u 0x1A 2)).recomputeCeiling s1.power.bankE).finish c 0 0 none) :=
  Effect.of_starts hs rfl (by rw [hm]; rfl)

theorem setLimits_of_pfw (hm : pkt.u 0x18 1 = 4) : ∃ s2 : State,
    Effect (.setLimits port pkt) s ((s2.recomputeCeiling s1.power.bankE).finish c 0 0 none) ∧ s2.reg rPwrPfwLevel = pkt.u 0x1E 2 / 50 * 50 ∧
      s2.store.record recLimits = some (le 2 (s1.reg rPwrBudget) ++ le 2 (pkt.u 0x1E 2 / 50 * 50) ++ zeros 4) := by
  have hu := Packet.u_lt pkt 0x1E 2
  have hr : (s1.setReg rPwrPfwLevel (pkt.u 0x1E 2 / 50 * 50)).reg rPwrPfwLevel = pkt.u 0x1E 2 / 50 * 50 := by
    rw [State.reg_setReg, if_pos rfl, Nat.mod_eq_of_lt (by omega)]
  have hb : (s1.setReg rPwrPfwLevel (pkt.u 0x1E 2 / 50 * 50)).reg rPwrBudget = s1.reg rPwrBudget := by
    rw [State.reg_setReg, if_neg (by decide)]
  refine ⟨s1.limitPfw (pkt.u 0x1E 2), Effect.of_starts hs rfl (by rw [hm]; rfl), hr, ?_⟩
  exact (Store.record_writeOp_same _ _ _).trans (by rw [hr, hb])

end

/-! ### HOLDUP_MEASURE (R367, R374) -/

section
variable {port : Port} {pkt : Packet} {s s1 : State} {c : Cmd} (hs : Starts 0x51 port pkt s s1 c)
include hs

theorem holdupMeasure_of_overvolt (ho : s1.power.overvolt = true) : Effect (.holdupMeasure port pkt) s
    (s1.finish c 0 0 (some (s1.powerResult (s1.power.measFlags ||| 18#7).toNat))) :=
  Effect.of_starts hs rfl (if_pos ho)

theorem holdupMeasure_of_no_overvolt (ho : s1.power.overvolt = false) :
    Effect (.holdupMeasure port pkt) s (s1.await c .measure).startMeasure :=
  Effect.of_starts hs rfl (if_neg (by simp [ho]))

end

/-! ### The board description (R379, R383 to R385) -/

section
variable (s : State)

/-- The bytes that are written stand in PENDING, and COMMITTED as it was (R383). -/
theorem State.writePending_records (b : List Byte) (off : Nat) :
    (s.writePending off b).boardRecord 1 = (s.boardRecord 1).take off ++ b ++ (s.boardRecord 1).drop (off + b.length) ∧
      (s.writePending off b).boardRecord 0 = s.boardRecord 0 :=
  ⟨congrArg (Option.getD · (zeros 512)) (Store.record_writeOp_same _ _ _),
    congrArg (Option.getD · (zeros 512)) (Store.record_writeOp_other _ (by decide) _)⟩

theorem State.commitBoard_dev : s.commitBoard.1.dev = s.dev := by
  unfold State.commitBoard
  dsimp only
  exact State.ite_keeps State.dev rfl rfl

/-- The record that BOARD_COMMIT forms is COMMITTED, with the link parameters stored or erased (R274, R384). -/
theorem State.commitBoard_record : s.commitBoard.1.store.record recBoard = some s.commitBoard.2 := by
  unfold State.commitBoard
  extract_lets g b body bd s2 link
  have hb : s2.store.record recBoard = some bd := Store.record_writeOp_same _ _ _
  dsimp only
  split
  · exact hb
  · refine (Store.record_eraseOp_other _ fun h => ?_).trans hb
    obtain ⟨i, hi, he⟩ := List.mem_map.mp h
    have hlt : i < 256 := List.mem_range.mp (List.mem_filter.mp hi).1
    have hid : 0x0100 + i = 0x0200 := he
    omega

variable {s} {c : Cmd}

theorem State.boardCommit_of_fault {reason off : Nat} (hf : s.pendingFault = some (reason, off)) :
    s.boardCommit c = (s.event portBoot 0x0A01 s.devicePath (le 1 reason ++ [0] ++ le 2 off ++ le 1 1)).finish c 0x02 0x7F none := by
  simp only [State.boardCommit, hf]

theorem State.boardCommit_of_good (hf : s.pendingFault = none) : s.boardCommit c = if s.dev.state = .held then
    (((s.commitBoard.1.loadBd s.commitBoard.2).goto .powering).mediaRails).finish c 0 0 none else s.commitBoard.1.finish c 0 0 none := by
  simp only [State.boardCommit, hf, s.commitBoard_dev, State.ok]

end

/-- Settles O29: each command by the branch of its own rules; what the store holds after a commit by the records that it erases. -/
theorem limitParameterAndBoardCommands : Obligations.LimitParameterAndBoardCommands := by
  refine ⟨fun port pkt s s1 c => ?_, fun port q pkt b s s1 c => ?_⟩
  · exact ⟨setLimits_of_ceiling, setLimits_of_pfw, fun hs => Effect.of_starts hs rfl rfl, holdupMeasure_of_overvolt, holdupMeasure_of_no_overvolt⟩
  · exact ⟨fun hs => Effect.of_starts hs rfl rfl, fun hs => ⟨Effect.of_starts hs rfl rfl, Effect.of_starts hs rfl rfl⟩, s.writePending_records b,
      fun _ _ hs hf => Effect.of_starts hs rfl (State.boardCommit_of_fault hf),
      fun hs hf hd => Effect.of_starts hs rfl ((State.boardCommit_of_good hf).trans (if_neg hd)),
      fun hs hf hd => Effect.of_starts hs rfl ((State.boardCommit_of_good hf).trans (if_pos hd)), s1.commitBoard_record⟩

end Sys2Proof.Machine
end

section
/-! SUPPORT. What reads that are lost, programs and erases that end, and units that leave service leave of the channels. -/

namespace Sys2Proof.Machine

section
variable (s : State)

theorem State.chans_of_kept {s t : State} (h : t.kept = s.kept) : t.chans = s.chans := congrArg Kept.chans h

@[simp] theorem State.ite_chans {c : Prop} [Decidable c] (a b : State) : (if c then a else b).chans = if c then a.chans else b.chans :=
  apply_ite State.chans c a b

@[simp] theorem State.foldl_chans {α : Type} {f : State → α → State} (hf : ∀ s a, (f s a).chans = s.chans) (l : List α) :
    (l.foldl f s).chans = s.chans := State.foldl_keeps State.chans hf s l

/-! ### Shared operations -/

@[simp] theorem State.event_chans (port code path : Nat) (params : List Byte) (tack : Nat) :
    (s.event port code path params tack).chans = s.chans := State.chans_of_kept (kept_event s _ _ _ _ _)
@[simp] theorem State.append_chans (r : JRec) : (s.append r).chans = s.chans := State.chans_of_kept (kept_append s r)
@[simp] theorem State.retire_chans (k : Nat) : (s.retire k).chans = s.chans := State.chans_of_kept (kept_retire s k)
@[simp] theorem State.ask_chans (t : Tack) : (s.ask t).1.chans = s.chans := State.chans_of_kept (kept_ask s t)
theorem State.chans_of_birth {s t : State} {x : Tack} {ch o : Option Nat} (h : s.birth x ch = (t, o)) : t.chans = s.chans :=
  State.chans_of_kept (kept_of_birth h)
@[simp] theorem State.spawnProgram_chans (op : TackOp) (e : BitVec 12) (rein : Option Rein) (db page : Nat) (cws : Tab PageCw) (what : ProgFor) :
    (s.spawnProgram op e rein db page cws what).1.chans = s.chans := s.ask_chans _
@[simp] theorem State.writeJournal_chans (p : JPage) (second : Bool) : (s.writeJournal p second).chans = s.chans :=
  State.chans_of_kept (kept_writeJournal s p second)
@[simp] theorem State.checkSpace_chans : s.checkSpace.chans = s.chans := State.chans_of_kept (kept_checkSpace s)
@[simp] theorem State.finish_chans (c : Cmd) (code detail : Nat) (r : Option (List Byte)) : (s.finish c code detail r).chans = s.chans :=
  State.chans_of_kept (kept_finish s c code detail r)
@[simp] theorem State.count_chans (code : Nat) (t : Tag) (isT : Bool) : (s.count code t isT).chans = s.chans :=
  State.chans_of_kept (kept_count s code t isT)
@[simp] theorem State.judge_chans (ch : Nat) : (s.judge ch).chans = s.chans := State.chans_of_kept (kept_judge s ch)
@[simp] theorem State.deliver_chans (k : Nat) (bs : List Byte) (poison : Bool) : (s.deliver k bs poison).chans = s.chans :=
  State.chans_of_kept (kept_deliver s k bs poison)
@[simp] theorem State.dropStale_chans (leaf : Nat) : (s.dropStale leaf).chans = s.chans := State.chans_of_kept (kept_dropStale s leaf)
@[simp] theorem State.poisonLeaf_chans (leaf reason : Nat) (at' : Option MediaAddr) : (s.poisonLeaf leaf reason at').chans = s.chans :=
  State.chans_of_kept (kept_poisonLeaf s leaf reason at')
@[simp] theorem State.spawnSegRead_chans (g : Nat) (host : Bool) (parent cmd : Option Nat) : (s.spawnSegRead g host parent cmd).chans = s.chans :=
  State.chans_of_kept (kept_spawnSegRead s g host parent cmd)

@[simp] theorem State.bump_chans (off lo w k : Nat) : (s.bump off lo w k).chans = s.chans := by rfl
@[simp] theorem State.updPb_chans (k : Nat) (f : PbRec → PbRec) : (s.updPb k f).chans = s.chans := by rfl
@[simp] theorem State.updTack_chans (k : Nat) (f : Tack → Tack) : (s.updTack k f).chans = s.chans := by rfl
@[simp] theorem State.updLife_chans (k : Nat) (f : Life → Life) : (s.updLife k f).chans = s.chans := by rfl
@[simp] theorem State.eraseCells_chans (ks : List Nat) : (s.eraseCells ks).chans = s.chans := by rfl
@[simp] theorem State.setEntry_chans (g : Nat) (e : DirEntry) : (s.setEntry g e).chans = s.chans := by rfl
@[simp] theorem State.setRenew_chans (r : Option Renew) : (s.setRenew r).chans = s.chans := by rfl
@[simp] theorem State.setStitch_chans (i : Nat) (x : Stitch) : (s.setStitch i x).chans = s.chans := by rfl
@[simp] theorem State.setCopies_chans (cs : Tab ImgCopy) : (s.setCopies cs).chans = s.chans := by rfl
@[simp] theorem State.setLeaving_chans (us : List Leaving) : (s.setLeaving us).chans = s.chans := by rfl
@[simp] theorem State.loseCopy_chans (p block : Nat) : (s.loseCopy p block).chans = s.chans := by rfl
@[simp] theorem State.leaveStitch_chans (db : Nat) : (s.leaveStitch db).chans = s.chans := by rfl

@[simp] theorem State.updDb_chans (db : Nat) (f : PbRec → PbRec) : (s.updDb db f).chans = s.chans := by
  simp [State.updDb]

@[simp] theorem State.unqueueCopy_chans (db : Nat) : (s.unqueueCopy db).chans = s.chans := by
  simp [State.unqueueCopy]

@[simp] theorem State.setDrfOvr_chans (ch : Nat) (on : Bool) : (s.setDrfOvr ch on).chans = s.chans := by
  simp [State.setDrfOvr]

@[simp] theorem State.checkOverride_chans (ch : Nat) : (s.checkOverride ch).chans = s.chans := s.setDrfOvr_chans ch _

/-! ### Erases and retirement -/

@[simp] theorem State.eraseNow_chans (ks : List Nat) (f : PbRec → PbRec) : (s.eraseNow ks f).chans = s.chans := by
  simp [State.eraseNow]

@[simp] theorem State.replacePb_chans (db plane : Nat) (gone : Bool) : (s.replacePb db plane gone).chans = s.chans := by
  simp only [State.replacePb]
  split
  · rfl
  · split
    · simp
    · simp

@[simp] theorem State.retirePb_chans (k reason : Nat) : (s.retirePb k reason).chans = s.chans := by
  simp [State.retirePb]

@[simp] theorem State.retireMarked_chans (db : Nat) : (s.retireMarked db).chans = s.chans := by
  simp [State.retireMarked]

@[simp] theorem State.erasedPbs_chans (ks : List Nat) (st : PbSt → PbSt) : (s.erasedPbs ks st).chans = s.chans := by
  simp [State.erasedPbs]

@[simp] theorem State.spawnSystemErase_chans (e : BitVec 12) (db : Nat) : (s.spawnSystemErase e db).chans = s.chans := by
  simp [State.spawnSystemErase]

@[simp] theorem State.spawnErase_chans (db : Nat) : (s.spawnErase db).chans = s.chans := by
  unfold State.spawnErase
  extract_lets t p
  split
  rename_i u o hb
  have h := State.chans_of_birth hb
  split
  · exact h
  · exact h

@[simp] theorem State.startErase_chans (k : Nat) (p : Program) : (s.startErase k p).chans = s.chans := by
  unfold State.startErase
  split
  · rfl
  · simp

/-! ### Stitches -/

@[simp] theorem State.settleAt_chans (i : Nat) : (s.settleAt i).chans = s.chans := by
  unfold State.settleAt
  dsimp only
  refine State.ite_keeps State.chans rfl (State.foldl_keeps State.chans (fun s m => ?_) (s.setStitch i _) _)
  split
  · simp
  · rfl

@[simp] theorem State.closeMember_chans (i m : Nat) : (s.closeMember i m).chans = s.chans := by
  unfold State.closeMember
  dsimp only
  split
  · rfl
  · simp

@[simp] theorem State.sealStitch_chans (i : Nat) (bare : Bool) : (s.sealStitch i bare).chans = s.chans := by
  unfold State.sealStitch
  extract_lets x s1 s2 s3
  have h3 : s3.chans = s2.chans := State.foldl_keeps State.chans (fun s m => by split; all_goals simp) s2 _
  simp [h3, s2, s1]

@[simp] theorem State.freeParity_chans (db : Nat) : (s.freeParity db).chans = s.chans := by
  simp [State.freeParity]

@[simp] theorem State.releaseIf_chans (i : Nat) : (s.releaseIf i).chans = s.chans := by
  unfold State.releaseIf
  split
  · rfl
  · simp

@[simp] theorem State.releaseAll_chans : s.releaseAll.chans = s.chans := by
  simp [State.releaseAll]

@[simp] theorem State.eraseDone_chans (db : Nat) (failed : List Nat) : (s.eraseDone db failed).chans = s.chans := by
  simp [State.eraseDone]

@[simp] theorem State.force_chans (db : Nat) (planes : List Nat) : (s.force db planes).chans = s.chans := by
  simp [State.force]

/-! ### Copies of images and boot records -/

@[simp] theorem State.rewriteBoot_chans (p : Nat) : (s.rewriteBoot p).chans = s.chans := by
  simp [State.rewriteBoot]

@[simp] theorem State.writeBoot_chans (p : Nat) : (s.writeBoot p).chans = s.chans := by
  simp [State.writeBoot]

@[simp] theorem State.bootEnded_chans (p : Nat) (fail : Bool) : (s.bootEnded p fail).chans = s.chans := by
  simp [State.bootEnded]

@[simp] theorem State.rejectStage_chans (sub : Nat) : (s.rejectStage sub).chans = s.chans := by
  unfold State.rejectStage
  dsimp only
  split
  · simp
  · simp

@[simp] theorem State.copyOn_chans (p : Nat) (x : ImgCopy) : (s.copyOn p x).chans = s.chans := by
  unfold State.copyOn
  split
  · simp
  · split
    · rfl
    · split
      · simp
      · simp

@[simp] theorem State.imageOn_chans : s.imageOn.chans = s.chans := by
  unfold State.imageOn
  split
  · rfl
  · extract_lets s1 s2
    have h1 : s1.chans = s.chans := by simp [s1]
    refine State.ite_keeps State.chans (by simp [h1]) (State.ite_keeps State.chans ?_ h1)
    split
    · exact State.ite_keeps State.chans ((State.finish_chans _ _ _ _ _).trans h1) h1
    · exact h1

@[simp] theorem State.beginCopy_chans (p block : Nat) (again : Bool) : (s.beginCopy p block again).chans = s.chans := by
  simp [State.beginCopy]

@[simp] theorem State.moveCopy_chans (p : Nat) (x : ImgCopy) : (s.moveCopy p x).chans = s.chans := by
  simp [State.moveCopy]

@[simp] theorem State.imageEnded_chans (p page : Nat) (fail : Bool) : (s.imageEnded p page fail).chans = s.chans := by
  unfold State.imageEnded
  split
  · rfl
  · simp

@[simp] theorem State.copyErased_chans (db : Nat) (failed : Bool) : (s.copyErased db failed).chans = s.chans := by
  unfold State.copyErased
  split
  · rfl
  · simp

@[simp] theorem State.renewProgram_chans (r : Renew) : (s.renewProgram r).chans = s.chans := by
  unfold State.renewProgram
  dsimp only
  split
  · simp
  · simp

@[simp] theorem State.renewMove_chans (r : Renew) : (s.renewMove r).chans = s.chans := by
  simp [State.renewMove]

@[simp] theorem State.renewEnded_chans (db page : Nat) (fail : Bool) : (s.renewEnded db page fail).chans = s.chans := by
  unfold State.renewEnded
  split
  · simp
  · rfl

@[simp] theorem State.profileOn_chans : s.profileOn.chans = s.chans := by
  unfold State.profileOn
  split
  · rfl
  · split
    · rfl
    · simp

@[simp] theorem State.imageErased_chans (db : Nat) (failed : Bool) : (s.imageErased db failed).chans = s.chans := by
  unfold State.imageErased
  split
  · simp
  · split
    · simp
    · simp

@[simp] theorem State.positionOff_chans (die : Nat) : (s.positionOff die).chans = s.chans := by
  unfold State.positionOff
  dsimp only
  rw [State.profileOn_chans, State.imageOn_chans]
  split
  · simp
  · rfl

/-! ### Ends of programs and erases -/

@[simp] theorem State.weltNext_chans (die : Nat) : (s.weltNext die).chans = s.chans := by
  unfold State.weltNext
  repeat' split
  all_goals simp

@[simp] theorem State.weltEnded_chans (die j : Nat) (fail : Bool) : (s.weltEnded die j fail).chans = s.chans := by
  unfold State.weltEnded
  repeat' split
  all_goals simp

@[simp] theorem State.spawnBrandRow_chans (die r : Nat) : (s.spawnBrandRow die r).chans = s.chans := s.ask_chans _

@[simp] theorem State.systemErased_chans (db : Nat) (failed : List Nat) : (s.systemErased db failed).chans = s.chans := by
  unfold State.systemErased
  dsimp only
  split
  · simp
  · split
    · split
      · simp
      · simp
    · simp

@[simp] theorem State.eraseEnded_chans (k : Nat) (t : Tack) (p : Program) (fail : Bool) (db : Nat) (system : Bool) :
    (s.eraseEnded k t p fail db system).chans = s.chans := by
  simp [State.eraseEnded]

@[simp] theorem State.markFailed_chans (p : Program) : (s.markFailed p).chans = s.chans := by
  simp [State.markFailed]

@[simp] theorem State.notePages_chans (p : Program) : (s.notePages p).chans = s.chans := by
  simp [State.notePages, State.notePage]

@[simp] theorem State.lineWritten_chans (leaf : Nat) : (s.lineWritten leaf).chans = s.chans := by
  unfold State.lineWritten
  repeat' split
  all_goals rfl

@[simp] theorem State.leavesWritten_chans (p : Program) (stitch member : Nat) : (s.leavesWritten p stitch member).chans = s.chans := by
  unfold State.leavesWritten
  dsimp only
  split
  · rfl
  · simp only [State.settleAt_chans, State.ite_chans, State.closeMember_chans, State.setBlocks_chans, ite_self]
    refine State.foldl_keeps State.chans (fun s e => ?_) (s.setStitch _ _) _
    split
    · simp
    · rfl

@[simp] theorem State.leavesFailed_chans (p : Program) (stitch member : Nat) : (s.leavesFailed p stitch member).chans = s.chans := by
  unfold State.leavesFailed
  dsimp only
  split
  · rfl
  · rw [State.setBlocks_chans]
    refine (State.foldl_keeps State.chans (fun s o => ?_) _ _).trans (by simp)
    split
    · rfl
    · rfl

@[simp] theorem State.parityEnded_chans (stitch row : Nat) (second fail : Bool) : (s.parityEnded stitch row second fail).chans = s.chans := by
  simp [State.parityEnded]

@[simp] theorem State.takeBlank_chans (db : Nat) : (s.takeBlank db).chans = s.chans := by
  simp [State.takeBlank]

@[simp] theorem State.mapPage_chans (d : Nat) : (s.mapPage d).1.chans = s.chans := by
  unfold State.mapPage
  split
  · rfl
  · split
    · rfl
    · simp

@[simp] theorem State.writeImages_chans (is : List SegImage) (second : Bool) (notOctet : Option Nat) :
    (s.writeImages is second notOctet).1.chans = s.chans := by
  unfold State.writeImages
  split
  · rfl
  · rename_i d _
    have hm := s.mapPage_chans d
    split
    · rename_i h
      rw [h] at hm
      simpa using hm
    · rename_i h
      rw [h] at hm
      exact hm

@[simp] theorem State.segmentsFailed_chans (ids : List Nat) (second : Bool) : (s.segmentsFailed ids second).chans = s.chans := by
  unfold State.segmentsFailed
  extract_lets is other
  have hw := s.writeImages_chans is second other
  split
  · rename_i h
    rw [h] at hw
    exact hw
  · rename_i h
    rw [h] at hw
    refine (State.foldl_keeps State.chans (fun s e => ?_) _ _).trans hw
    rfl

@[simp] theorem State.segmentWritten_chans (g : Nat) : (s.segmentWritten g).chans = s.chans := by
  unfold State.segmentWritten
  split
  · rfl
  · dsimp only
    split
    · rfl
    · split
      · rfl
      · split
        · simp
        · simp

@[simp] theorem State.segmentsEnded_chans (ids : List Nat) (second : Bool) : (s.segmentsEnded ids second).chans = s.chans := by
  simp [State.segmentsEnded]

/-- A page that has ended goes on to its next group, or to what it was for. -/
theorem State.programEnded_chans (k : Nat) (t : Tack) (p : Program) (fail : Bool) : (s.programEnded k t p fail).chans = s.chans := by
  unfold State.programEnded
  extract_lets p' s1 page
  have hpage (next : State → State) (hn : ∀ u : State, (next u).chans = u.chans) : (page next).chans = s.chans := by
    simp [page, s1, hn]
  clear_value page
  split
  case h_1 | h_2 => simp
  case h_6 =>
    refine hpage _ fun u => ?_
    dsimp only
    split
    · split
      · simp
      · simp
    · simp [State.journalProgrammed]
  all_goals exact hpage _ fun u => by simp

@[simp] theorem State.programOff_chans (k : Nat) (t : Tack) (p : Program) : (s.programOff k t p).chans = s.chans := by
  unfold State.programOff
  split
  · simp
  · simp
  · exact s.programEnded_chans k t p true

/-! ### Units that leave service -/

@[simp] theorem State.programsOff_chans (die : Nat) : (s.programsOff die).chans = s.chans := by
  unfold State.programsOff
  extract_lets on waiting s1 s2
  have h2 : s2.chans = s1.chans := State.foldl_keeps State.chans (fun u t => by split; all_goals simp) s1 waiting
  refine (State.foldl_keeps State.chans (fun u e => ?_) s2 _).trans h2
  split
  · simp
  · rfl

@[simp] theorem State.closeOpen_chans (die : Nat) : (s.closeOpen die).chans = s.chans := by
  simp [State.closeOpen]

@[simp] theorem State.dieOff_chans (die : Nat) : (s.dieOff die).chans = s.chans := by
  simp [State.dieOff]

@[simp] theorem State.sweepSegment_chans (u : Leaving) (g : Nat) : (s.sweepSegment u g).chans = s.chans := by
  unfold State.sweepSegment
  split
  · rfl
  · simp

@[simp] theorem State.sweepOn_chans (u : Leaving) (gs : List Nat) : (s.sweepOn u gs).1.chans = s.chans := by
  induction gs generalizing s with
  | nil => rfl
  | cons g rest ih =>
    unfold State.sweepOn
    split
    · simp
    · rw [ih, State.sweepSegment_chans]

@[simp] theorem State.retireUnitPbs_chans (u : Leaving) : (s.retireUnitPbs u).chans = s.chans := by
  refine State.foldl_keeps State.chans (fun v d => ?_) s _
  refine State.ite_keeps State.chans rfl ?_
  rw [State.setCtl_chans]
  simp

@[simp] theorem State.endUnit_chans (u : Leaving) : (s.endUnit u).chans = s.chans := by
  simp [State.endUnit]

@[simp] theorem State.endUnits_chans : s.endUnits.chans = s.chans := by
  refine State.foldl_keeps State.chans (fun u x => ?_) s _
  refine State.ite_keeps State.chans rfl ?_
  have hw := u.sweepOn_chans x (x.sweep.getD (u.xlat.dir.map (fun e => e.1)))
  split
  · rename_i h
    simpa [h] using hw
  · rename_i h
    simpa [h] using hw

@[simp] theorem State.faultUnit_chans (level first n : Nat) : (s.faultUnit level first n).chans = s.chans := by
  simp [State.faultUnit]

/-! ### Reads that are lost -/

@[simp] theorem State.pumpRun_chans (op : TackOp) (e : BitVec 12) (x : ReadRun) (fuel : Nat) : (s.pumpRun op e x fuel).1.chans = s.chans := by
  induction fuel generalizing s x with
  | zero => rfl
  | succ n ih =>
    unfold State.pumpRun
    split
    · rfl
    · dsimp only
      split
      · rename_i hb
        rw [ih, State.chans_of_birth hb]
      · rfl

@[simp] theorem State.renewOn_chans : s.renewOn.chans = s.chans := by
  unfold State.renewOn
  split
  · rfl
  · simp only [State.renewReads, State.renewRewrite]
    split
    · split
      · rfl
      · simp
    · simp

@[simp] theorem State.renewRead_chans (a : MediaAddr) (bad : Bool) : (s.renewRead a bad).chans = s.chans := by
  unfold State.renewRead
  split
  · simp
  · rfl

@[simp] theorem State.lookFor_chans (a : MediaAddr) (gs : List Nat) : (s.lookFor a gs).1.chans = s.chans := by
  induction gs with
  | nil => rfl
  | cons g gs ih =>
    unfold State.lookFor
    split
    · simp
    · split
      · rfl
      · exact ih

@[simp] theorem State.logLost_chans (k : Nat) (a : MediaAddr) (leaf : Option Nat) : (s.logLost k a leaf).chans = s.chans :=
  s.event_chans _ _ _ _ _

@[simp] theorem State.loseLeaf_chans (a : MediaAddr) (leaf reason : Nat) : (s.loseLeaf a leaf reason).chans = s.chans := by
  simp [State.loseLeaf, State.holedOn]

@[simp] theorem State.endSearch_chans (x : Search) (leaf : Option Nat) : (s.endSearch x leaf).chans = s.chans := by
  unfold State.endSearch
  dsimp only
  split
  · simp
  · simp

@[simp] theorem State.searchLost_chans (k : Nat) (a : MediaAddr) (reason : Nat) : (s.searchLost k a reason).chans = s.chans := by
  refine State.foldl_keeps State.chans (fun u x => ?_) (s.setXlat _) _
  have hl := u.lookFor_chans x.addr x.rest
  split
  · rename_i h
    simpa [h] using hl
  · rename_i h
    simpa [h] using hl

@[simp] theorem State.scrubEnded_chans (a : MediaAddr) : (s.scrubEnded a).chans = s.chans := by
  simp [State.scrubEnded]

@[simp] theorem State.reassessed_chans (die : Nat) : (s.reassessed die).chans = s.chans := by
  unfold State.reassessed
  dsimp only
  refine State.ite_keeps State.chans ?_ ?_
  all_goals split
  all_goals rfl

@[simp] theorem State.brandRow_chans (a : MediaAddr) (h : Option (List Nat)) : (s.brandRow a h).chans = s.chans := by
  unfold State.brandRow
  dsimp only
  split
  · simp
  · rfl

@[simp] theorem State.memberLost_chans (t : Tack) (a : MediaAddr) : (s.memberLost t a).chans = s.chans := by
  unfold State.memberLost
  split
  · rfl
  · rfl

@[simp] theorem State.countLost_chans (a : MediaAddr) : (s.countLost a).chans = s.chans := by rfl

@[simp] theorem State.segNext_chans (k : Nat) (t : Tack) (r : MediaRead) (ok : Bool) : (s.segNext k t r ok).chans = s.chans := by
  unfold State.segNext
  dsimp only
  split
  · rfl
  · rfl

@[simp] theorem State.readLost_chans (k : Nat) (t : Tack) (a : MediaAddr) (reason : Nat) : (s.readLost k t a reason).chans = s.chans := by
  unfold State.readLost
  split
  · simp
  · simp [State.burnishEnded]
  · simp
  · dsimp only
    split
    · simp
    · simp
  · simp

@[simp] theorem State.askMembers_chans (k : Nat) : (s.askMembers k).chans = s.chans := by
  unfold State.askMembers
  split
  · rfl
  · split
    · rfl
    · refine State.foldl_keeps State.chans (fun u m => ?_) s _
      split
      · rfl
      · dsimp only
        split
        · rename_i hb
          have h := State.chans_of_birth hb
          exact h
        · rename_i hb
          exact State.chans_of_birth hb

@[simp] theorem State.toStitch_chans (k : Nat) (t : Tack) (r : MediaRead) (reason : Nat) : (s.toStitch k t r reason).chans = s.chans := by
  unfold State.toStitch
  split
  · simp
  · simp

@[simp] theorem State.divert_chans (die : Nat) : (s.divert die).chans = s.chans := by
  simp [State.divert]

end

end Sys2Proof.Machine
end

section
/-! SUPPORT. The sequences of the rails, and channels that do not start: O40. -/

namespace Sys2Proof.Machine

/-! ### Dies that lose power (R72) -/

theorem Tab.key_ne_of_mem_del {α : Type} {t : Tab α} {k : Nat} {e : Nat × α} (h : e ∈ Tab.del t k) : e.1 ≠ k := by
  induction t with
  | nil => exact absurd h List.not_mem_nil
  | cons x r ih =>
    unfold Tab.del at h
    split at h
    · exact ih h
    · rename_i hk
      rcases List.mem_cons.mp h with rfl | h
      · exact hk
      · exact ih h

section
variable (s : State)

theorem State.spoil_store (k : Nat) (o : ArrayOp) : (s.spoil k o).store = s.store := State.ite_keeps State.store rfl rfl

theorem State.dieDark_frame (k : Nat) : (s.dieDark k).power = s.power ∧ (s.dieDark k).store = s.store := by
  unfold State.dieDark
  dsimp only
  split
  · exact ⟨State.spoil_power, s.spoil_store k _⟩
  · exact ⟨rfl, rfl⟩

theorem State.darken_power (p : Nat → Bool) : (s.darken p).power = s.power :=
  State.foldl_keeps State.power (fun s k => (s.dieDark_frame k).1) s _

theorem State.darken_store (p : Nat → Bool) : (s.darken p).store = s.store :=
  State.foldl_keeps State.store (fun s k => (s.dieDark_frame k).2) s _

/-- A die that is listed once some have lost power was listed before, and is none of them. -/
theorem State.mem_dies_of_dark {ks : List Nat} {e : Nat × Die} (h : e ∈ (ks.foldl State.dieDark s).dies) : e ∈ s.dies ∧ e.1 ∉ ks := by
  induction ks generalizing s with
  | nil => exact ⟨h, List.not_mem_nil⟩
  | cons k r ih =>
    obtain ⟨hd, hr⟩ := ih _ h
    rw [State.dieDark_dies] at hd
    exact ⟨(Tab.del_sublist _ _).subset hd, List.not_mem_cons_of_ne_of_not_mem (Tab.key_ne_of_mem_del hd) hr⟩

/-- No die is left once all have lost power. -/
theorem State.darken_all_dies : (s.darken (fun _ => true)).dies = [] := by
  refine List.eq_nil_iff_forall_not_mem.mpr fun e he => ?_
  obtain ⟨hd, hk⟩ := State.mem_dies_of_dark s he
  exact hk (List.mem_map_of_mem (List.mem_filter.mpr ⟨hd, rfl⟩))

theorem State.darken_of_no_dies {s : State} (h : s.dies = []) (p : Nat → Bool) : s.darken p = s := by
  simp [State.darken, h]

end

/-! ### What a step's end leaves of the power steward -/

section
variable {s t : State} (h : s.Trails t)
include h

theorem State.Trails.rails : t.power.rails = s.power.rails := by
  have hp := congrArg Power.rails h.power
  exact hp

theorem State.Trails.adc : t.power.adc = s.power.adc := by
  have hp := congrArg Power.adc h.power
  exact hp

theorem State.Trails.timedOut : t.power.timedOut = s.power.timedOut := by
  have hp := congrArg Power.timedOut h.power
  exact hp

end

/-! ### A rail that comes, and one that does not (R354, R357, R358, Table 11.3) -/

section
variable {s : State} {i : Nat}

theorem State.afterProgram_of_no_fault (h : s.power.faultWait = none) : s.afterProgram = s := by
  simp only [State.afterProgram, h]

/-- Raises a rail of the device and waits for it. -/
def State.raiseRail (s : State) (i : Nat) : State :=
  (s.enableRail i true).setPower { (s.enableRail i true).power with up := .rail i }

theorem State.mem_rails_raiseRail (s : State) (i : Nat) : i ∈ (s.raiseRail i).power.rails :=
  List.mem_append_right _ (List.mem_singleton_self _)

theorem State.raiseRail_timedOut (s : State) (i : Nat) : (s.raiseRail i).power.timedOut = s.power.timedOut := rfl
theorem State.raiseRail_dev (s : State) (i : Nat) : (s.raiseRail i).dev = s.dev := rfl

/-- The rails of the device follow one another. -/
theorem State.stepUp_of_rail (hu : s.power.up = .rail i) (hi : i < 5) (ho : s.power.offAsked = false) (ok : Bool) :
    s.stepUp ok = s.raiseRail (i + 1) := by
  simp [State.stepUp, hu, hi, ho, State.raiseRail]

/-- A conversion of `v` mV of the converter's next slot. -/
def State.converted (s : State) (v : Nat) : State :=
  s.setPower { s.power with conv := s.power.conv + 1, adc := Tab.put s.power.adc s.power.adcSlot v, holdNext := true
                            adcSlot := (s.power.adcSlot + 1) % 40 }

theorem exec_adcConversion_of_rail {mv : BitVec 16} (hp : s.power.pathHold = false) (hs : s.power.adcSlot < 30) :
    exec (.adcConversion mv) s = s.done ((s.converted mv.toNat).railConv s.power.adcSlot mv.toNat).afterProgram := by
  have e : exec (.adcConversion mv) s = execAdcConversion mv s := rfl
  have h32 : s.power.adcSlot ≠ 32 := by omega
  have h33 : ¬ 33 ≤ s.power.adcSlot := by omega
  simp only [e, execAdcConversion, hp, hs, h32, h33, Bool.false_and, Bool.false_eq_true, Bool.not_false, if_false, if_true, true_or, State.converted]

theorem exec_adcConversion_of_no_rail {mv : BitVec 16} (hp : s.power.pathHold = false) (hs : s.power.adcSlot = 30) :
    exec (.adcConversion mv) s = s.done (s.converted mv.toNat).afterProgram := by
  have e : exec (.adcConversion mv) s = execAdcConversion mv s := rfl
  simp [e, execAdcConversion, hp, hs, State.converted]

/-- A conversion of the rail that power-up waits for is judged by its window. -/
theorem State.railConv_of_wait {mv : Nat} (hu : s.power.up = .rail i) (hi : i < 5) (hs : s.dev.state = .powering) :
    s.railConv i mv = if inWindow i mv then s.stepUp true else s := by
  have h31 : i ≠ 31 := by omega
  simp only [State.railConv, hu, h31, UpStep.slot, State.railUp, hs, if_true, if_false]

variable {mv : BitVec 16} (hp : s.power.pathHold = false) (ha : s.power.adcSlot = i) (hi : i < 5) (hu : s.power.up = .rail i)
  (hs : s.dev.state = .powering) (hf : s.power.faultWait = none)
include hp ha hi hu hs hf

theorem adcConversion_of_window (ho : s.power.offAsked = false) (hw : inWindow i mv.toNat = true) :
    Answers (.adcConversion mv) s (fun t => t.power.up = .rail (i + 1) ∧ i + 1 ∈ t.power.rails ∧ t.adcMv i = mv.toNat) := by
  have hr := (State.railConv_of_wait (s := s.converted mv.toNat) hu hi hs).trans
    ((if_pos hw).trans (State.stepUp_of_rail (s := s.converted mv.toNat) hu hi ho true))
  have hx := exec_adcConversion_of_rail (mv := mv) hp (by omega)
  rw [ha, hr, State.afterProgram_of_no_fault (s := (s.converted mv.toNat).raiseRail (i + 1)) hf] at hx
  refine Answers.of_done hx fun t ht => ⟨congrArg Power.up ht.power, ?_, ?_⟩
  · rw [ht.rails]
    exact State.mem_rails_raiseRail _ _
  · rw [State.adcMv, ht.adc, ← ha]
    exact Tab.get_put_self _ _ _ _

theorem adcConversion_of_no_window (hw : inWindow i mv.toNat = false) :
    Answers (.adcConversion mv) s (fun t => t.power.up = .rail i ∧ t.power.rails = s.power.rails) := by
  have hr : (s.converted mv.toNat).railConv i mv.toNat = s.converted mv.toNat :=
    (State.railConv_of_wait (s := s.converted mv.toNat) hu hi hs).trans (if_neg (by simp [hw]))
  have hx := exec_adcConversion_of_rail (mv := mv) hp (by omega)
  rw [ha, hr, State.afterProgram_of_no_fault (s := s.converted _) hf] at hx
  exact Answers.of_done hx fun t ht => ⟨(congrArg Power.up ht.power).trans hu, ht.rails⟩

end

section
variable {s : State} {i : Nat}

/-- What is recorded of a rail of the device that has not come in time (R358). -/
def State.railLate (s : State) (i : Nat) : State :=
  let s := (s.railFailed i).event portPower 0x0104 (s.railFailed i).devicePath (le 1 i ++ [0] ++ le 2 ((s.railFailed i).adcMv i) ++ le 1 0)
  s.setPower { s.power with timedOut := s.power.timedOut ++ [i] }

theorem State.railFailed_power (s : State) (i : Nat) : (s.railFailed i).power = s.power :=
  State.ite_keeps (fun u => (u.setBit rPwrStatus 4).power) rfl rfl

theorem State.railFailed_dev (s : State) (i : Nat) : (s.railFailed i).dev = s.dev :=
  State.ite_keeps (fun u => (u.setBit rPwrStatus 4).dev) rfl rfl

theorem State.railLate_power (s : State) (i : Nat) : (s.railLate i).power = { s.power with timedOut := s.power.timedOut ++ [i] } := by
  simp only [State.railLate, State.setPower_power, State.event_power, State.railFailed_power]

theorem State.railLate_dev (s : State) (i : Nat) : (s.railLate i).dev = s.dev := by
  simp only [State.railLate, State.setPower_dev, State.event_dev, State.railFailed_dev]

/-- A rail of the device that has not come is recorded, and the next one rises (R358). -/
theorem railTimeout_of_rail (hu : s.power.up = .rail i) (hi : i < 5) (ho : s.power.offAsked = false) :
    Answers .railTimeout s (fun t => t.power.up = .rail (i + 1) ∧ i ∈ t.power.timedOut ∧ i + 1 ∈ t.power.rails ∧ t.dev.state = s.dev.state) := by
  have hp := s.railLate_power i
  have hx : exec .railTimeout s = s.done ((s.railLate i).stepUp false) := by
    have e : exec .railTimeout s = execRailTimeout s := rfl
    simp only [e, execRailTimeout, hu, State.railLate]
  rw [State.stepUp_of_rail ((congrArg Power.up hp).trans hu) hi ((congrArg Power.offAsked hp).trans ho)] at hx
  refine Answers.of_done hx fun t ht => ⟨congrArg Power.up ht.power, ?_, ?_, ?_⟩
  · rw [ht.timedOut, State.raiseRail_timedOut, hp]
    exact List.mem_append_right _ (List.mem_singleton_self _)
  · rw [ht.rails]
    exact State.mem_rails_raiseRail _ _
  · rw [ht.dev, State.raiseRail_dev, State.railLate_dev]

theorem State.powerDown_regs (s : State) : s.powerDown.regs = s.regs := State.ite_keeps State.regs rfl rfl

/-- The device goes down when the bulk bus does not come (R359). -/
theorem railTimeout_of_bulk (hu : s.power.up = .bulk) :
    Answers .railTimeout s (fun t => t.dev.state = .poweringDown ∧ bit (t.reg rPwrStatus) 4 = true) := by
  have hx : exec .railTimeout s = s.done (State.powerDown (((s.setBit rPwrStatus 2).setBit rPwrStatus 4).event portPower 0x0104
      ((s.setBit rPwrStatus 2).setBit rPwrStatus 4).devicePath
      (le 1 31 ++ [0] ++ le 2 (((s.setBit rPwrStatus 2).setBit rPwrStatus 4).adcMv 31) ++ le 1 0))) := by
    have e : exec .railTimeout s = execRailTimeout s := rfl
    simp only [e, execRailTimeout, hu]
  refine Answers.of_done hx fun t ht => ⟨(congrArg Dev.state ht.dev).trans (State.powerDown_state _), ?_⟩
  rw [ht.reg _ (by decide), State.reg_congr (State.powerDown_regs _), State.reg_event _ _ _ _ _ (by decide)]
  exact State.bit_setBit _ _ (by decide)

theorem railTimeout_of_no_wait (hu : s.power.up = .none) : Effect .railTimeout s s := by
  refine Effect.of_done (congrArg s.done ?_)
  simp only [hu]

end

/-! ### Power-down (R360, R361, Table 11.4) -/

/-- The greatest of a list that is not empty is one of it, and no less than any. -/
theorem foldl_max_greatest (r : Nat) (rs : List Nat) :
    rs.foldl Nat.max r ∈ r :: rs ∧ ∀ x ∈ r :: rs, x ≤ rs.foldl Nat.max r :=
  List.max?_eq_some_iff.mp List.max?_cons'

section
variable {s : State}

/-- The device with its media without power. -/
def State.mediaDark (s : State) : State := { s.darken (fun _ => true) with chans := [] }

theorem State.mediaDark_power (s : State) : s.mediaDark.power = s.power := s.darken_power _
theorem State.mediaDark_dies (s : State) : s.mediaDark.dies = [] := s.darken_all_dies

theorem powerDown_of_busy (hb : s.arrayBusy = true) : Effect .powerDown s s :=
  Effect.of_done (congrArg s.done (if_pos (Or.inr (Or.inr hb))))

variable (hs : s.dev.state = .poweringDown) (hu : s.power.up = .none) (hb : s.arrayBusy = false)
include hs hu hb

theorem exec_powerDown_of_idle : exec .powerDown s = s.done s.mediaDark.lowerNext :=
  congrArg s.done (if_neg (by simp [hs, hu, hb]))

/-- The highest rail falls first. -/
theorem powerDown_of_rails {r : Nat} {rs : List Nat} (hr : s.power.rails = r :: rs) :
    Answers .powerDown s (fun t => ∃ m, t.power.up = .down m ∧ m ∈ s.power.rails ∧ (∀ x ∈ s.power.rails, x ≤ m) ∧
      m ∉ t.power.rails ∧ t.dies = []) := by
  obtain ⟨hm, hle⟩ := foldl_max_greatest r rs
  have hl : s.mediaDark.lowerNext = (s.mediaDark.enableRail (rs.foldl Nat.max r) false).setPower
      { (s.mediaDark.enableRail (rs.foldl Nat.max r) false).power with up := .down (rs.foldl Nat.max r) } := by
    simp only [State.lowerNext, State.mediaDark_power, hr]
  refine Answers.of_done ((exec_powerDown_of_idle hs hu hb).trans (congrArg s.done hl)) fun t ht =>
    ⟨_, congrArg Power.up ht.power, hr ▸ hm, hr ▸ hle, ?_, ht.dies.trans s.mediaDark_dies⟩
  rw [ht.rails]
  simp [State.enableRail]

/-- With no rail up the device is in STANDBY, its medium and store as they were. -/
theorem powerDown_of_no_rails (hr : s.power.rails = []) :
    Answers .powerDown s (fun t => t.dev.state = .standby ∧ t.tacks = [] ∧ t.dies = [] ∧ t.media = s.media ∧ t.store = s.store) := by
  have hl : s.mediaDark.lowerNext = s.mediaDark.standby := by
    simp only [State.lowerNext, State.mediaDark_power, hr]
  have hd := State.darken_of_no_dies s.mediaDark_dies (fun _ => true)
  refine Answers.of_done ((exec_powerDown_of_idle hs hu hb).trans (congrArg s.done hl)) fun t ht =>
    ⟨congrArg Dev.state ht.dev, ht.tacks, ht.dies, ?_, ?_⟩
  · have hm : s.mediaDark.standby.media = (s.mediaDark.darken (fun _ => true)).media := rfl
    rw [ht.media, hm, hd]
    exact State.darken_media hb _
  · have hst : s.mediaDark.standby.store = (s.mediaDark.darken (fun _ => true)).store := rfl
    rw [ht.store, hst, hd]
    exact s.darken_store _

end

/-! ### A channel that does not start (R79) -/

section
variable {s : State} {ch : Chan}

theorem State.failChannel_chans (s : State) (ch : Nat) : (s.failChannel ch).chans = Tab.put s.chans ch { s.chan ch with st := .fault } := by
  rw [State.failChannel, State.foldl_chans _ (fun s i => s.divert_chans _), State.faultUnit_chans]
  rfl

theorem State.failChannel_state (s : State) (ch : Nat) : ((s.failChannel ch).chan ch).st = .fault := by
  rw [State.chan, State.failChannel_chans, Tab.get_put_self]

theorem exec_channelStartTimeout_of_start (h : (s.chan ch).st = .reset ∨ (s.chan ch).st = .init ∨ (s.chan ch).st = .training) :
    exec (.channelStartTimeout ch) s = s.done (if (s.diesOf ch).any (fun k => (s.ctlOf k).online) then (s.failChannel ch).advance
      else s.setChan ch { s.chan ch with st := .offline }) := by
  have e : exec (.channelStartTimeout ch) s = execChannelStartTimeout ch s := rfl
  rcases h with h | h | h
  all_goals simp only [e, execChannelStartTimeout, h]

theorem channelStartTimeout_of_ready (h : (s.chan ch).st = .ready) : Effect (.channelStartTimeout ch) s s := by
  refine Effect.of_done (congrArg s.done ?_)
  simp only [h]

end

/-- Settles O40: each row by its own branch; what falls first by the greatest of the rails, and a channel that fails by the channels that
what follows from its fault leaves. -/
theorem railSequence : Obligations.RailSequence := by
  intro mv i ch s
  refine ⟨fun hp ha hi hu hs ho hf => ⟨adcConversion_of_window hp ha hi hu hs hf ho, adcConversion_of_no_window hp ha hi hu hs hf⟩,
    fun hp ha => ?_, railTimeout_of_rail, railTimeout_of_bulk, railTimeout_of_no_wait,
    fun r rs hs hu hr => ⟨powerDown_of_busy, fun hb => powerDown_of_rails hs hu hb hr⟩, powerDown_of_no_rails,
    fun hst => ⟨fun hon => ⟨?_, s.failChannel_state ch⟩, fun hon => ?_⟩, channelStartTimeout_of_ready⟩
  · have hc := exec_adcConversion_of_no_rail (mv := mv) hp ha
    rw [State.converted, ha] at hc
    exact Effect.of_done hc
  · exact Effect.of_done ((exec_channelStartTimeout_of_start hst).trans (congrArg s.done (if_pos hon)))
  · exact Effect.of_done ((exec_channelStartTimeout_of_start hst).trans (congrArg s.done (if_neg (by simp [hon]))))

end Sys2Proof.Machine
end

section
/-! SUPPORT. Events that the arbiter grants, the clocks of the store, and EVT_WIN: O12 and O60. -/

namespace Sys2Proof.Machine

section
variable (s : State)

/-! ### What the end of a step leaves of the event source's route (R409) -/

theorem State.Observed.store {s t : State} (h : s.Observed t) : t.store = s.store := (congrArg State.store h.eq).trans rfl
theorem State.Observed.intc {s t : State} (h : s.Observed t) : t.intc = s.intc := (congrArg State.intc h.eq).trans rfl
theorem State.intc_of_still {s t : State} (h : t.still = s.still) : t.intc = s.intc := (congrArg State.intc h : t.still.intc = s.still.intc)

theorem State.finish_intc (c : Cmd) (code detail : Nat) (r : Option (List Byte)) : (s.finish c code detail r).intc = s.intc :=
  State.intc_of_still (still_finish s c code detail r)

theorem State.nextRange_intc (n : Nat) : (s.nextRange n).intc = s.intc := by
  induction n generalizing s with
  | zero => rfl
  | succ n ih =>
    refine State.ite_keeps State.intc rfl (State.ite_keeps State.intc rfl ?_)
    split
    · rfl
    · rename_i r rest _
      extract_lets _ s' cmd fail
      have hfail (code : Nat) : (fail code).intc = s.intc := by
        clear_value cmd
        cases cmd with
        | none => exact ih s'
        | some c => exact (ih _).trans (State.finish_intc s' c code 0 none)
      exact State.ite_keeps State.intc (ih _) (State.ite_keeps State.intc (hfail _) (State.ite_keeps State.intc (hfail _) rfl))

theorem State.endRange_intc : s.endRange.intc = s.intc := by
  unfold State.endRange
  split
  · rfl
  · refine State.ite_keeps State.intc rfl ((State.nextRange_intc _ _).trans ?_)
    split
    · exact State.finish_intc _ _ _ _ _
    · rfl

theorem State.startStopped_intc : s.startStopped.intc = s.intc := by
  unfold State.startStopped
  extract_lets
  repeat' split
  all_goals rfl

theorem State.finishWaiters_intc : s.finishWaiters.intc = s.intc := by
  have hg : s.endGpf.intc = s.intc := State.ite_keeps State.intc rfl rfl
  unfold State.finishWaiters
  extract_lets u
  refine (State.startStopped_intc _).trans ((State.foldl_keeps State.intc (fun s c => ?_) u _).trans (s.endGpf.endRange_intc.trans hg))
  exact State.ite_keeps State.intc (State.finish_intc _ _ _ _ _) rfl

theorem State.countConds_intc (s0 : State) : (s0.countConds s).intc = s.intc := by
  refine State.ite_keeps State.intc rfl (State.foldl_keeps State.intc (fun s e => ?_) s _)
  exact State.ite_keeps State.intc (s.observed_addCount _ _).intc rfl

/-- An edge leaves the routes of other sources. -/
theorem State.edgeIf_route {id j : Nat} (h : id ≠ j) (c : Bool) : Tab.find (s.edgeIf id c).intc.host j = Tab.find s.intc.host j := by
  refine State.ite_keeps (fun u => Tab.find u.intc.host j) ?_ rfl
  show Tab.find (Tab.change s.intc.host id Route.setEdge) j = _
  unfold Tab.change
  split
  · rw [Tab.find_put, if_neg h]
  · rfl

theorem State.notify_host : s.notify.intc.host = s.intc.host := by
  refine State.foldl_keeps (fun u => u.intc.host) (fun s e => ?_) s _
  refine State.ite_keeps (fun u => u.intc.host) ?_ rfl
  rw [State.intc_of_still (still_msix _ _)]

/-- No end of a step gives the event source an edge: its edges come from records only. -/
theorem State.settle_eventRoute (s0 : State) : Tab.find (s0.settle s).intc.host 7 = Tab.find s.intc.host 7 := by
  have hf (u : State) : (s0.flagChanges u).intc = u.intc := State.ite_keeps State.intc rfl rfl
  have hl (u : State) : (s0.linkMessages u).intc = u.intc := State.ite_keeps State.intc rfl rfl
  unfold State.settle
  extract_lets u1 u2 u3 u4 u5 u6 u7 u8 u9
  have hu : u3.intc = s.intc := (hf u2).trans ((State.countConds_intc u1 s0).trans s.finishWaiters_intc)
  rw [hl, State.notify_host]
  iterate 6 rw [State.edgeIf_route _ (by decide)]
  rw [hu]

/-! ### Granted events (R407 to R411) -/

theorem State.observed_traceEvent (r : EvRec) : s.Observed (s.traceEvent r) := .ite (s.observed_frame _ _) (.refl s)

@[simp] theorem State.traceEvent_store (r : EvRec) : (s.traceEvent r).store = s.store := (s.observed_traceEvent r).store
@[simp] theorem State.traceEvent_intc (r : EvRec) : (s.traceEvent r).intc = s.intc := (s.observed_traceEvent r).intc

@[simp] theorem State.viewRecord_store (r : EvRec) : (s.viewRecord r).store = s.store := by
  unfold State.viewRecord
  dsimp only
  split
  · rfl
  · rfl

theorem Store.matchesLast_iff (st : Store) (e : Event) :
    st.matchesLast e = true ↔ st.evCount ≠ 0 ∧ (st.evAt (st.evCount - 1)).code = e.code ∧ (st.evAt (st.evCount - 1)).path = e.path ∧
      (st.evAt (st.evCount - 1)).cycles = st.powerCycles := by
  simp [Store.matchesLast, and_assoc]

/-- The record that a matching event leaves in the last place (R409). -/
def EvRec.repeated (r : EvRec) : EvRec := { r with repeats := Nat.min 0xFFFF (r.repeats + 1) }

section
variable {s} {e : Event}

theorem State.recordEvent_of_match (hm : s.store.matchesLast e = true) :
    (s.recordEvent e).store =
      { s.store with evlog := Tab.put s.store.evlog (s.store.evCount - 1) (s.store.evAt (s.store.evCount - 1)).repeated } ∧
    (s.recordEvent e).intc = s.intc := by
  simp only [State.recordEvent, hm, if_true, State.traceEvent_store, State.traceEvent_intc]
  exact ⟨rfl, rfl⟩

theorem State.recordEvent_of_full (hm : s.store.matchesLast e = false) (hc : s.store.evCount = 2048) :
    (s.recordEvent e).store = { s.store with evOverflow := Nat.min 0xFFFFFFFF (s.store.evOverflow + 1), evOverflowDirty := true } := by
  simp only [State.recordEvent, hm, hc, if_true, Bool.false_eq_true, if_false, State.traceEvent_store]
  split
  · rfl
  · rfl

theorem State.recordEvent_of_room (hm : s.store.matchesLast e = false) (hc : s.store.evCount ≠ 2048) :
    (s.recordEvent e).store =
      { s.store with evlog := Tab.put s.store.evlog s.store.evCount (s.store.recordOf e), evCount := s.store.evCount + 1 } := by
  simp only [State.recordEvent, hm, hc, Bool.false_eq_true, if_false, State.traceEvent_store, State.viewRecord_store]
  rfl

end

/-- The state once the arbiter has taken an event from port `p` and left `q` there (R407). -/
def State.granted (p : Nat) (q : List Event) : State :=
  s.setStore { s.store with ports := Tab.put s.store.ports p q, nextPort := (p + 1) % 16 }

section
variable {s} {p : Nat} {e : Event} {q : List Event} (hn : s.store.nextEvent = some (p, e, q))
include hn

theorem exec_eventGrant_of_next : exec .eventGrant s = s.done ((s.granted p q).recordEvent e) := by
  show execEventGrant s = _
  unfold execEventGrant
  rw [hn]
  rfl

theorem eventGrant_of_room (hm : s.store.matchesLast e = false) (hc : s.store.evCount < 2048) :
    Answers .eventGrant s (fun t => t.store.evCount = s.store.evCount + 1 ∧ Tab.get t.store.ports p [] = q ∧
      t.store.evAt s.store.evCount = s.store.recordOf e ∧ ∀ i, i ≠ s.store.evCount → t.store.evAt i = s.store.evAt i) := by
  refine Answers.of_done (exec_eventGrant_of_next hn) fun t ht => ?_
  rw [ht.store, State.recordEvent_of_room (s := s.granted p q) hm hc.ne]
  refine ⟨rfl, Tab.get_put_self _ _ _ _, Tab.get_put_self _ _ _ _, fun i hi => ?_⟩
  exact (Tab.get_put _ _ _ _ _).trans (if_neg hi.symm)

theorem eventGrant_of_match (hm : s.store.matchesLast e = true) :
    Answers .eventGrant s (fun t => t.store.evCount = s.store.evCount ∧
      t.store.evAt (s.store.evCount - 1) = (s.store.evAt (s.store.evCount - 1)).repeated ∧
      (∀ i, i ≠ s.store.evCount - 1 → t.store.evAt i = s.store.evAt i) ∧ t.store.evOverflow = s.store.evOverflow ∧
      Tab.find t.intc.host 7 = Tab.find s.intc.host 7) := by
  obtain ⟨hst, hi⟩ := State.recordEvent_of_match (s := s.granted p q) hm
  refine ⟨_, exec_eventGrant_of_next hn, ?_⟩
  beta_reduce
  rw [(settle_trails s _).store, hst, State.settle_eventRoute, hi]
  exact ⟨rfl, Tab.get_put_self _ _ _ _, fun i hne => (Tab.get_put _ _ _ _ _).trans (if_neg hne.symm), rfl, rfl⟩

theorem eventGrant_of_full (hm : s.store.matchesLast e = false) (hc : s.store.evCount = 2048) :
    Answers .eventGrant s (fun t => t.store.evlog = s.store.evlog ∧ t.store.evCount = 2048 ∧
      t.store.evOverflow = Nat.min 0xFFFFFFFF (s.store.evOverflow + 1)) := by
  refine Answers.of_done (exec_eventGrant_of_next hn) fun t ht => ?_
  rw [ht.store, State.recordEvent_of_full (s := s.granted p q) hm hc]
  exact ⟨rfl, hc, rfl⟩

end

/-! ### The clocks of the store (R403, R411, R128, R133) -/

section
variable {s}

theorem opSecondsTick_of_awake (hs : s.dev.state ≠ .standby) :
    Answers .opSecondsTick s (fun t => t.store = { s.store with opSeconds := s.store.opSeconds + 1 } ∧
      t.power.aonSeconds = s.power.aonSeconds + 1 ∧ t.chans = s.chans) :=
  Answers.of_done (congrArg s.done (if_neg hs)) fun _ ht => ⟨ht.store, congrArg Power.aonSeconds ht.power, ht.chans⟩

theorem opSecondsTick_of_standby (hs : s.dev.state = .standby) :
    Effect .opSecondsTick s { s with power := { s.power with aonSeconds := s.power.aonSeconds + 1, dark := s.power.dark + 1 } } :=
  Effect.of_done (congrArg s.done (if_pos hs))

theorem opSecondsSave_of_awake (hs : s.dev.state ≠ .standby) :
    Answers .opSecondsSave s (fun t => t.store.record recOpSeconds = some (le 8 s.store.opSeconds) ∧
      ∀ id, id ≠ recOpSeconds → t.store.record id = s.store.record id) := by
  refine Answers.of_done (congrArg s.done (if_neg hs)) fun t ht => ?_
  rw [ht.store]
  exact ⟨Store.record_writeOp_same _ _ _, fun id hid => Store.record_writeOp_other _ hid.symm _⟩

theorem evtOverflowSave_of_changed (hd : s.store.evOverflowDirty = true) :
    Answers .evtOverflowSave s (fun t => t.store.record recEvtOverflow = some (le 8 s.store.evOverflow) ∧ t.store.evOverflowDirty = false) := by
  refine Answers.of_done (congrArg s.done (if_pos hd)) fun t ht => ?_
  rw [ht.store]
  exact ⟨Store.record_writeOp_same _ _ _, rfl⟩

end

/-! ### EVT_WIN (R416) -/

section
variable {s} {off : BitVec 24} {v : Nat} {bad : Bool} (ho : s.barOpen = true) (hl : 0xD4000 ≤ off.toNat) (hh : off.toNat ≤ 0xD7FFF)
  (ha : off.toNat % 4 = 0) (hw : s.evtWord off.toNat = (v, bad))

include hw in
theorem State.evtWord_of_bad (hb : bad = true) : v = 0xFFFFFFFF := by
  unfold State.evtWord at hw
  dsimp only at hw
  split at hw
  · exact (congrArg Prod.fst hw).symm
  · exact absurd ((congrArg Prod.snd hw).trans hb) Bool.false_ne_true

include ho hl hh ha hw

theorem exec_evtWinRead_of_aligned : exec (.evtWinRead off) s = s.done
    (if bad then ((s.emit (.regRead off.toNat v)).setBit rPstoreStatus 2).bump rPstoreUncorr 0 32 1 else s.emit (.regRead off.toNat v)) := by
  have e : exec (.evtWinRead off) s = execEvtWinRead off s := rfl
  rw [e, execEvtWinRead, if_pos ⟨ho, hl, hh, ha⟩, hw]

theorem evtWinRead_of_bad (hb : bad = true) :
    Answers (.evtWinRead off) s (fun t => bit (t.reg rPstoreStatus) 2 = true ∧ t.store = s.store ∧
      t.reg rPstoreUncorr = Nat.min 0xFFFFFFFF (s.reg rPstoreUncorr + 1)) := by
  have hs : rPstoreStatus ∉ trailRegs := by decide
  have hu : rPstoreUncorr ∉ trailRegs := by decide
  have hr : regReset rPstoreUncorr < 2 ^ 32 := by decide
  refine Answers.of_done ((exec_evtWinRead_of_aligned ho hl hh ha hw).trans (congrArg s.done (if_pos hb))) fun t ht => ⟨?_, ht.store, ?_⟩
  · rw [ht.reg _ hs, State.reg_bump_of_ne _ 0 32 1 (by decide)]
    exact State.bit_setBit _ _ (by decide)
  · rw [ht.reg _ hu, State.reg_bump_word _ hr, State.setBit, State.setField, State.reg_setReg, if_neg (by decide)]
    rfl

end

end

/-- Settles O12: a grant by what a record event leaves of the store, the saves by the record that a write leaves. -/
theorem eventsAndSeconds : Obligations.EventsAndSeconds := by
  refine ⟨fun s p e q hn => ⟨eventGrant_of_room hn, fun hm => ?_, eventGrant_of_full hn⟩,
    fun s => ⟨opSecondsTick_of_awake, opSecondsTick_of_standby, opSecondsSave_of_awake, evtOverflowSave_of_changed⟩,
    fun off s v bad ho hl hh ha hw => ⟨fun hb => ?_, fun hb => ⟨State.evtWord_of_bad hw hb, evtWinRead_of_bad ho hl hh ha hw hb⟩⟩⟩
  · obtain ⟨t, hx, hc, hlast, -⟩ := eventGrant_of_match hn hm
    exact ⟨t, hx, hc, congrArg EvRec.repeats hlast⟩
  · exact Effect.of_done ((exec_evtWinRead_of_aligned ho hl hh ha hw).trans (congrArg s.done (if_neg (by simp [hb]))))

/-- Settles O60: the place that a matching event writes again, and the route that neither its record nor the end of the step changes. -/
theorem matchingEventRepeats : Obligations.MatchingEventRepeats := by
  intro s p e q r hn hr
  subst hr
  exact ⟨s.store.matchesLast_iff e, eventGrant_of_match hn⟩

end Sys2Proof.Machine
end

section
/-! SUPPORT. What each function of the model leaves of the event log, in the order of the model: O56. A function that leaves the store
as it is has a rule `_store`, one that writes it a rule `_logOk`, each from the rules of the functions it calls. This part: the log itself,
and what every command shares. -/

namespace Sys2Proof.Machine

/-- The event log holds no more than its places, and no port more than its queue. -/
def Store.LogOk (st : Store) : Prop := st.evCount ≤ 2048 ∧ ∀ p, (Tab.get st.ports p []).length ≤ 4

@[simp] theorem Store.logOk_ite {c : Prop} [Decidable c] (a b : Store) :
    (if c then a else b).LogOk ↔ if c then a.LogOk else b.LogOk := by
  split
  · rfl
  · rfl

/-- Only EVT_COUNT and the ports bear on it. -/
@[simp] theorem Store.logOk_update (st : Store) (copies : Tab StoreCopy) (journal : Tab SEntry) (opSeq : Nat) (evlog : Tab EvRec)
    (evOverflow : Nat) (evOverflowDirty : Bool) (nextPort opSeconds powerCycles : Nat) (bootAction : BitVec 2)
    (opsCompleted opsRolledBack wearNext : Nat) (wallKept : Bool) :
    Store.LogOk { st with copies := copies, journal := journal, opSeq := opSeq, evlog := evlog, evOverflow := evOverflow,
                          evOverflowDirty := evOverflowDirty, nextPort := nextPort, opSeconds := opSeconds, powerCycles := powerCycles,
                          bootAction := bootAction, opsCompleted := opsCompleted, opsRolledBack := opsRolledBack, wearNext := wearNext
                          wallKept := wallKept } ↔ st.LogOk := Iff.rfl

@[simp] theorem Store.logOk_writeOp (st : Store) (l : List (Nat × List Byte)) : (st.writeOp l).LogOk ↔ st.LogOk := by
  show Store.LogOk (l.foldl (fun st i => st.writeRecord i.1 i.2) st) ↔ _
  induction l generalizing st with
  | nil => rfl
  | cons a l ih => exact ih _

@[simp] theorem Store.logOk_eraseOp (st : Store) (l : List Nat) : (st.eraseOp l).LogOk ↔ st.LogOk := by
  show Store.LogOk (l.foldl Store.eraseRecord st) ↔ _
  induction l generalizing st with
  | nil => rfl
  | cons a l ih => exact ih _

section
variable (s : State)

@[simp] theorem State.ite_store {c : Prop} [Decidable c] (a b : State) : (if c then a else b).store = if c then a.store else b.store :=
  apply_ite State.store c a b

@[simp] theorem State.foldl_store {α : Type} {f : State → α → State} (hf : ∀ s a, (f s a).store = s.store) (l : List α) :
    (l.foldl f s).store = s.store := State.foldl_keeps State.store hf s l

@[simp] theorem State.foldl_logOk {α : Type} {f : State → α → State} (hf : ∀ s a, (f s a).store.LogOk ↔ s.store.LogOk)
    (l : List α) : (l.foldl f s).store.LogOk ↔ s.store.LogOk :=
  iff_of_eq (State.foldl_keeps (fun s => s.store.LogOk) (fun s a => propext (hf s a)) s l)

theorem State.logOk_congr {s t : State} (h : t.store = s.store) : t.store.LogOk ↔ s.store.LogOk := by rw [h]

theorem State.store_of_eq {β : Type} {p : State × β} {t : State} {b : β} (h : p = (t, b)) : t.store = p.1.store := by rw [h]

/-- An event enters a port of fewer than four, or is dropped (R407). -/
@[simp] theorem State.event_logOk (port code path : Nat) (params : List Byte) (tack : Nat) :
    (s.event port code path params tack).store.LogOk ↔ s.store.LogOk := by
  unfold State.event
  extract_lets q e
  split
  case isTrue h =>
    refine and_congr_right fun _ => forall_congr' fun p => ?_
    dsimp only
    rw [Tab.get_put]
    split
    · rename_i hp
      subst hp
      simp only [List.length_append, List.length_singleton, q] at h ⊢
      omega
    · rfl
  case isFalse h => rfl

/-! ### Registers -/

@[simp] theorem State.setField_store (off lo w x : Nat) : (s.setField off lo w x).store = s.store := by rfl
@[simp] theorem State.setBit_store (off i : Nat) : (s.setBit off i).store = s.store := by rfl
@[simp] theorem State.bump_store (off lo w k : Nat) : (s.bump off lo w k).store = s.store := by rfl
@[simp] theorem State.resetRegs_store (p : Nat → Bool) : (s.resetRegs p).store = s.store := by rfl

/-! ### Operations that every command shares -/

@[simp] theorem State.updLife_store (k : Nat) (f : Life → Life) : (s.updLife k f).store = s.store := by rfl
@[simp] theorem State.tick_store : s.tick.store = s.store := by rfl
@[simp] theorem State.raise_store (id : Nat) : (s.raise id).store = s.store := by rfl
@[simp] theorem State.goto_store (st : DevState) : (s.goto st).store = s.store := by rfl
@[simp] theorem State.addCount_store (k inc : Nat) : (s.addCount k inc).store = s.store := (trails_addCount s k inc).store
@[simp] theorem State.count_store (code : Nat) (t : Tag) (isT : Bool) : (s.count code t isT).store = s.store := by simp [State.count]
@[simp] theorem State.birthAt_store (k : Nat) (t : Tack) (ch : Option Nat) : (s.birthAt k t ch).store = s.store := by simp [State.birthAt]
@[simp] theorem State.frame_store (ty : Byte) (payload : List Byte) : (s.frame ty payload).store = s.store := by simp [State.frame]

@[simp] theorem State.retire_store (k : Nat) : (s.retire k).store = s.store := by
  unfold State.retire
  split
  all_goals simp

@[simp] theorem State.eraseCells_store (ks : List Nat) : (s.eraseCells ks).store = s.store := by rfl
@[simp] theorem State.updTack_store (k : Nat) (f : Tack → Tack) : (s.updTack k f).store = s.store := by rfl

/-! ### Ends of commands -/

@[simp] theorem State.setQueue_store (q : Nat) (x : Queue) : (s.setQueue q x).store = s.store := by rfl
@[simp] theorem State.msix_store (v : Nat) : (s.msix v).store = s.store := (trails_msix s v).store
@[simp] theorem State.settlePair_store (q : Fin 1024) : (s.settlePair q).store = s.store := (trails_settlePair s q).store
@[simp] theorem State.postReady_store (q fuel : Nat) : (s.postReady q fuel).store = s.store := (trails_postReady s q fuel).store
@[simp] theorem State.finish_store (c : Cmd) (code detail : Nat) (result : Option (List Byte)) :
    (s.finish c code detail result).store = s.store := (trails_finish s c code detail result).store
@[simp] theorem State.updCmd_store (id : Nat) (f : Cmd → Cmd) : (s.updCmd id f).store = s.store := by rfl
@[simp] theorem State.startDrain_store : s.startDrain.store = s.store := by rfl
@[simp] theorem State.nextRange_store (fuel : Nat) : (s.nextRange fuel).store = s.store := (trails_nextRange s fuel).store
@[simp] theorem State.leaveRange_store (r : RangeOp) : (s.leaveRange r).store = s.store := by rfl
@[simp] theorem State.endGpf_store : s.endGpf.store = s.store := (trails_endGpf s).store

/-! ### Ends of steps -/

@[simp] theorem State.flagChanges_store (s0 : State) : (s0.flagChanges s).store = s.store := (trails_flagChanges s0 s).store
@[simp] theorem State.settle_store (s0 : State) : (s0.settle s).store = s.store := (settle_trails s0 s).store

/-! ### What a command answers -/

/-- The state that an outcome answers, if any, keeps the bounds of the log. -/
def LogOkAfter (o : Host.Outcome State Fault Refusal) : Prop := match o with | .next t => t.store.LogOk | _ => True

@[simp] theorem logOkAfter_ite {c : Prop} [Decidable c] (a b : Host.Outcome State Fault Refusal) :
    LogOkAfter (if c then a else b) ↔ if c then LogOkAfter a else LogOkAfter b := by
  split
  · rfl
  · rfl

@[simp] theorem logOkAfter_done (x : State) : LogOkAfter (s.done x) ↔ x.store.LogOk := by
  show (s.settle x).store.LogOk ↔ _
  simp

/-! ### Dies and their bus -/

@[simp] theorem State.program_store (a : Nat) (c : Cell) : (s.program a c).store = s.store := by rfl
@[simp] theorem State.fulfil_store (k : Nat) (o : ArrayOp) (bufs : Tab Cell) : (s.fulfil k o bufs).store = s.store := by simp [State.fulfil]

@[simp] theorem State.dieSenseEnds_store (k : Nat) : (s.dieSenseEnds k).store = s.store := by
  simp only [State.dieSenseEnds]
  repeat' split
  all_goals simp

@[simp] theorem State.dieOpEnds_store (k : Nat) (erase fail : Bool) : (s.dieOpEnds k erase fail).store = s.store := by
  simp only [State.dieOpEnds]
  split
  all_goals simp [State.spoil_store]

@[simp] theorem State.dieReset_store (k : Nat) : (s.dieReset k).store = s.store := by
  simp only [State.dieReset]
  split
  all_goals simp [State.spoil_store]

@[simp] theorem State.dieTakes_store (ch d : Nat) (f : Die → Die) (reply : Die → List Byte) :
    (s.dieTakes ch d f reply).store = s.store := by simp [State.dieTakes]

theorem execAmc2Reset_logOk (ch : Chan) (d : DieNo) : LogOkAfter (execAmc2Reset ch d s) ↔ s.store.LogOk := by simp [execAmc2Reset]
theorem execAmc2Identify_logOk (ch : Chan) (d : DieNo) (mod : BitVec 6) : LogOkAfter (execAmc2Identify ch d mod s) ↔ s.store.LogOk := by
  simp [execAmc2Identify]
theorem execAmc2Status_logOk (ch : Chan) (d : DieNo) (mod : BitVec 6) : LogOkAfter (execAmc2Status ch d mod s) ↔ s.store.LogOk := by
  simp [execAmc2Status]
theorem execAmc2StatusScan_logOk (ch : Chan) (mod : BitVec 6) : LogOkAfter (execAmc2StatusScan ch mod s) ↔ s.store.LogOk := by
  simp [execAmc2StatusScan]
theorem execAmc2GetTemp_logOk (ch : Chan) (d : DieNo) (mod : BitVec 6) (temp : BitVec 16) :
    LogOkAfter (execAmc2GetTemp ch d mod temp s) ↔ s.store.LogOk := by simp [execAmc2GetTemp]
theorem execAmc2TrainRdPattern_logOk (ch : Chan) (d : DieNo) (mod : BitVec 6) :
    LogOkAfter (execAmc2TrainRdPattern ch d mod s) ↔ s.store.LogOk := by simp [execAmc2TrainRdPattern]
theorem execAmc2TrainWrStore_logOk (ch : Chan) (d : DieNo) (mod : BitVec 6) (data : List Byte) :
    LogOkAfter (execAmc2TrainWrStore ch d mod data s) ↔ s.store.LogOk := by simp [execAmc2TrainWrStore]
theorem execAmc2TrainRdStore_logOk (ch : Chan) (d : DieNo) (mod : BitVec 6) :
    LogOkAfter (execAmc2TrainRdStore ch d mod s) ↔ s.store.LogOk := by simp [execAmc2TrainRdStore]
theorem execAmc2TrainConfig_logOk (ch : Chan) (d : DieNo) (mod : BitVec 6) (word : BitVec 12) :
    LogOkAfter (execAmc2TrainConfig ch d mod word s) ↔ s.store.LogOk := by simp [execAmc2TrainConfig]
theorem execAmc2SetRef_logOk (ch : Chan) (d : DieNo) (mod : BitVec 6) (words : List (BitVec 12)) :
    LogOkAfter (execAmc2SetRef ch d mod words s) ↔ s.store.LogOk := by simp [execAmc2SetRef]
@[simp] theorem State.amc2Sense_store (ch d : Nat) (kind : SenseKind) (mod : BitVec 6) (c1 c2 c3 : BitVec 12) :
    (s.amc2Sense ch d kind mod c1 c2 c3).store = s.store := by rfl
@[simp] theorem State.amc2Xfer_store (ch d : Nat) (kind : SenseKind) (mod : BitVec 6) (c1 : BitVec 12) :
    (s.amc2Xfer ch d kind mod c1).store = s.store := by simp [State.amc2Xfer]
theorem execAmc2ReadPageSense_logOk (ch : Chan) (d : DieNo) (mod : BitVec 6) (c1 c2 : BitVec 12) :
    LogOkAfter (execAmc2ReadPageSense ch d mod c1 c2 s) ↔ s.store.LogOk := by simp [execAmc2ReadPageSense]
theorem execAmc2ReadPageXfer_logOk (ch : Chan) (d : DieNo) (mod : BitVec 6) (c1 : BitVec 12) :
    LogOkAfter (execAmc2ReadPageXfer ch d mod c1 s) ↔ s.store.LogOk := by simp [execAmc2ReadPageXfer]
theorem execAmc2ReadSoftSense_logOk (ch : Chan) (d : DieNo) (mod : BitVec 6) (c1 c2 c3 : BitVec 12) :
    LogOkAfter (execAmc2ReadSoftSense ch d mod c1 c2 c3 s) ↔ s.store.LogOk := by simp [execAmc2ReadSoftSense]
theorem execAmc2ReadSoftXfer_logOk (ch : Chan) (d : DieNo) (mod : BitVec 6) (c1 : BitVec 12) :
    LogOkAfter (execAmc2ReadSoftXfer ch d mod c1 s) ↔ s.store.LogOk := by simp [execAmc2ReadSoftXfer]
theorem execAmc2ReadHistSense_logOk (ch : Chan) (d : DieNo) (mod : BitVec 6) (c1 c2 : BitVec 12) :
    LogOkAfter (execAmc2ReadHistSense ch d mod c1 c2 s) ↔ s.store.LogOk := by simp [execAmc2ReadHistSense]
theorem execAmc2ReadHistXfer_logOk (ch : Chan) (d : DieNo) (mod : BitVec 6) (c1 : BitVec 12) :
    LogOkAfter (execAmc2ReadHistXfer ch d mod c1 s) ↔ s.store.LogOk := by simp [execAmc2ReadHistXfer]
theorem execAmc2ProgramLoad_logOk (ch : Chan) (d : DieNo) (mod : BitVec 6) (c1 c2 c3 : BitVec 12) (data : List Byte) (crc : Word) :
    LogOkAfter (execAmc2ProgramLoad ch d mod c1 c2 c3 data crc s) ↔ s.store.LogOk := by simp [execAmc2ProgramLoad]
theorem execAmc2ProgramStart_logOk (ch : Chan) (d : DieNo) (mod : BitVec 6) (c1 c2 c3 : BitVec 12) :
    LogOkAfter (execAmc2ProgramStart ch d mod c1 c2 c3 s) ↔ s.store.LogOk := by simp [execAmc2ProgramStart]
theorem execAmc2Erase_logOk (ch : Chan) (d : DieNo) (mod : BitVec 6) (c1 : BitVec 12) :
    LogOkAfter (execAmc2Erase ch d mod c1 s) ↔ s.store.LogOk := by simp [execAmc2Erase]
theorem execAmc2Suspend_logOk (ch : Chan) (d : DieNo) (mod : BitVec 6) : LogOkAfter (execAmc2Suspend ch d mod s) ↔ s.store.LogOk := by
  simp [execAmc2Suspend]
theorem execAmc2Resume_logOk (ch : Chan) (d : DieNo) (mod : BitVec 6) : LogOkAfter (execAmc2Resume ch d mod s) ↔ s.store.LogOk := by
  simp [execAmc2Resume]
theorem execAmc2FrameAbort_logOk (ch : Chan) (d : DieNo) : LogOkAfter (execAmc2FrameAbort ch d s) ↔ s.store.LogOk := by
  simp [execAmc2FrameAbort]
theorem execDieSenseEnd_logOk (ch : Chan) (d : DieNo) : LogOkAfter (execDieSenseEnd ch d s) ↔ s.store.LogOk := by simp [execDieSenseEnd]
theorem execDieEraseEnd_logOk (ch : Chan) (d : DieNo) (fail : Bool) : LogOkAfter (execDieEraseEnd ch d fail s) ↔ s.store.LogOk := by
  simp [execDieEraseEnd]
theorem execDieSuspendEnd_logOk (ch : Chan) (d : DieNo) : LogOkAfter (execDieSuspendEnd ch d s) ↔ s.store.LogOk := by
  simp [execDieSuspendEnd]

/-! ### Rein arbiters -/

@[simp] theorem State.markL1_store (ch : Nat) : (s.markL1 ch).store = s.store := by rfl
@[simp] theorem State.judge_logOk (ch : Nat) : (s.judge ch).store.LogOk ↔ s.store.LogOk := by simp [State.judge]
@[simp] theorem State.judgeAll_logOk : s.judgeAll.store.LogOk ↔ s.store.LogOk := by simp [State.judgeAll]
@[simp] theorem State.setDrfOvr_logOk (ch : Nat) (on : Bool) : (s.setDrfOvr ch on).store.LogOk ↔ s.store.LogOk := by simp [State.setDrfOvr]

@[simp] theorem State.stampPage_store (k : Nat) (p : Program) : (s.stampPage k p).store = s.store := by
  unfold State.stampPage
  split
  all_goals simp

@[simp] theorem State.holdLoads_store (ch : Nat) : (s.holdLoads ch).store = s.store := by
  refine State.foldl_store s (fun s x => ?_) _
  split
  all_goals simp

@[simp] theorem State.loadTaken_store (k : Nat) : (s.loadTaken k).store = s.store := by rfl
@[simp] theorem State.elapse_store (ch ck : Nat) : (s.elapse ch ck).store = s.store := by rfl
@[simp] theorem State.classify_store (ch ck : Nat) (c : SlotCat) : (s.classify ch ck c).store = s.store := by rfl
@[simp] theorem State.account_store (ch ck : Nat) (c : SlotCat) : (s.account ch ck c).store = s.store := by rfl
@[simp] theorem State.accountEmpty_store (ch : Nat) (kind : SlotKind) (won : Bool) : (s.accountEmpty ch kind won).store = s.store := by rfl

@[simp] theorem State.draw_store (ch : Nat) (withdraws : Bool) : (s.draw ch withdraws).store = s.store := by
  unfold State.draw
  extract_lets s1 a present ts v raised overridden
  split
  extract_lets winner s2 b1 b2 kind owner b3 s3 s4 s5 s6 s7 s8
  have h2 : s2.store = s.store := by simp [s2, s1]
  have h4 : s4.store = s3.store := by
    refine State.foldl_store s3 (fun s e => ?_) _
    split
    · rfl
    · rfl
  have h5 : s5.store = s4.store := by
    cases ho : owner with
    | none => simp [s5, ho]
    | some _ => simp [s5, ho]
  have h6 : s6.store = s5.store := by
    cases hw : winner with
    | none => simp [s6, hw]
    | some _ => simp [s6, hw]
  have h8 : s8.store = s6.store := by simp [s8, s7]
  simp [h8, h6, h5, h4, s3, h2]

@[simp] theorem State.endPhase_store (ch : Nat) : (s.endPhase ch).store = s.store := by rfl
@[simp] theorem State.withdraw_store (ch k : Nat) : (s.withdraw ch k).store = s.store := by simp [State.withdraw]
theorem execArbDraw_logOk (ch : Chan) (withdraws : Bool) : LogOkAfter (execArbDraw ch withdraws s) ↔ s.store.LogOk := by simp [execArbDraw]
@[simp] theorem State.reseedAll_store : s.reseedAll.store = s.store := State.foldl_store s (fun s ch => by rfl) _
theorem execReseed_logOk : LogOkAfter (execReseed s) ↔ s.store.LogOk := by simp [execReseed]
@[simp] theorem State.writeCustom_logOk (ch : Nat) (custom : Bool) : (s.writeCustom ch custom).store.LogOk ↔ s.store.LogOk := by
  simp [State.writeCustom]
theorem execCustomChange_logOk (ch : Chan) (custom : Bool) : LogOkAfter (execCustomChange ch custom s) ↔ s.store.LogOk := by
  simp [execCustomChange]

/-! ### Learned offsets and holes -/

@[simp] theorem State.limitOffsets_store : s.limitOffsets.store = s.store := by rfl
@[simp] theorem State.enterHole_store (h : Hole) : (s.enterHole h).store = s.store := by simp [State.enterHole]
@[simp] theorem State.enterHoles_store (h : Hole) : (s.enterHoles h).store = s.store := by simp [State.enterHoles]
@[simp] theorem State.leaveHoles_store (first n : Nat) : (s.leaveHoles first n).store = s.store := by simp [State.leaveHoles]

/-! ### The parameter store and the event log -/

@[simp] theorem State.save_logOk (id : Nat) (payload : List Byte) : (s.save id payload).store.LogOk ↔ s.store.LogOk := by simp [State.save]
@[simp] theorem State.erase_logOk (ids : List Nat) : (s.erase ids).store.LogOk ↔ s.store.LogOk := by simp [State.erase]

@[simp] theorem State.saveWall_logOk : s.saveWall.store.LogOk ↔ s.store.LogOk := by
  unfold State.saveWall
  split
  all_goals simp

@[simp] theorem State.checkTie_logOk (id : Nat) : (s.checkTie id).store.LogOk ↔ s.store.LogOk := by simp [State.checkTie]
@[simp] theorem State.recover_logOk (slot : Nat) (e : SEntry) : (s.recover slot e).store.LogOk ↔ s.store.LogOk := by simp [State.recover]
@[simp] theorem State.recoverAll_logOk : s.recoverAll.store.LogOk ↔ s.store.LogOk := by simp [State.recoverAll]

/-- A record is added only where the log has room (R408, R411). -/
@[simp] theorem State.recordEvent_logOk (e : Event) : (s.recordEvent e).store.LogOk ↔ s.store.LogOk := by
  cases hm : s.store.matchesLast e with
  | true =>
    rw [(State.recordEvent_of_match hm).1]
    rfl
  | false =>
    by_cases hc : s.store.evCount = 2048
    · rw [State.recordEvent_of_full hm hc]
      rfl
    · rw [State.recordEvent_of_room hm hc]
      refine and_congr_left fun _ => ?_
      dsimp only
      omega

theorem State.clearLog_logOk (h : s.store.LogOk) : s.clearLog.store.LogOk :=
  (Store.logOk_writeOp _ _).mpr ⟨Nat.zero_le _, h.2⟩

/-! ### Block records and space -/

@[simp] theorem State.setPb_store (k : Nat) (r : PbRec) : (s.setPb k r).store = s.store := by rfl
@[simp] theorem State.updPb_store (k : Nat) (f : PbRec → PbRec) : (s.updPb k f).store = s.store := by rfl
@[simp] theorem State.updDb_store (db : Nat) (f : PbRec → PbRec) : (s.updDb db f).store = s.store := by rfl
@[simp] theorem State.enterReadOnly_logOk : s.enterReadOnly.store.LogOk ↔ s.store.LogOk := by simp [State.enterReadOnly]
@[simp] theorem State.checkSpace_logOk : s.checkSpace.store.LogOk ↔ s.store.LogOk := by simp [State.checkSpace]

end

end Sys2Proof.Machine
end

section
/-! SUPPORT. The event log, continued: the journal, translation, the cache, host accesses, stitches and lost codewords. -/

namespace Sys2Proof.Machine

section
variable (s : State)

/-! ### Engine tacks and the journal -/

@[simp] theorem State.birth_store (t : Tack) (ch : Option Nat) : (s.birth t ch).1.store = s.store := by
  simp only [State.birth]
  repeat' split
  all_goals simp

@[simp] theorem State.ask_store (t : Tack) : (s.ask t).1.store = s.store := by
  simp only [State.ask]
  split
  all_goals rename_i h; simp [State.store_of_eq h]

@[simp] theorem State.bear_store (p : Tack → Bool) : (s.bear p).store = s.store := by
  refine State.foldl_store s (fun s t => ?_) _
  split
  · rename_i h
    simp [State.store_of_eq h]
  · rfl

@[simp] theorem State.spawnProgram_store (op : TackOp) (e : BitVec 12) (rein : Option Rein) (db page : Nat) (cws : Tab PageCw)
    (what : ProgFor) :
    (s.spawnProgram op e rein db page cws what).1.store = s.store := by simp [State.spawnProgram]

@[simp] theorem State.writeJournal_store (p : JPage) (second : Bool) : (s.writeJournal p second).store = s.store := by
  simp [State.writeJournal]
@[simp] theorem State.closePage_store : s.closePage.store = s.store := by simp [State.closePage]
@[simp] theorem State.append_store (r : JRec) : (s.append r).store = s.store := by simp [State.append]
@[simp] theorem State.journalProgrammed_store (jseq : Nat) (second : Bool) : (s.journalProgrammed jseq second).store = s.store := by rfl
@[simp] theorem State.flushJournal_store : s.flushJournal.store = s.store := by simp [State.flushJournal]

/-! ### The directory and its leaves -/

@[simp] theorem State.updCtx_store (c : Nat) (f : Ctx → Ctx) : (s.updCtx c f).store = s.store := by rfl
@[simp] theorem State.setEntry_store (g : Nat) (e : DirEntry) : (s.setEntry g e).store = s.store := by rfl
@[simp] theorem State.dirError_store (line source : Nat) : (s.dirError line source).store = s.store := by rfl

@[simp] theorem State.evict_store (k : Nat) : (s.evict k).store = s.store := by
  unfold State.evict
  split
  all_goals simp

@[simp] theorem State.segRoom_store (g : Nat) : (s.segRoom g).1.store = s.store := by
  simp only [State.segRoom]
  repeat' split
  all_goals simp

@[simp] theorem State.placeSegment_store (g k : Nat) (leaves : Tab LeafEntry) : (s.placeSegment g k leaves).store = s.store := by rfl

@[simp] theorem State.bringIn_store (g : Nat) : (s.bringIn g).store = s.store := by
  unfold State.bringIn
  dsimp only
  split
  · rfl
  · split
    all_goals rename_i h; simp [State.store_of_eq h]

@[simp] theorem State.setLeaf_store (leaf rseq : Nat) (f : LeafEntry → LeafEntry) : (s.setLeaf leaf rseq f).store = s.store := by
  simp only [State.setLeaf]
  repeat' split
  all_goals simp

@[simp] theorem State.addValid_store (a : MediaAddr) : (s.addValid a).store = s.store := by rfl
@[simp] theorem State.subValid_store (a : MediaAddr) : (s.subValid a).store = s.store := by rfl
@[simp] theorem State.unmapOld_store (e : LeafEntry) : (s.unmapOld e).store = s.store := by simp [State.unmapOld]
@[simp] theorem State.voidWritebacks_store (first n : Nat) : (s.voidWritebacks first n).store = s.store := by rfl
@[simp] theorem State.leafState_store (st : LeafSt) (first n reason : Nat) (hole : Bool) :
    (s.leafState st first n reason hole).store = s.store := by simp [State.leafState]
@[simp] theorem State.poisonNow_store (leaf reason : Nat) : (s.poisonNow leaf reason).store = s.store := by simp [State.poisonNow]
@[simp] theorem State.poisonLeaf_store (leaf reason : Nat) (at' : Option MediaAddr) : (s.poisonLeaf leaf reason at').store = s.store := by
  simp [State.poisonLeaf]
@[simp] theorem State.mapLeaf_store (i : MapItem) : (s.mapLeaf i).store = s.store := by simp [State.mapLeaf]
@[simp] theorem State.pin_store (g : Nat) (on : Bool) : (s.pin g on).store = s.store := by simp [State.pin]
@[simp] theorem State.dropSegment_store (g rseq : Nat) : (s.dropSegment g rseq).store = s.store := by simp [State.dropSegment]

/-! ### The line cache -/

@[simp] theorem State.setLine_store (k : Nat) (l : Line) : (s.setLine k l).store = s.store := by rfl
@[simp] theorem State.sendCredit_store (addr : HostAddr) (cxl : Bool) : (s.sendCredit addr cxl).store = s.store := by rfl

@[simp] theorem State.keepCommits_store (p : Commit → Bool) : (s.keepCommits p).store = s.store := by
  refine (State.foldl_store _ (fun s o => ?_) _).trans (State.setCache_store _ _)
  split
  · simp
  · rfl

@[simp] theorem State.dropCommits_store (leaf : Nat) : (s.dropCommits leaf).store = s.store := by simp [State.dropCommits]

@[simp] theorem State.dropLine_store (k : Nat) : (s.dropLine k).store = s.store := by
  unfold State.dropLine
  split
  all_goals simp

@[simp] theorem State.poisonDrop_logOk (k tack : Nat) : (s.poisonDrop k tack).store.LogOk ↔ s.store.LogOk := by
  unfold State.poisonDrop
  split
  all_goals simp

@[simp] theorem State.invalidate_logOk (k tack : Nat) : (s.invalidate k tack).store.LogOk ↔ s.store.LogOk := by
  unfold State.invalidate
  split
  all_goals simp

@[simp] theorem State.listDirty_store (k : Nat) (wt : Bool) : (s.listDirty k wt).store = s.store := by simp [State.listDirty]
@[simp] theorem State.recomputeCeiling_logOk (usable : Nat) : (s.recomputeCeiling usable).store.LogOk ↔ s.store.LogOk := by
  simp [State.recomputeCeiling]

@[simp] theorem State.allocate_logOk (leaf tack : Nat) : (s.allocate leaf tack).1.store.LogOk ↔ s.store.LogOk := by
  simp only [State.allocate]
  repeat' split
  all_goals simp

@[simp] theorem State.sweepLine_logOk (k : Nat) : (s.sweepLine k).store.LogOk ↔ s.store.LogOk := by
  unfold State.sweepLine
  split
  all_goals simp

/-! ### Errors of the host port -/

@[simp] theorem State.errMessage_store (name : String) (b : Nat) : (s.errMessage name b).store = s.store := by rfl
@[simp] theorem State.aerCorrectable_store (b : Nat) : (s.aerCorrectable b).store = s.store := by simp [State.aerCorrectable]
@[simp] theorem State.aer_store (e : AerError) (header : List Byte) : (s.aer e header).store = s.store := by simp [State.aer]
@[simp] theorem State.aerFree_store (e : AerError) : (s.aerFree e).store = s.store := by simp [State.aerFree]

/-! ### Contexts and runs of leaves -/

@[simp] theorem State.saveCtx_logOk (c : Nat) : (s.saveCtx c).store.LogOk ↔ s.store.LogOk := by simp [State.saveCtx]
@[simp] theorem State.storeCtx_logOk (c : Nat) (x : Ctx) : (s.storeCtx c x).store.LogOk ↔ s.store.LogOk := by simp [State.storeCtx]
@[simp] theorem State.dropRun_store (first n : Nat) : (s.dropRun first n).store = s.store := by simp [State.dropRun]
@[simp] theorem State.clearRun_logOk (zero : Bool) (first n : Nat) : (s.clearRun zero first n).store.LogOk ↔ s.store.LogOk := by
  simp [State.clearRun]
@[simp] theorem State.unbindGranule_store (g : Nat) : (s.unbindGranule g).store = s.store := by simp [State.unbindGranule]
@[simp] theorem State.bindGranule_store (c g : Nat) : (s.bindGranule c g).store = s.store := by rfl
@[simp] theorem State.bindRun_store (c first n : Nat) : (s.bindRun c first n).store = s.store := by simp [State.bindRun]
@[simp] theorem State.pinRun_store (c first n : Nat) : (s.pinRun c first n).store = s.store := by simp [State.pinRun]
@[simp] theorem State.unpinRun_store (c first n : Nat) : (s.unpinRun c first n).store = s.store := by simp [State.unpinRun]
@[simp] theorem State.sweepGranule_logOk (g : Nat) : (s.sweepGranule g).store.LogOk ↔ s.store.LogOk := by simp [State.sweepGranule]
@[simp] theorem State.destroyKey_logOk (c : Nat) : (s.destroyKey c).store.LogOk ↔ s.store.LogOk := by simp [State.destroyKey]
@[simp] theorem State.checkMailbox_logOk : s.checkMailbox.store.LogOk ↔ s.store.LogOk := by simp [State.checkMailbox]

@[simp] theorem State.clearLeaves_logOk (zero : Bool) (first last serial fuel : Nat) :
    (s.clearLeaves zero first last serial fuel).1.store.LogOk ↔ s.store.LogOk := by
  induction fuel generalizing s first serial with
  | zero => rfl
  | succ n ih =>
    simp only [State.clearLeaves]
    repeat' split
    all_goals simp [ih]

@[simp] theorem State.needRunTack_store (id first : Nat) : (s.needRunTack id first).1.store = s.store := by
  simp only [State.needRunTack]
  split
  · rfl
  · split
    all_goals rename_i h; simp [State.store_of_eq h]

@[simp] theorem State.endRunTack_store (id : Nat) : (s.endRunTack id).store = s.store := by
  unfold State.endRunTack
  split
  all_goals simp

@[simp] theorem State.unbindRun_store (gs : List Nat) : (s.unbindRun gs).1.store = s.store := by
  induction gs generalizing s with
  | nil => rfl
  | cons g gs ih =>
    simp only [State.unbindRun]
    split
    all_goals simp [ih]

@[simp] theorem State.stepRunCommand_logOk (c : Cmd) : (s.stepRunCommand c).store.LogOk ↔ s.store.LogOk := by
  simp only [State.stepRunCommand]
  split
  · split
    all_goals rename_i h; simp [State.store_of_eq h]
  · split
    all_goals simp
  · simp
  · split
    all_goals simp
  · split
    · rfl
    · split
      all_goals simp
  · rfl

@[simp] theorem State.stepRunCommands_logOk : s.stepRunCommands.store.LogOk ↔ s.store.LogOk := by simp [State.stepRunCommands]

/-! ### Host accesses -/

@[simp] theorem State.sendPiece_store (r : HostReq) (c : Nat) (tag : Tag) (bs : List Byte) : (s.sendPiece r c tag bs).store = s.store := by
  unfold State.sendPiece
  extract_lets b parts s1 s2
  have h1 : s1.store = s.store := State.foldl_store s (fun s p => by rfl) parts
  split
  · simp [s2, h1]
  · exact h1

@[simp] theorem State.sendReady_store (ps : List (Nat × Tack)) : (s.sendReady ps).store = s.store := by
  induction ps generalizing s with
  | nil => rfl
  | cons e ps ih =>
    simp only [State.sendReady]
    repeat' split
    all_goals simp [ih]

@[simp] theorem State.countOutside_store (t : Tack) : (s.countOutside t).store = s.store := by simp [State.countOutside]

@[simp] theorem State.complete_store (k : Nat) : (s.complete k).store = s.store := by
  simp only [State.complete]
  repeat' split
  all_goals simp

@[simp] theorem State.deliver_store (k : Nat) (bs : List Byte) (poison : Bool) : (s.deliver k bs poison).store = s.store := by
  simp only [State.deliver]
  repeat' split
  all_goals simp

@[simp] theorem State.tryComplete_store (k : Nat) : (s.tryComplete k).store = s.store := by
  unfold State.tryComplete
  split
  all_goals simp

@[simp] theorem State.failRead_store (r : HostReq) (st : CplStatus) : (s.failRead r st).store = s.store := by simp [State.failRead]
@[simp] theorem State.markOutside_store (p : MediaRead → Bool) : (s.markOutside p).store = s.store := by rfl
@[simp] theorem State.rejudge_store : s.rejudge.store = s.store := by rfl
@[simp] theorem State.markAll_store : s.markAll.store = s.store := by rfl
@[simp] theorem State.markSegment_store (g : Nat) (out : Bool) : (s.markSegment g out).store = s.store := by simp [State.markSegment]
@[simp] theorem State.endPause_store : s.endPause.store = s.store := by simp [State.endPause]

@[simp] theorem State.beginRead_store (k : Nat) (a : MediaAddr) {lost : State → State} (h : ∀ s, (lost s).store = s.store) :
    (s.beginRead k a lost).store = s.store := by
  simp only [State.beginRead]
  repeat' split
  all_goals simp [h]

@[simp] theorem State.spawnFill_store (k : Nat) (t : Tack) (a : MediaAddr) (ctx : BitVec 12) : (s.spawnFill k t a ctx).store = s.store := by
  simp only [State.spawnFill]
  split
  all_goals rename_i h; simp [State.store_of_eq h]

@[simp] theorem State.spawnSegRead_store (g : Nat) (host : Bool) (parent cmd : Option Nat) :
    (s.spawnSegRead g host parent cmd).store = s.store := by
  unfold State.spawnSegRead
  split
  · rfl
  split
  · rfl
  rename_i s1 _ h
  have h1 : s1.store = s.store := (State.store_of_eq h).trans (s.segRoom_store g)
  dsimp only
  split
  all_goals rename_i hb; simp [State.store_of_eq hb, h1]

@[simp] theorem State.dropStale_store (leaf : Nat) : (s.dropStale leaf).store = s.store := by
  unfold State.dropStale
  split
  all_goals simp

@[simp] theorem State.poisonDue_store : s.poisonDue.store = s.store := by simp [State.poisonDue]
@[simp] theorem State.updaterReads_store : s.updaterReads.store = s.store := by simp [State.updaterReads]
@[simp] theorem State.awaitSegment_store (k g : Nat) (host : Bool) : (s.awaitSegment k g host).store = s.store := by
  simp [State.awaitSegment]

@[simp] theorem State.sectorLost_logOk (leaf sector tackId : Nat) : (s.sectorLost leaf sector tackId).store.LogOk ↔ s.store.LogOk := by
  unfold State.sectorLost
  split
  all_goals simp

@[simp] theorem State.meetBad_logOk (leaf : Nat) (m : BitVec 64) (tack : Nat) : (s.meetBad leaf m tack).1.store.LogOk ↔ s.store.LogOk := by
  unfold State.meetBad
  generalize List.range 64 = l
  refine List.foldlRecOn l _ (motive := fun (a : State × Bool) => a.1.store.LogOk ↔ s.store.LogOk) Iff.rfl (fun a ih i _ => ?_)
  repeat' split
  all_goals simp [ih]

@[simp] theorem State.strike_store (xs : List (BitVec 34 × Fin 64)) : (s.strike xs).store = s.store := by
  refine State.foldl_store s (fun s x => ?_) _
  split
  all_goals simp

@[simp] theorem State.meetFaults_logOk (k : Nat) (t : Tack) (ev : AccessEv) (m : BitVec 64) :
    (s.meetFaults k t ev m).1.store.LogOk ↔ s.store.LogOk := by
  simp only [State.meetFaults]
  repeat' split
  all_goals simp

@[simp] theorem State.readMiss_logOk (k : Nat) (t : Tack) (r : HostReq) (e : DirEntry) (c : Ctx) (off : Nat) (blocked : Bool) :
    (s.readMiss k t r e c off blocked).store.LogOk ↔ s.store.LogOk := by
  simp only [State.readMiss]
  split
  · simp
  · split
    · simp
    · split
      · simp
      · split
        · simp
        · split
          all_goals rename_i h; simp [State.store_of_eq h]
    · split
      all_goals simp

@[simp] theorem State.tryRead_logOk (k : Nat) : (s.tryRead k).store.LogOk ↔ s.store.LogOk := by
  unfold State.tryRead
  split
  · rfl
  split
  · rfl
  rename_i t _ _ r _
  extract_lets leaf g passed e0 e c off u blocked
  have hu : u.store = s.store := State.updTack_store s k _
  split
  · rfl
  split
  · simp
  split
  · simp [hu]
  split
  · simp [hu]
  split
  rename_i h
  repeat' split
  all_goals simp [State.store_of_eq h, hu]

@[simp] theorem State.noteWrite_store (t : Tack) (r : HostReq) (ctx : BitVec 12) : (s.noteWrite t r ctx).store = s.store := by rfl
@[simp] theorem State.returnCredit_store (r : HostReq) : (s.returnCredit r).store = s.store := by simp [State.returnCredit]

@[simp] theorem State.acceptEnds_store : s.acceptEnds.store = s.store := by
  unfold State.acceptEnds
  split
  all_goals simp

@[simp] theorem State.acceptFull_store : s.acceptFull.store = s.store := by simp [State.acceptFull]
@[simp] theorem State.mergeWrite_store (k w : Nat) (t : Tack) (r : HostReq) (l : Line) (off : Nat) :
    (s.mergeWrite k w t r l off).store = s.store := by simp [State.mergeWrite]

@[simp] theorem State.placeLine_logOk (k leaf : Nat) (ctx : BitVec 12) (c : Ctx) (poisoned : Bool) :
    (s.placeLine k leaf ctx c poisoned).1.store.LogOk ↔ s.store.LogOk := by
  simp only [State.placeLine]
  split
  · rfl
  · split
    all_goals rename_i h; simp [State.store_of_eq h]

@[simp] theorem State.tryWrite_logOk (k : Nat) : (s.tryWrite k).store.LogOk ↔ s.store.LogOk := by
  unfold State.tryWrite
  split
  · rfl
  split
  · rfl
  extract_lets leaf e c off passed
  split
  · rfl
  split
  · simp
  split
  rename_i hm
  split
  · simp [State.store_of_eq hm]
  split
  all_goals rename_i h
  · simp [State.store_of_eq h, State.store_of_eq hm]
  · repeat' split
    all_goals simp [State.store_of_eq h, State.store_of_eq hm]

@[simp] theorem State.tryPrefetch_logOk (k : Nat) : (s.tryPrefetch k).store.LogOk ↔ s.store.LogOk := by
  unfold State.tryPrefetch
  split
  · rfl
  extract_lets leaf e c lock u
  have hu : u.store = s.store := State.updTack_store s k _
  split
  · simp [hu]
  split
  · simp [hu]
  split
  · simp [hu]
  split
  · simp [hu]
  · split
    · simp [hu]
    · split
      all_goals rename_i h
      · simp [State.store_of_eq h, hu]
      · dsimp only
        repeat' split
        all_goals simp [State.store_of_eq h, hu]

@[simp] theorem State.tryWriteback_logOk (k : Nat) : (s.tryWriteback k).store.LogOk ↔ s.store.LogOk := by
  simp only [State.tryWriteback]
  repeat' split
  all_goals simp

@[simp] theorem State.takeVictim_logOk (k w : Nat) : (s.takeVictim k w).store.LogOk ↔ s.store.LogOk := by
  unfold State.takeVictim
  split
  all_goals simp

@[simp] theorem State.flushLine_store (k : Nat) (o : CommitFor) : (s.flushLine k o).store = s.store := by
  unfold State.flushLine
  split
  all_goals simp

@[simp] theorem State.rangeLeaf_logOk (r : RangeOp) (leaf tack : Nat) : (s.rangeLeaf r leaf tack).1.store.LogOk ↔ s.store.LogOk := by
  simp only [State.rangeLeaf]
  repeat' split
  all_goals simp

@[simp] theorem State.tryRange_logOk (k : Nat) : (s.tryRange k).store.LogOk ↔ s.store.LogOk := by
  simp only [State.tryRange]
  repeat' split
  all_goals simp

@[simp] theorem State.tryTack_logOk (k : Nat) : (s.tryTack k).store.LogOk ↔ s.store.LogOk := by
  simp only [State.tryTack]
  repeat' split
  all_goals simp

@[simp] theorem State.refuseWrite_logOk (r : HostReq) (reason : Nat) (abort : Bool) :
    (s.refuseWrite r reason abort).store.LogOk ↔ s.store.LogOk := by simp [State.refuseWrite]

@[simp] theorem State.birthPieces_logOk (r : HostReq) : (s.birthPieces r).store.LogOk ↔ s.store.LogOk := by
  simp only [State.birthPieces]
  refine (State.foldl_logOk _ (fun s k => by simp) _).trans (iff_of_eq (congrArg Store.LogOk ?_))
  refine List.foldlRecOn _ _ (motive := fun (a : State × List Nat) => a.1.store = s.store) rfl (fun a ih leaf _ => ?_)
  split
  all_goals rename_i h; simp [State.store_of_eq h, ih]

theorem State.logOk_of_takeIn {r : HostReq} {t : State} (h : s.takeIn r = some t) : t.store.LogOk ↔ s.store.LogOk := by
  have hm : (s.takeIn r).map (fun u => u.store.LogOk) = (s.takeIn r).map (fun _ => s.store.LogOk) := by
    simp only [State.takeIn, apply_ite (Option.map _), Option.map_some, Option.map_none, State.ite_store, Store.logOk_ite,
      State.refuseWrite_logOk, State.failRead_store, State.birthPieces_logOk, ite_self]
  simpa [h] using hm

@[simp] theorem State.pump_logOk (fuel : Nat) : (s.pump fuel).store.LogOk ↔ s.store.LogOk := by
  induction fuel generalizing s with
  | zero => rfl
  | succ n ih =>
    simp only [State.pump]
    split
    · rfl
    split
    · rename_i h
      simp [ih, State.logOk_of_takeIn _ h]
    split
    · rfl
    split
    · rfl
    split
    · rename_i h
      simp [ih, State.logOk_of_takeIn _ h]
    · rfl

@[simp] theorem State.endCommits_store : s.endCommits.store = s.store := by simp [State.endCommits]
@[simp] theorem State.advance_logOk : s.advance.store.LogOk ↔ s.store.LogOk := by simp [State.advance]

/-! ### Retirement and runs of reads -/

@[simp] theorem State.eraseNow_store (ks : List Nat) (f : PbRec → PbRec) : (s.eraseNow ks f).store = s.store := by simp [State.eraseNow]

@[simp] theorem State.replacePb_logOk (db plane : Nat) (gone : Bool) : (s.replacePb db plane gone).store.LogOk ↔ s.store.LogOk := by
  simp only [State.replacePb]
  repeat' split
  all_goals simp

@[simp] theorem State.retirePb_logOk (k reason : Nat) : (s.retirePb k reason).store.LogOk ↔ s.store.LogOk := by simp [State.retirePb]
@[simp] theorem State.retireMarked_logOk (db : Nat) : (s.retireMarked db).store.LogOk ↔ s.store.LogOk := by simp [State.retireMarked]
@[simp] theorem State.spawnSystemErase_store (e : BitVec 12) (db : Nat) : (s.spawnSystemErase e db).store = s.store := by
  simp [State.spawnSystemErase]

@[simp] theorem State.pumpRun_store (op : TackOp) (e : BitVec 12) (x : ReadRun) (fuel : Nat) :
    (s.pumpRun op e x fuel).1.store = s.store := by
  induction fuel generalizing s x with
  | zero => rfl
  | succ n ih =>
    unfold State.pumpRun
    split
    · rfl
    dsimp only
    split
    · rename_i h
      simp [ih, State.store_of_eq h]
    · rfl

/-! ### Copies of images and boot records -/

@[simp] theorem State.setSlotPtr_logOk (p : SlotPtr) : (s.setSlotPtr p).store.LogOk ↔ s.store.LogOk := by simp [State.setSlotPtr]
@[simp] theorem State.rewriteBoot_store (p : Nat) : (s.rewriteBoot p).store = s.store := by simp [State.rewriteBoot]
@[simp] theorem State.rewriteBoots_store : s.rewriteBoots.store = s.store := by simp [State.rewriteBoots]
@[simp] theorem State.writeBoot_store (p : Nat) : (s.writeBoot p).store = s.store := by simp [State.writeBoot]
@[simp] theorem State.loseCopy_store (p block : Nat) : (s.loseCopy p block).store = s.store := by rfl
@[simp] theorem State.bootEnded_logOk (p : Nat) (fail : Bool) : (s.bootEnded p fail).store.LogOk ↔ s.store.LogOk := by
  simp [State.bootEnded]
@[simp] theorem State.setCopies_store (cs : Tab ImgCopy) : (s.setCopies cs).store = s.store := by rfl

@[simp] theorem State.rejectStage_logOk (sub : Nat) : (s.rejectStage sub).store.LogOk ↔ s.store.LogOk := by
  simp only [State.rejectStage]
  repeat' split
  all_goals simp

@[simp] theorem State.copyOn_store (p : Nat) (x : ImgCopy) : (s.copyOn p x).store = s.store := by
  simp only [State.copyOn]
  repeat' split
  all_goals simp

@[simp] theorem State.imageOn_logOk : s.imageOn.store.LogOk ↔ s.store.LogOk := by
  simp only [State.imageOn]
  repeat' split
  all_goals simp

@[simp] theorem State.beginCopy_store (p block : Nat) (again : Bool) : (s.beginCopy p block again).store = s.store := by
  simp [State.beginCopy]
@[simp] theorem State.moveCopy_logOk (p : Nat) (x : ImgCopy) : (s.moveCopy p x).store.LogOk ↔ s.store.LogOk := by simp [State.moveCopy]

@[simp] theorem State.imageEnded_logOk (p page : Nat) (fail : Bool) : (s.imageEnded p page fail).store.LogOk ↔ s.store.LogOk := by
  unfold State.imageEnded
  split
  all_goals simp

@[simp] theorem State.copyErased_logOk (db : Nat) (failed : Bool) : (s.copyErased db failed).store.LogOk ↔ s.store.LogOk := by
  unfold State.copyErased
  split
  all_goals simp

@[simp] theorem State.emptySlot_store (slot : Nat) : (s.emptySlot slot).store = s.store := by rfl

@[simp] theorem State.stageDone_store : s.stageDone.store = s.store := by
  simp only [State.stageDone]
  repeat' split
  all_goals simp

@[simp] theorem State.verified_logOk (good : BitVec 4) : (s.verified good).store.LogOk ↔ s.store.LogOk := by simp [State.verified]
@[simp] theorem State.setRenew_store (r : Option Renew) : (s.setRenew r).store = s.store := by rfl
@[simp] theorem State.queueCopy_store (db : Nat) : (s.queueCopy db).store = s.store := by simp [State.queueCopy]
@[simp] theorem State.unqueueCopy_store (db : Nat) : (s.unqueueCopy db).store = s.store := by simp [State.unqueueCopy]

@[simp] theorem State.renewReads_store : s.renewReads.store = s.store := by
  unfold State.renewReads
  split
  all_goals simp

@[simp] theorem State.startRenew_store (db : Nat) : (s.startRenew db).store = s.store := by simp [State.startRenew]

@[simp] theorem State.renewProgram_store (r : Renew) : (s.renewProgram r).store = s.store := by
  unfold State.renewProgram
  split
  all_goals simp

@[simp] theorem State.renewRewrite_store (r : Renew) : (s.renewRewrite r).store = s.store := by simp [State.renewRewrite]

@[simp] theorem State.renewOn_store : s.renewOn.store = s.store := by
  unfold State.renewOn
  split
  all_goals simp

@[simp] theorem State.renewRead_store (a : MediaAddr) (bad : Bool) : (s.renewRead a bad).store = s.store := by
  unfold State.renewRead
  split
  all_goals simp

@[simp] theorem State.renewMove_logOk (r : Renew) : (s.renewMove r).store.LogOk ↔ s.store.LogOk := by simp [State.renewMove]

@[simp] theorem State.renewEnded_logOk (db page : Nat) (fail : Bool) : (s.renewEnded db page fail).store.LogOk ↔ s.store.LogOk := by
  unfold State.renewEnded
  split
  all_goals simp

@[simp] theorem State.profileOn_store : s.profileOn.store = s.store := by
  simp only [State.profileOn]
  repeat' split
  all_goals simp

@[simp] theorem State.followProfile_store : s.followProfile.store = s.store := by simp [State.followProfile]

@[simp] theorem State.imageErased_logOk (db : Nat) (failed : Bool) : (s.imageErased db failed).store.LogOk ↔ s.store.LogOk := by
  simp only [State.imageErased]
  repeat' split
  all_goals simp

@[simp] theorem State.positionOff_logOk (die : Nat) : (s.positionOff die).store.LogOk ↔ s.store.LogOk := by
  unfold State.positionOff
  split
  all_goals simp

/-! ### Stitches, erases and ends of programs -/

@[simp] theorem State.queueRefresh_store (db : Nat) : (s.queueRefresh db).store = s.store := by simp [State.queueRefresh]
@[simp] theorem State.checkOverride_logOk (ch : Nat) : (s.checkOverride ch).store.LogOk ↔ s.store.LogOk := by simp [State.checkOverride]

@[simp] theorem State.spawnErase_store (db : Nat) : (s.spawnErase db).store = s.store := by
  simp only [State.spawnErase]
  repeat' split
  all_goals simp

@[simp] theorem State.startErase_store (k : Nat) (p : Program) : (s.startErase k p).store = s.store := by
  unfold State.startErase
  split
  all_goals simp

@[simp] theorem State.leaveStitch_store (db : Nat) : (s.leaveStitch db).store = s.store := by rfl
@[simp] theorem State.freeParity_store (db : Nat) : (s.freeParity db).store = s.store := by simp [State.freeParity]

@[simp] theorem State.releaseIf_logOk (i : Nat) : (s.releaseIf i).store.LogOk ↔ s.store.LogOk := by
  unfold State.releaseIf
  split
  all_goals simp

@[simp] theorem State.releaseAll_logOk : s.releaseAll.store.LogOk ↔ s.store.LogOk := by simp [State.releaseAll]
@[simp] theorem State.erasedPbs_store (ks : List Nat) (st : PbSt → PbSt) : (s.erasedPbs ks st).store = s.store := by simp [State.erasedPbs]
@[simp] theorem State.eraseDone_logOk (db : Nat) (failed : List Nat) : (s.eraseDone db failed).store.LogOk ↔ s.store.LogOk := by
  simp [State.eraseDone]
@[simp] theorem State.setStitch_store (i : Nat) (x : Stitch) : (s.setStitch i x).store = s.store := by rfl

@[simp] theorem State.settleAt_store (i : Nat) : (s.settleAt i).store = s.store := by
  unfold State.settleAt
  extract_lets x
  split
  · rfl
  refine (State.foldl_store _ (fun s m => ?_) _).trans (State.setStitch_store _ _ _)
  split
  · simp
  · rfl

@[simp] theorem State.closeMember_store (i m : Nat) : (s.closeMember i m).store = s.store := by
  simp only [State.closeMember]
  repeat' split
  all_goals simp

@[simp] theorem State.sealStitch_store (i : Nat) (bare : Bool) : (s.sealStitch i bare).store = s.store := by
  unfold State.sealStitch
  extract_lets x s1 s2 s3
  have h2 : s2.store = s.store := by simp [s2, s1]
  have h3 : s3.store = s2.store := by
    refine State.foldl_store s2 (fun s m => ?_) _
    split
    all_goals simp
  rw [State.settleAt_store, h3, h2]

@[simp] theorem State.force_store (db : Nat) (planes : List Nat) : (s.force db planes).store = s.store := by simp [State.force]
@[simp] theorem State.notePage_store (ks : List Nat) (page stamp : Nat) : (s.notePage ks page stamp).store = s.store := by
  simp [State.notePage]
@[simp] theorem State.notePages_store (p : Program) : (s.notePages p).store = s.store := by simp [State.notePages]
@[simp] theorem State.markFailed_store (p : Program) : (s.markFailed p).store = s.store := by simp [State.markFailed]

@[simp] theorem State.lineWritten_store (leaf : Nat) : (s.lineWritten leaf).store = s.store := by
  unfold State.lineWritten
  split
  all_goals simp

@[simp] theorem State.leavesWritten_store (p : Program) (stitch member : Nat) : (s.leavesWritten p stitch member).store = s.store := by
  unfold State.leavesWritten
  extract_lets x refresh y s1 n
  split
  · rfl
  extract_lets s2 b t u s3 s4
  have h2 : s2.store = s1.store := by
    refine State.foldl_store s1 (fun s e => ?_) _
    dsimp only
    split
    all_goals simp
  simp [s4, s3, h2, s1]

@[simp] theorem State.leavesFailed_store (p : Program) (stitch member : Nat) : (s.leavesFailed p stitch member).store = s.store := by
  unfold State.leavesFailed
  extract_lets x
  split
  · rfl
  · rename_i db _
    refine (State.foldl_store ((s.closeMember stitch member).force db) (fun s o => ?_) _).trans (by simp)
    split
    all_goals simp

@[simp] theorem State.parityEnded_logOk (stitch row : Nat) (second fail : Bool) :
    (s.parityEnded stitch row second fail).store.LogOk ↔ s.store.LogOk := by simp [State.parityEnded]

@[simp] theorem State.segmentWritten_store (g : Nat) : (s.segmentWritten g).store = s.store := by
  simp only [State.segmentWritten]
  repeat' split
  all_goals simp

@[simp] theorem State.segmentsEnded_store (ids : List Nat) (second : Bool) : (s.segmentsEnded ids second).store = s.store := by
  simp [State.segmentsEnded]
@[simp] theorem State.takeBlank_store (db : Nat) : (s.takeBlank db).store = s.store := by simp [State.takeBlank]

@[simp] theorem State.mapPage_logOk (d : Nat) : (s.mapPage d).1.store.LogOk ↔ s.store.LogOk := by
  simp only [State.mapPage]
  repeat' split
  all_goals simp

@[simp] theorem State.writeImages_logOk (is : List SegImage) (second : Bool) (notOctet : Option Nat) :
    (s.writeImages is second notOctet).1.store.LogOk ↔ s.store.LogOk := by
  unfold State.writeImages
  split
  · rfl
  split
  all_goals rename_i h; simp [State.store_of_eq h]

@[simp] theorem State.writeSegments_logOk (gs : List Nat) : (s.writeSegments gs).store.LogOk ↔ s.store.LogOk := by
  unfold State.writeSegments
  extract_lets gs'
  split
  extract_lets s1 is rseq
  have h1 : s1.store = s.store := by simp [s1]
  split
  · rw [h1]
  split
  · rename_i h
    simp [State.store_of_eq h, h1]
  rename_i s2 _ _ ha
  have h2 : s2.store.LogOk ↔ s.store.LogOk := by simp [State.store_of_eq ha, h1]
  split
  · rename_i h
    simp [State.store_of_eq h, h2]
  rename_i s3 _ _ hb
  have h3 : s3.store.LogOk ↔ s.store.LogOk := by simp [State.store_of_eq hb, h2]
  refine Iff.trans (State.foldl_logOk s3 (fun s e => ?_) _) h3
  dsimp only
  split
  all_goals simp

@[simp] theorem State.segmentsFailed_logOk (ids : List Nat) (second : Bool) :
    (s.segmentsFailed ids second).store.LogOk ↔ s.store.LogOk := by
  unfold State.segmentsFailed
  extract_lets is other
  split
  · rename_i h
    simp [State.store_of_eq h]
  · rename_i h
    refine (State.foldl_logOk _ (fun s e => ?_) _).trans ?_
    · simp
    · simp [State.store_of_eq h]

@[simp] theorem State.weltNext_store (die : Nat) : (s.weltNext die).store = s.store := by
  simp only [State.weltNext]
  repeat' split
  all_goals simp

@[simp] theorem State.weltEnded_store (die j : Nat) (fail : Bool) : (s.weltEnded die j fail).store = s.store := by
  simp only [State.weltEnded]
  repeat' split
  all_goals simp

@[simp] theorem State.spawnBrandRow_store (die r : Nat) : (s.spawnBrandRow die r).store = s.store := by simp [State.spawnBrandRow]
@[simp] theorem State.writeBrand_store (die : Nat) : (s.writeBrand die).store = s.store := by simp [State.writeBrand]

@[simp] theorem State.systemErased_logOk (db : Nat) (failed : List Nat) : (s.systemErased db failed).store.LogOk ↔ s.store.LogOk := by
  simp only [State.systemErased]
  repeat' split
  all_goals simp

@[simp] theorem State.eraseEnded_logOk (k : Nat) (t : Tack) (p : Program) (fail : Bool) (db : Nat) (system : Bool) :
    (s.eraseEnded k t p fail db system).store.LogOk ↔ s.store.LogOk := by simp [State.eraseEnded]

@[simp] theorem State.programEnded_logOk (k : Nat) (t : Tack) (p : Program) (fail : Bool) :
    (s.programEnded k t p fail).store.LogOk ↔ s.store.LogOk := by
  simp only [State.programEnded]
  repeat' split
  all_goals simp

@[simp] theorem State.programOff_logOk (k : Nat) (t : Tack) (p : Program) : (s.programOff k t p).store.LogOk ↔ s.store.LogOk := by
  unfold State.programOff
  split
  all_goals simp

@[simp] theorem State.programsOff_logOk (die : Nat) : (s.programsOff die).store.LogOk ↔ s.store.LogOk := by
  unfold State.programsOff
  extract_lets on waiting s1 s2
  have h2 : s2.store.LogOk ↔ s.store.LogOk := by
    refine (State.foldl_logOk s1 (fun s t => ?_) _).trans Iff.rfl
    split
    all_goals simp
  refine (State.foldl_logOk s2 (fun s e => ?_) _).trans h2
  split
  all_goals simp

/-! ### Lost codewords and units that leave -/

@[simp] theorem State.lookFor_store (a : MediaAddr) (gs : List Nat) : (s.lookFor a gs).1.store = s.store := by
  induction gs generalizing s with
  | nil => rfl
  | cons g gs ih =>
    unfold State.lookFor
    split
    · simp
    split
    · rfl
    · exact ih s

@[simp] theorem State.segNext_store (k : Nat) (t : Tack) (r : MediaRead) (ok : Bool) : (s.segNext k t r ok).store = s.store := by
  simp only [State.segNext]
  repeat' split
  all_goals simp

@[simp] theorem State.burnishEnded_store (a : MediaAddr) (bad : Bool) : (s.burnishEnded a bad).store = s.store := by rfl
@[simp] theorem State.scrubEnded_store (a : MediaAddr) : (s.scrubEnded a).store = s.store := by simp [State.scrubEnded]

@[simp] theorem State.brandOn_store (die : Nat) : (s.brandOn die).store = s.store := by
  unfold State.brandOn
  split
  · rfl
  refine State.foldl_store s (fun s r => ?_) _
  dsimp only
  split
  all_goals rename_i h; simp [State.store_of_eq h]

@[simp] theorem State.brandBegin_store (die : Nat) : (s.brandBegin die).store = s.store := by simp [State.brandBegin]

@[simp] theorem State.reassessed_store (die : Nat) : (s.reassessed die).store = s.store := by
  simp only [State.reassessed]
  repeat' split
  all_goals simp

@[simp] theorem State.brandRow_store (a : MediaAddr) (h : Option (List Nat)) : (s.brandRow a h).store = s.store := by
  simp only [State.brandRow]
  repeat' split
  all_goals simp

@[simp] theorem State.memberLost_store (t : Tack) (a : MediaAddr) : (s.memberLost t a).store = s.store := by
  unfold State.memberLost
  split
  all_goals simp

@[simp] theorem State.countLost_store (a : MediaAddr) : (s.countLost a).store = s.store := by rfl
@[simp] theorem State.logLost_logOk (k : Nat) (a : MediaAddr) (leaf : Option Nat) : (s.logLost k a leaf).store.LogOk ↔ s.store.LogOk := by
  simp [State.logLost]
@[simp] theorem State.holedOn_store (die : Nat) : (s.holedOn die).store = s.store := by rfl
@[simp] theorem State.loseLeaf_store (a : MediaAddr) (leaf reason : Nat) : (s.loseLeaf a leaf reason).store = s.store := by
  simp [State.loseLeaf]

@[simp] theorem State.endSearch_logOk (x : Search) (leaf : Option Nat) : (s.endSearch x leaf).store.LogOk ↔ s.store.LogOk := by
  simp only [State.endSearch]
  repeat' split
  all_goals simp

@[simp] theorem State.searchOn_logOk : s.searchOn.store.LogOk ↔ s.store.LogOk := by
  refine State.foldl_logOk s (fun s x => ?_) _
  split
  all_goals rename_i h; simp [State.store_of_eq h]

@[simp] theorem State.searchLost_logOk (k : Nat) (a : MediaAddr) (reason : Nat) :
    (s.searchLost k a reason).store.LogOk ↔ s.store.LogOk := by simp [State.searchLost]

@[simp] theorem State.readLost_logOk (k : Nat) (t : Tack) (a : MediaAddr) (reason : Nat) :
    (s.readLost k t a reason).store.LogOk ↔ s.store.LogOk := by
  simp only [State.readLost]
  repeat' split
  all_goals simp

@[simp] theorem State.closeOpen_store (d : Nat) : (s.closeOpen d).store = s.store := by simp [State.closeOpen]
@[simp] theorem State.dieOff_logOk (d : Nat) : (s.dieOff d).store.LogOk ↔ s.store.LogOk := by simp [State.dieOff]
@[simp] theorem State.setLeaving_store (us : List Leaving) : (s.setLeaving us).store = s.store := by rfl

@[simp] theorem State.sweepSegment_store (u : Leaving) (g : Nat) : (s.sweepSegment u g).store = s.store := by
  unfold State.sweepSegment
  split
  all_goals simp

@[simp] theorem State.sweepOn_store (u : Leaving) (gs : List Nat) : (s.sweepOn u gs).1.store = s.store := by
  induction gs generalizing s with
  | nil => rfl
  | cons g gs ih =>
    simp only [State.sweepOn]
    split
    all_goals simp [ih]

@[simp] theorem State.retireUnitPbs_logOk (u : Leaving) : (s.retireUnitPbs u).store.LogOk ↔ s.store.LogOk := by
  unfold State.retireUnitPbs
  extract_lets reason
  refine State.foldl_logOk s (fun s d => ?_) _
  split
  · rfl
  · exact (State.logOk_congr (State.setCtl_store _ _ _)).trans (State.foldl_logOk s (fun s b => by simp) _)

@[simp] theorem State.endUnit_logOk (u : Leaving) : (s.endUnit u).store.LogOk ↔ s.store.LogOk := by simp [State.endUnit]

@[simp] theorem State.endUnits_logOk : s.endUnits.store.LogOk ↔ s.store.LogOk := by
  refine State.foldl_logOk s (fun s u => ?_) _
  split
  · rfl
  split
  all_goals rename_i h; simp [State.store_of_eq h]

@[simp] theorem State.faultUnit_logOk (level first n : Nat) : (s.faultUnit level first n).store.LogOk ↔ s.store.LogOk := by
  simp [State.faultUnit]
@[simp] theorem State.checkAges_logOk : s.checkAges.store.LogOk ↔ s.store.LogOk := by simp [State.checkAges]

/-! ### Commands that a change of state ends -/

@[simp] theorem State.crossedCommands_store : s.crossedCommands.store = s.store := by simp [State.crossedCommands]

@[simp] theorem State.faultCommands_store : s.faultCommands.store = s.store := by
  refine State.foldl_store s (fun s x => ?_) _
  split
  all_goals simp

@[simp] theorem State.cinchCommands_store : s.cinchCommands.store = s.store := by rfl

end

end Sys2Proof.Machine
end

section
/-! SUPPORT. The event log, continued: the commands of the window, the channels, block life and translation. -/

namespace Sys2Proof.Machine

section
variable (s : State)

/-! ### Parameters -/

@[simp] theorem State.setParam_logOk (id v : Nat) : (s.setParam id v).store.LogOk ↔ s.store.LogOk := by
  unfold State.setParam
  split
  all_goals simp

/-! ### Events, the clocks of the store and interrupts -/

theorem Store.get_of_nextEvent {st : Store} {p : Nat} {e : Event} {q : List Event} (h : st.nextEvent = some (p, e, q)) :
    Tab.get st.ports p [] = e :: q := by
  obtain ⟨p', -, hp⟩ := List.exists_of_findSome?_eq_some h
  split at hp
  · cases hp
  · cases hp
    assumption

/-- A port that the arbiter takes an event from holds one fewer. -/
theorem Store.logOk_of_granted {st : Store} (h : st.LogOk) {p : Nat} {e : Event} {q : List Event}
    (hn : st.nextEvent = some (p, e, q)) (n : Nat) :
    Store.LogOk { st with ports := Tab.put st.ports p q, nextPort := n } := by
  refine ⟨h.1, fun j => ?_⟩
  dsimp only
  rw [Tab.get_put]
  split
  · rename_i hj
    subst hj
    have hl := h.2 p
    rw [Store.get_of_nextEvent hn, List.length_cons] at hl
    omega
  · exact h.2 j

theorem execEventGrant_logOk (h : s.store.LogOk) : LogOkAfter (execEventGrant s) := by
  unfold execEventGrant
  split
  · simpa using h
  · rename_i hn
    exact (logOkAfter_done s _).mpr ((State.recordEvent_logOk _ _).mpr (Store.logOk_of_granted h hn _))

theorem execOpSecondsTick_logOk : LogOkAfter (execOpSecondsTick s) ↔ s.store.LogOk := by simp [execOpSecondsTick]
theorem execOpSecondsSave_logOk : LogOkAfter (execOpSecondsSave s) ↔ s.store.LogOk := by simp [execOpSecondsSave]
theorem execEvtOverflowSave_logOk : LogOkAfter (execEvtOverflowSave s) ↔ s.store.LogOk := by simp [execEvtOverflowSave]

theorem execEvtWinRead_logOk (off : BitVec 24) : LogOkAfter (execEvtWinRead off s) ↔ s.store.LogOk := by
  by_cases h : s.barOpen = true ∧ 0xD4000 ≤ off.toNat ∧ off.toNat ≤ 0xD7FFF ∧ off.toNat % 4 = 0
  · obtain ⟨ho, hl, hh, ha⟩ := h
    obtain ⟨⟨v, bad⟩, hw⟩ : ∃ w, s.evtWord off.toNat = w := ⟨_, rfl⟩
    rw [show execEvtWinRead off s = _ from exec_evtWinRead_of_aligned ho hl hh ha hw]
    refine (logOkAfter_done s _).trans (State.logOk_congr ?_)
    cases bad with
    | true => rfl
    | false => rfl
  · rw [show execEvtWinRead off s = s.done s from if_neg h]
    exact logOkAfter_done s s

@[simp] theorem State.claim_store (t : Nat) : (s.claim t).1.store = s.store := by
  simp only [State.claim]
  repeat' split
  all_goals simp

theorem execClaim_logOk (t : Fin 64) : LogOkAfter (execClaim t s) ↔ s.store.LogOk := by simp [execClaim]

@[simp] theorem State.eoi_store (t id : Nat) : (s.eoi t id).store = s.store := by
  simp only [State.eoi]
  repeat' split
  all_goals simp

theorem execEoi_logOk (t : Fin 64) (v : Word) : LogOkAfter (execEoi t v s) ↔ s.store.LogOk := by simp [execEoi]
@[simp] theorem State.softSet_store (id : Nat) : (s.softSet id).store = s.store := by simp [State.softSet]
theorem execSoftSet_logOk (v : Word) : LogOkAfter (execSoftSet v s) ↔ s.store.LogOk := by simp [execSoftSet]

/-! ### The memory window and CXL.mem -/

@[simp] theorem State.meetDirError_store (r : HostReq) : (s.meetDirError r).store = s.store := by
  simp only [State.meetDirError]
  repeat' split
  all_goals simp

@[simp] theorem State.enqueue_logOk (r : HostReq) : (s.enqueue r).store.LogOk ↔ s.store.LogOk := by simp [State.enqueue]

@[simp] theorem State.takeRead_logOk (r : HostReq) : (s.takeRead r).store.LogOk ↔ s.store.LogOk := by
  simp only [State.takeRead]
  repeat' split
  all_goals simp

@[simp] theorem State.takeWrite_logOk (r : HostReq) : (s.takeWrite r).store.LogOk ↔ s.store.LogOk := by
  simp only [State.takeWrite]
  repeat' split
  all_goals simp

theorem execMemoryWindowRead_logOk (addr : HostAddr) (len : Nat) (tag : BitVec 14) (ev : AccessEv) :
    LogOkAfter (execMemoryWindowRead addr len tag ev s) ↔ s.store.LogOk := by simp [execMemoryWindowRead]
theorem execMemoryWindowWrite_logOk (addr : HostAddr) (data : List Byte) (ep : Bool) (ev : AccessEv) :
    LogOkAfter (execMemoryWindowWrite addr data ep ev s) ↔ s.store.LogOk := by simp [execMemoryWindowWrite]
theorem execZeroLengthRead_logOk (addr : HostAddr) (tag : BitVec 14) : LogOkAfter (execZeroLengthRead addr tag s) ↔ s.store.LogOk := by
  simp [execZeroLengthRead]
theorem execBar0BadAccess_logOk (write : Bool) (tag : BitVec 14) : LogOkAfter (execBar0BadAccess write tag s) ↔ s.store.LogOk := by
  simp [execBar0BadAccess]

theorem execCxlMemRd_logOk (hpa : BitVec 64) (tag : BitVec 14) (ev : AccessEv) :
    LogOkAfter (execCxlMemRd hpa tag ev s) ↔ s.store.LogOk := by
  simp only [execCxlMemRd]
  repeat' split
  all_goals simp

theorem execCxlMemWr_logOk (hpa : BitVec 64) (data : List Byte) (poison : Bool) (ev : AccessEv) :
    LogOkAfter (execCxlMemWr hpa data poison ev s) ↔ s.store.LogOk := by
  simp only [execCxlMemWr]
  repeat' split
  all_goals simp

theorem execCxlMemSpecRd_logOk (hpa : BitVec 64) (taken : Bool) : LogOkAfter (execCxlMemSpecRd hpa taken s) ↔ s.store.LogOk := by
  unfold execCxlMemSpecRd
  refine (logOkAfter_done s _).trans ?_
  split
  · split
    · dsimp only
      split
      all_goals rename_i h; simp [State.store_of_eq h]
    · rfl
  · rfl

@[simp] theorem State.rescrub_store (t : Tack) (r : MediaRead) : (s.rescrub t r).store = s.store := by simp [State.rescrub]
@[simp] theorem State.dropMembers_store (k : Nat) : (s.dropMembers k).store = s.store := by simp [State.dropMembers]

@[simp] theorem State.drain_store (k : Nat) : (s.drain k).store = s.store := by
  simp only [State.drain]
  repeat' split
  all_goals simp

@[simp] theorem State.watchUnborn_logOk (r : HostReq) : (s.watchUnborn r).store.LogOk ↔ s.store.LogOk := by simp [State.watchUnborn]

theorem execReadWatchdog_logOk (slot : BitVec 16) : LogOkAfter (execReadWatchdog slot s) ↔ s.store.LogOk := by
  unfold execReadWatchdog
  split
  · split
    all_goals simp
  · split
    · simp
    · split
      · rename_i r _ _
        extract_lets s1 s2
        have h1 : s1.store = s.store := by
          refine State.foldl_store s (fun s e => ?_) _
          split
          all_goals simp
        simp [s2, h1]
      · simp

theorem execTackLate_logOk (slot : BitVec 16) : LogOkAfter (execTackLate slot s) ↔ s.store.LogOk := by
  simp only [execTackLate]
  repeat' split
  all_goals simp

theorem execEcrcError_logOk : LogOkAfter (execEcrcError s) ↔ s.store.LogOk := by simp [execEcrcError]
theorem execMalformedTlp_logOk : LogOkAfter (execMalformedTlp s) ↔ s.store.LogOk := by simp [execMalformedTlp]
theorem execUnsupportedFeatureRequest_logOk (tag : BitVec 14) : LogOkAfter (execUnsupportedFeatureRequest tag s) ↔ s.store.LogOk := by
  simp [execUnsupportedFeatureRequest]
theorem execCxlGpf_logOk : LogOkAfter (execCxlGpf s) ↔ s.store.LogOk := by simp [execCxlGpf]
theorem execGpfLate_logOk (ms : Word) : LogOkAfter (execGpfLate ms s) ↔ s.store.LogOk := by simp [execGpfLate]
@[simp] theorem State.commitHdm_store (i : Nat) (dpaBase size : BitVec 64) (ways gran : Nat) :
    (s.commitHdm i dpaBase size ways gran).store = s.store := by simp [State.commitHdm]
theorem execHdmDecoderCommit_logOk (i : Fin 4) (dpaBase size : BitVec 64) (ways gran : Nat) :
    LogOkAfter (execHdmDecoderCommit i dpaBase size ways gran s) ↔ s.store.LogOk := by simp [execHdmDecoderCommit]

/-! ### The channel sequencer -/

@[simp] theorem State.wantRetrain_store (ch : Nat) : (s.wantRetrain ch).store = s.store := by simp [State.wantRetrain]
@[simp] theorem State.phaseEnds_store (ch : Nat) : (s.phaseEnds ch).store = s.store := by simp [State.phaseEnds]
@[simp] theorem State.busError_store (ch : Nat) (wr : Bool) : (s.busError ch wr).store = s.store := by simp [State.busError]
@[simp] theorem State.owe_store (ch : Nat) (i : HkItem) : (s.owe ch i).store = s.store := by simp [State.owe]

@[simp] theorem State.tryStart_store (k : Nat) (p : Program) : (s.tryStart k p).store = s.store := by
  unfold State.tryStart
  split
  all_goals simp

@[simp] theorem State.kick_store (die : Nat) : (s.kick die).store = s.store := by
  simp only [State.kick]
  repeat' split
  all_goals simp

@[simp] theorem State.kickChannel_store (ch : Nat) : (s.kickChannel ch).store = s.store := by simp [State.kickChannel]
@[simp] theorem State.startLate_store (die : Nat) : (s.startLate die).store = s.store := by simp [State.startLate]

@[simp] theorem State.issueSense_store (die : Nat) (guardOver : Bool) : (s.issueSense die guardOver).store = s.store := by
  simp only [State.issueSense]
  repeat' split
  all_goals simp

@[simp] theorem State.askMembers_store (k : Nat) : (s.askMembers k).store = s.store := by
  unfold State.askMembers
  split
  · rfl
  split
  · rfl
  refine State.foldl_store s (fun s m => ?_) _
  split
  · rfl
  dsimp only
  split
  all_goals rename_i h; simp [State.store_of_eq h]

@[simp] theorem State.toStitch_logOk (k : Nat) (t : Tack) (r : MediaRead) (reason : Nat) :
    (s.toStitch k t r reason).store.LogOk ↔ s.store.LogOk := by
  unfold State.toStitch
  split
  all_goals simp

@[simp] theorem State.stepFailed_logOk (k : Nat) (t : Tack) (r : MediaRead) : (s.stepFailed k t r).store.LogOk ↔ s.store.LogOk := by
  simp [State.stepFailed]
@[simp] theorem State.divert_logOk (die : Nat) : (s.divert die).store.LogOk ↔ s.store.LogOk := by simp [State.divert]

@[simp] theorem State.offerCopy_store (k : Nat) (t : Tack) (r : MediaRead) (c : Option Cell) : (s.offerCopy k t r c).store = s.store := by
  unfold State.offerCopy
  split
  all_goals simp

@[simp] theorem State.dirtyLine_store (leaf : Nat) : (s.dirtyLine leaf).store = s.store := by
  unfold State.dirtyLine
  split
  all_goals simp

@[simp] theorem State.readDone_store (k : Nat) (t : Tack) (r : MediaRead) (c : Option Cell) : (s.readDone k t r c).store = s.store := by
  simp only [State.readDone]
  repeat' split
  all_goals simp

@[simp] theorem State.stepPassed_store (k : Nat) (t : Tack) (r : MediaRead) (c : Option Cell) (corrected : Nat) (learn : List Int) :
    (s.stepPassed k t r c corrected learn).store = s.store := by
  unfold State.stepPassed
  extract_lets die q limit s1 s2 s3 sample put s4 s5 s6
  have h4 : s4.store = s3.store := by
    simp only [s4]
    repeat' split
    all_goals rfl
  simp [s6, s5, h4, s3, s2, s1]

@[simp] theorem State.admitDecodes_store (fuel : Nat) : (s.admitDecodes fuel).store = s.store := by
  induction fuel generalizing s with
  | zero => rfl
  | succ n ih =>
    simp only [State.admitDecodes]
    split
    · exact ih _
    · rfl

@[simp] theorem State.toDecoder_store (k : Nat) : (s.toDecoder k).store = s.store := by simp [State.toDecoder]

theorem execDecodeDone_logOk (slot : BitVec 16) (out : DecodeOut) : LogOkAfter (execDecodeDone slot out s) ↔ s.store.LogOk := by
  simp only [execDecodeDone]
  repeat' split
  all_goals simp

theorem execStitchRebuild_logOk (slot : BitVec 16) (k : Sys2Proof.Kept) : LogOkAfter (execStitchRebuild slot k s) ↔ s.store.LogOk := by
  simp only [execStitchRebuild]
  split
  · simp
  · simp only [logOkAfter_ite, logOkAfter_done]
    repeat' split
    all_goals simp

@[simp] theorem State.histDone_logOk (k : Nat) (t : Tack) (r : MediaRead) (h : List Nat) :
    (s.histDone k t r h).store.LogOk ↔ s.store.LogOk := by
  simp only [State.histDone]
  repeat' split
  all_goals simp

theorem execXferComplete_logOk (ch : Chan) (crcOk : Bool) (hist : List Nat) :
    LogOkAfter (execXferComplete ch crcOk hist s) ↔ s.store.LogOk := by
  unfold execXferComplete
  split
  all_goals simp

theorem execLoadComplete_logOk (ch : Chan) (crcOk : Bool) : LogOkAfter (execLoadComplete ch crcOk s) ↔ s.store.LogOk := by
  simp only [execLoadComplete]
  repeat' split
  all_goals simp

theorem execSenseIssue_logOk (ch : Chan) (d : DieNo) (guardOver : Bool) : LogOkAfter (execSenseIssue ch d guardOver s) ↔ s.store.LogOk := by
  simp [execSenseIssue]

@[simp] theorem State.reinit_logOk (k : Nat) : (s.reinit k).store.LogOk ↔ s.store.LogOk := by
  simp only [State.reinit]
  repeat' split
  all_goals simp

@[simp] theorem State.loseDie_logOk (k : Nat) : (s.loseDie k).store.LogOk ↔ s.store.LogOk := by simp [State.loseDie]
@[simp] theorem State.configDie_store (k : Nat) (fast : Bool) : (s.configDie k fast).store = s.store := by rfl
@[simp] theorem State.reinitDone_logOk (k : Nat) (refs : Tab (List Nat)) : (s.reinitDone k refs).store.LogOk ↔ s.store.LogOk := by
  simp [State.reinitDone]

theorem execDieTimeout_logOk (ch : Chan) (d : DieNo) (k : Sys2Proof.Kept) : LogOkAfter (execDieTimeout ch d k s) ↔ s.store.LogOk := by
  unfold execDieTimeout
  extract_lets k x op c tack again s1 s2
  have h1 : s1.store.LogOk ↔ s.store.LogOk := by simp [s1]
  have h2 : s2.store.LogOk ↔ s.store.LogOk := by simp [s2, h1]
  split
  · simp
  · simp [h2]

theorem execAlertAsserted_logOk (ch : Chan) (reports internal : Byte) :
    LogOkAfter (execAlertAsserted ch reports internal s) ↔ s.store.LogOk := by simp [execAlertAsserted]
theorem execAlertStuck_logOk (ch : Chan) : LogOkAfter (execAlertStuck ch s) ↔ s.store.LogOk := by simp [execAlertStuck]
theorem execAlertStuckEnd_logOk (ch : Chan) : LogOkAfter (execAlertStuckEnd ch s) ↔ s.store.LogOk := by simp [execAlertStuckEnd]
@[simp] theorem State.alertEnds_store (ch : Nat) : (s.alertEnds ch).store = s.store := by simp [State.alertEnds]
@[simp] theorem State.judgeHot_store (k : Nat) : (s.judgeHot k).store = s.store := by rfl
@[simp] theorem State.markWaited_store (die : Nat) : (s.markWaited die).store = s.store := by simp [State.markWaited]
@[simp] theorem State.dieAlert_logOk (ch d : Nat) (x : Die) : (s.dieAlert ch d x).store.LogOk ↔ s.store.LogOk := by simp [State.dieAlert]

@[simp] theorem State.statusClear_logOk (ch d : Nat) : (s.statusClear ch d).store.LogOk ↔ s.store.LogOk := by
  simp only [State.statusClear]
  repeat' split
  all_goals simp

@[simp] theorem State.rvalidDie_store (k : Nat) : (s.rvalidDie k).store = s.store := by simp [State.rvalidDie]
@[simp] theorem State.rvalidScan_store (ch : Nat) : (s.rvalidScan ch).store = s.store := by simp [State.rvalidScan]
@[simp] theorem State.ardyDie_store (ch i : Nat) : (s.ardyDie ch i).store = s.store := by simp [State.ardyDie]
@[simp] theorem State.ardyScan_store (ch : Nat) : (s.ardyScan ch).store = s.store := by simp [State.ardyScan]
@[simp] theorem State.pollDie_store (ch i : Nat) : (s.pollDie ch i).store = s.store := by simp [State.pollDie]
@[simp] theorem State.takeTemp_store (ch d : Nat) (temp : Int) : (s.takeTemp ch d temp).store = s.store := by simp [State.takeTemp]

theorem execHousekeepingWindow_logOk (ch : Chan) (temp : BitVec 16) : LogOkAfter (execHousekeepingWindow ch temp s) ↔ s.store.LogOk := by
  simp only [execHousekeepingWindow]
  repeat' split
  all_goals simp

@[simp] theorem State.writeMediaCtrl_store (v : Nat) : (s.writeMediaCtrl v).store = s.store := by simp [State.writeMediaCtrl]
theorem execRetrainAll_logOk (v : Word) : LogOkAfter (execRetrainAll v s) ↔ s.store.LogOk := by simp [execRetrainAll]
@[simp] theorem State.writeChCtrl_store (ch v : Nat) : (s.writeChCtrl ch v).store = s.store := by simp [State.writeChCtrl]
theorem execRetrain_logOk (ch : Chan) (v : Word) : LogOkAfter (execRetrain ch v s) ↔ s.store.LogOk := by simp [execRetrain]
@[simp] theorem State.trained_store (ch : Nat) (trim deskew : Word) : (s.trained ch trim deskew).store = s.store := by simp [State.trained]

@[simp] theorem State.startTemps_store (ch : Nat) (temps : List (BitVec 16)) : (s.startTemps ch temps).store = s.store := by
  refine State.foldl_store s (fun s x => ?_) _
  split
  all_goals simp

@[simp] theorem State.dropPhase_store (ch : Nat) : (s.dropPhase ch).store = s.store := by rfl
@[simp] theorem State.failChannel_logOk (ch : Nat) : (s.failChannel ch).store.LogOk ↔ s.store.LogOk := by simp [State.failChannel]
theorem execRetrainDone_logOk (ch : Chan) (ok : Bool) (trim deskew : Word) (ck : Nat) (temps : List (BitVec 16)) :
    LogOkAfter (execRetrainDone ch ok trim deskew ck temps s) ↔ s.store.LogOk := by simp [execRetrainDone]

/-! ### Block life -/

@[simp] theorem State.openPosition_store (slot : Nat) (copy : Bool) (j die : Nat) : (s.openPosition slot copy j die).store = s.store := by
  unfold State.openPosition
  split
  all_goals simp

theorem execStitchForm_logOk (copy : Bool) : LogOkAfter (execStitchForm copy s) ↔ s.store.LogOk := by
  unfold execStitchForm
  split
  all_goals simp

@[simp] theorem State.takeLeaves_store (slot m : Nat) : (s.takeLeaves slot m).store = s.store := by
  unfold State.takeLeaves
  extract_lets x b all os offers cws what s' refresh
  have hs : s'.store = s.store := s.setBlocks_store _
  split
  · rfl
  extract_lets p pg media t
  split
  · simp [hs]
  split
  · rename_i h
    simp [State.store_of_eq h, hs]
  · rfl

theorem execMemberProgram_logOk (stitch : Fin 48) (member : Fin 16) : LogOkAfter (execMemberProgram stitch member s) ↔ s.store.LogOk := by
  simp [execMemberProgram]
theorem execPadTimeout_logOk (stitch : Fin 48) (member : Fin 16) : LogOkAfter (execPadTimeout stitch member s) ↔ s.store.LogOk := by
  simp [execPadTimeout]

@[simp] theorem State.programParity_store (slot : Nat) (x : Stitch) (row : Nat) (q : Bool) :
    (s.programParity slot x row q).store = s.store := by
  unfold State.programParity
  split
  all_goals simp

theorem execParityRowProgram_logOk (stitch : Fin 48) : LogOkAfter (execParityRowProgram stitch s) ↔ s.store.LogOk := by
  simp only [execParityRowProgram]
  repeat' split
  all_goals simp

@[simp] theorem State.burnishOn_store (key : Nat) : (s.burnishOn key).store = s.store := by
  unfold State.burnishOn
  split
  all_goals simp

theorem execBurnishMember_logOk (stitch : Fin 48) (member : Fin 16) : LogOkAfter (execBurnishMember stitch member s) ↔ s.store.LogOk := by
  simp only [execBurnishMember]
  repeat' split
  all_goals simp

theorem execBurnishResult_logOk (stitch : Fin 48) (member : Fin 16) (k0 k1 : Sys2Proof.Kept) :
    LogOkAfter (execBurnishResult stitch member k0 k1 s) ↔ s.store.LogOk := by
  simp only [execBurnishResult]
  split
  · simp
  · simp

@[simp] theorem State.pumpJob_store (j : Job) (fuel : Nat) : (s.pumpJob j fuel).1.store = s.store := by
  induction fuel generalizing s j with
  | zero => rfl
  | succ n ih =>
    unfold State.pumpJob
    split
    · rfl
    split
    · rfl
    split
    · rename_i h
      simp [ih, State.store_of_eq h]
    · rfl

@[simp] theorem State.pumpImages_logOk (j : Job) : (s.pumpImages j).store.LogOk ↔ s.store.LogOk := by
  refine State.foldl_logOk s (fun s g => ?_) _
  split
  · rfl
  split
  all_goals simp

@[simp] theorem State.pumpJobs_logOk : s.pumpJobs.store.LogOk ↔ s.store.LogOk := by simp [State.pumpJobs]
@[simp] theorem State.recount_store (db : Nat) : (s.recount db).store = s.store := by rfl

@[simp] theorem State.closeFill_store (db : Nat) : (s.closeFill db).store = s.store := by
  unfold State.closeFill
  split
  all_goals simp

@[simp] theorem State.startJob_logOk (db : Nat) (refresh : Bool) : (s.startJob db refresh).store.LogOk ↔ s.store.LogOk := by
  simp [State.startJob]

theorem execSkiverVictimSelect_logOk : LogOkAfter (execSkiverVictimSelect s) ↔ s.store.LogOk := by
  simp only [execSkiverVictimSelect]
  repeat' split
  all_goals simp

theorem execSkiverCopyProgram_logOk : LogOkAfter (execSkiverCopyProgram s) ↔ s.store.LogOk := by
  simp only [execSkiverCopyProgram]
  repeat' split
  all_goals simp

@[simp] theorem State.leaveOffline_logOk (db : Nat) : (s.leaveOffline db).store.LogOk ↔ s.store.LogOk := by simp [State.leaveOffline]

@[simp] theorem State.passEmptied_logOk (db : Nat) : (s.passEmptied db).store.LogOk ↔ s.store.LogOk := by
  unfold State.passEmptied
  split
  all_goals simp

theorem execVictimErase_logOk : LogOkAfter (execVictimErase s) ↔ s.store.LogOk := by
  simp only [execVictimErase]
  repeat' split
  all_goals simp

theorem execRefreshJob_logOk : LogOkAfter (execRefreshJob s) ↔ s.store.LogOk := by
  simp only [execRefreshJob]
  repeat' split
  all_goals simp

@[simp] theorem State.scrubOn_store (db : Nat) : (s.scrubOn db).store = s.store := by
  unfold State.scrubOn
  split
  all_goals simp

theorem execScrubPatrol_logOk (dieBlock : BitVec 20) (k0 k1 : Sys2Proof.Kept) :
    LogOkAfter (execScrubPatrol dieBlock k0 k1 s) ↔ s.store.LogOk := by
  unfold execScrubPatrol
  extract_lets db b pages run s1
  have h1 : s1.store = s.store := by
    simp only [s1]
    split
    · rfl
    · simp
  split
  · simp [h1]
  · simp

theorem execSystemCopyRefresh_logOk : LogOkAfter (execSystemCopyRefresh s) ↔ s.store.LogOk := by
  simp only [execSystemCopyRefresh]
  repeat' split
  all_goals simp

@[simp] theorem State.wearSnapshot_logOk : s.wearSnapshot.store.LogOk ↔ s.store.LogOk := by simp [State.wearSnapshot]
theorem execWearSnapshot_logOk : LogOkAfter (execWearSnapshot s) ↔ s.store.LogOk := by simp [execWearSnapshot]

/-! ### Segments, the map updater and welts -/

@[simp] theorem State.loseSegment_logOk (g : Nat) : (s.loseSegment g).store.LogOk ↔ s.store.LogOk := by
  unfold State.loseSegment
  refine (State.event_logOk _ _ _ _ _ _).trans (State.logOk_congr ((State.enterHoles_store _ _).trans ?_))
  split
  · exact (State.setXlat_store _ _).trans (State.leafState_store _ _ _ _ _ _)
  · exact State.leafState_store _ _ _ _ _ _

theorem execSegReadDone_logOk (seg : BitVec 22) (k0 k1 : Sys2Proof.Kept) : LogOkAfter (execSegReadDone seg k0 k1 s) ↔ s.store.LogOk := by
  unfold execSegReadDone
  extract_lets g slot
  clear_value slot
  split
  · simp
  split
  · simp
  extract_lets s1 x s2
  have h1 : s1.store = s.store := by simp [s1]
  have h2 : s2.store = s.store := by
    simp only [s2]
    split
    · simp [h1]
    · exact h1
  split
  · simp [h2]
  · simp [h2]

theorem execSegWrite_logOk (seg : BitVec 22) : LogOkAfter (execSegWrite seg s) ↔ s.store.LogOk := by simp [execSegWrite]
@[simp] theorem State.jobSwitched_store (a rseq : Nat) : (s.jobSwitched a rseq).store = s.store := by rfl

theorem execLeafMapAppend_logOk : LogOkAfter (execLeafMapAppend s) ↔ s.store.LogOk := by
  simp only [execLeafMapAppend]
  repeat' split
  all_goals simp

theorem execJrnWindowExpiry_logOk : LogOkAfter (execJrnWindowExpiry s) ↔ s.store.LogOk := by simp [execJrnWindowExpiry]
theorem execJournalRingErase_logOk (stream : Fin 8) (block : Fin 4) : LogOkAfter (execJournalRingErase stream block s) ↔ s.store.LogOk := by
  simp [execJournalRingErase]
@[simp] theorem State.markWelt_store (clean : Bool) : (s.markWelt clean).store = s.store := by simp [State.markWelt]
@[simp] theorem State.resumeWelt_store (erasing : List Nat) (streams : Tab (Nat × Nat)) :
    (s.resumeWelt erasing streams).store = s.store := by simp [State.resumeWelt]

@[simp] theorem State.startWelt_logOk (clean : Bool) : (s.startWelt clean).store.LogOk ↔ s.store.LogOk := by
  unfold State.startWelt
  split
  all_goals simp

theorem execWeltStart_logOk : LogOkAfter (execWeltStart s) ↔ s.store.LogOk := by
  simp only [execWeltStart]
  repeat' split
  all_goals simp

theorem execWeltPeriodExpiry_logOk : LogOkAfter (execWeltPeriodExpiry s) ↔ s.store.LogOk := by simp [execWeltPeriodExpiry]
@[simp] theorem State.endWelt_logOk (w : Welt) : (s.endWelt w).store.LogOk ↔ s.store.LogOk := by simp [State.endWelt]

theorem execWeltDone_logOk : LogOkAfter (execWeltDone s) ↔ s.store.LogOk := by
  unfold execWeltDone
  split
  all_goals simp

@[simp] theorem State.writeXlatCtrl_store (v : Nat) : (s.writeXlatCtrl v).store = s.store := by simp [State.writeXlatCtrl]
theorem execWeltNow_logOk (v : Word) : LogOkAfter (execWeltNow v s) ↔ s.store.LogOk := by simp [execWeltNow]

@[simp] theorem State.remapLine_logOk (line : Nat) : (s.remapLine line).store.LogOk ↔ s.store.LogOk := by
  simp only [State.remapLine]
  repeat' split
  all_goals simp

theorem execDirLineRebuild_logOk (line : BitVec 19) (out : LineRebuild) : LogOkAfter (execDirLineRebuild line out s) ↔ s.store.LogOk := by
  simp [execDirLineRebuild]

theorem execDirPatrol_logOk (line : BitVec 19) (found : LineRead) : LogOkAfter (execDirPatrol line found s) ↔ s.store.LogOk := by
  unfold execDirPatrol
  split
  all_goals simp

@[simp] theorem State.peekEntry_store (index : Nat) (crcOk : Bool) : (s.peekEntry index crcOk).store = s.store := by simp [State.peekEntry]
theorem execDirPeek_logOk (index : BitVec 22) (crcOk : Bool) : LogOkAfter (execDirPeek index crcOk s) ↔ s.store.LogOk := by
  simp [execDirPeek]

end

end Sys2Proof.Machine
end

section
/-! SUPPORT. The event log, continued: power, command packets, firmware slots and boards. -/

namespace Sys2Proof.Machine

section
variable (s : State)

/-! ### The power steward -/

@[simp] theorem State.enableRail_store (slot : Nat) (on : Bool) : (s.enableRail slot on).store = s.store := by rfl
@[simp] theorem State.railFailed_store (slot : Nat) : (s.railFailed slot).store = s.store := by simp [State.railFailed]

@[simp] theorem State.startChannel_store (ch : Nat) : (s.startChannel ch).store = s.store := by
  unfold State.startChannel
  split
  · rfl
  · exact (State.setChan_store _ _ _).trans (State.foldl_store s (fun s k => by simp) _)

@[simp] theorem State.startOctet_store (k : Nat) : (s.startOctet k).store = s.store := by simp [State.startOctet]
@[simp] theorem State.darkOctet_store (k : Nat) : (s.darkOctet k).store = s.store := by simp [State.darkOctet, State.darken_store]
@[simp] theorem State.resumePrograms_store : s.resumePrograms.store = s.store := by rfl
@[simp] theorem State.octetFails_logOk (k : Nat) : (s.octetFails k).store.LogOk ↔ s.store.LogOk := by simp [State.octetFails]
@[simp] theorem State.drive_store (name : String) (level : Bool) : (s.drive name level).store = s.store := by rfl

@[simp] theorem State.powerDown_logOk : s.powerDown.store.LogOk ↔ s.store.LogOk := by
  simp only [State.powerDown]
  repeat' split
  all_goals simp

@[simp] theorem State.enterFault_logOk (cause : Nat) : (s.enterFault cause).store.LogOk ↔ s.store.LogOk := by
  simp only [State.enterFault]
  repeat' split
  all_goals simp

@[simp] theorem State.waitFault_logOk (cause : Nat) : (s.waitFault cause).store.LogOk ↔ s.store.LogOk := by simp [State.waitFault]

@[simp] theorem State.afterProgram_logOk : s.afterProgram.store.LogOk ↔ s.store.LogOk := by
  unfold State.afterProgram
  split
  all_goals simp

@[simp] theorem State.settleProvisional_logOk : s.settleProvisional.store.LogOk ↔ s.store.LogOk := by simp [State.settleProvisional]
@[simp] theorem State.enterCinch_logOk (why : CinchWhy) (fault : Option Nat) : (s.enterCinch why fault).store.LogOk ↔ s.store.LogOk := by
  simp [State.enterCinch]

@[simp] theorem State.endCinch_logOk (cause : Nat) : (s.endCinch cause).store.LogOk ↔ s.store.LogOk := by
  simp only [State.endCinch]
  repeat' split
  all_goals simp

@[simp] theorem State.softFault_logOk (cause : Nat) : (s.softFault cause).store.LogOk ↔ s.store.LogOk := by
  unfold State.softFault
  split
  all_goals simp

@[simp] theorem State.offRequest_logOk : s.offRequest.store.LogOk ↔ s.store.LogOk := by
  unfold State.offRequest
  split
  all_goals simp

@[simp] theorem State.railsDone_logOk : s.railsDone.store.LogOk ↔ s.store.LogOk := by simp [State.railsDone]

@[simp] theorem State.nextOctet_logOk (k : Nat) : (s.nextOctet k).store.LogOk ↔ s.store.LogOk := by
  unfold State.nextOctet
  split
  all_goals simp

@[simp] theorem State.setEnergy_logOk (e : Nat) : (s.setEnergy e).store.LogOk ↔ s.store.LogOk := by simp [State.setEnergy]
@[simp] theorem State.startCharging_logOk : s.startCharging.store.LogOk ↔ s.store.LogOk := by simp [State.startCharging]
@[simp] theorem State.mediaRails_logOk : s.mediaRails.store.LogOk ↔ s.store.LogOk := by simp [State.mediaRails]
@[simp] theorem State.loadBd_store (b : List Byte) : (s.loadBd b).store = s.store := by simp [State.loadBd]

@[simp] theorem State.verdict_logOk : s.verdict.store.LogOk ↔ s.store.LogOk := by
  simp only [State.verdict]
  repeat' split
  all_goals simp

@[simp] theorem State.stepUp_logOk (ok : Bool) : (s.stepUp ok).store.LogOk ↔ s.store.LogOk := by
  simp only [State.stepUp]
  repeat' split
  all_goals simp

@[simp] theorem State.standby_store : s.standby.store = s.store := by simp [State.standby, State.darken_store]

@[simp] theorem State.lowerNext_store : s.lowerNext.store = s.store := by
  unfold State.lowerNext
  split
  all_goals simp

@[simp] theorem State.dropRails_store : s.dropRails.store = s.store := by simp [State.dropRails]

/-! ### Power and its faults -/

theorem execOnRequest_logOk (darkSeconds : Nat) : LogOkAfter (execOnRequest darkSeconds s) ↔ s.store.LogOk := by simp [execOnRequest]
theorem execShelfEnLow_logOk : LogOkAfter (execShelfEnLow s) ↔ s.store.LogOk := by simp [execShelfEnLow]
@[simp] theorem State.offReq_logOk : s.offReq.store.LogOk ↔ s.store.LogOk := by simp [State.offReq]
theorem execOffReq_logOk : LogOkAfter (execOffReq s) ↔ s.store.LogOk := by simp [execOffReq]
@[simp] theorem State.endMeasCommands_store : s.endMeasCommands.store = s.store := (trails_endMeasCommands s).store
@[simp] theorem State.saveBank_logOk : s.saveBank.store.LogOk ↔ s.store.LogOk := by simp [State.saveBank]
@[simp] theorem State.measured_logOk (m : Meas) (dt : ℚ) (va : Nat) : (s.measured m dt va).store.LogOk ↔ s.store.LogOk := by
  simp [State.measured]
@[simp] theorem State.measFailed_logOk (m : Meas) : (s.measFailed m).store.LogOk ↔ s.store.LogOk := by simp [State.measFailed]
@[simp] theorem State.startMeasure_logOk : s.startMeasure.store.LogOk ↔ s.store.LogOk := by simp [State.startMeasure]

@[simp] theorem State.measConv_logOk (prev : Option (Nat × Nat)) (mv : Nat) : (s.measConv prev mv).store.LogOk ↔ s.store.LogOk := by
  simp only [State.measConv]
  repeat' split
  all_goals simp

@[simp] theorem State.chargeConv_store (mv : Nat) : (s.chargeConv mv).store = s.store := by simp [State.chargeConv]
@[simp] theorem State.holdConv_logOk (mv : Nat) : (s.holdConv mv).store.LogOk ↔ s.store.LogOk := by simp [State.holdConv]
@[simp] theorem State.restoreDie_logOk (d : Nat) : (s.restoreDie d).store.LogOk ↔ s.store.LogOk := by simp [State.restoreDie]

theorem State.restoreDie_renewed_logOk (d : Nat) (c : DieCtl) (x : Die) :
    State.LogOk ((((s.setCtl d c).setDie d x).configDie d true).restoreDie d) ↔ s.LogOk :=
  (State.restoreDie_logOk _ d).trans Iff.rfl

@[simp] theorem State.restoreUnit_logOk (level first n : Nat) : (s.restoreUnit level first n).store.LogOk ↔ s.store.LogOk := by
  unfold State.restoreUnit
  refine (State.checkSpace_logOk _).trans ((State.logOk_congr (State.setCmdq_store _ _)).trans ?_)
  refine (State.logOk_congr (State.foldl_store _ (fun s c => ?_) _)).trans ?_
  · split
    · rfl
    · rfl
  refine (State.logOk_congr ((State.setLeaving_store _ _).trans (State.tick_store _))).trans ?_
  exact iff_of_eq (State.foldl_keeps State.LogOk (fun s d => propext (s.restoreDie_renewed_logOk d _ _)) _ _)

@[simp] theorem State.railsRestored_logOk (k : Nat) (ok : Bool) : (s.railsRestored k ok).store.LogOk ↔ s.store.LogOk := by
  simp [State.railsRestored]

@[simp] theorem State.pfw_logOk : s.pfw.store.LogOk ↔ s.store.LogOk := by
  simp only [State.pfw]
  repeat' split
  all_goals simp

@[simp] theorem State.railFault_logOk (slot mv : Nat) : (s.railFault slot mv).store.LogOk ↔ s.store.LogOk := by simp [State.railFault]
@[simp] theorem State.watch_logOk (slot mv : Nat) (ok : Bool) : (s.watch slot mv ok).store.LogOk ↔ s.store.LogOk := by simp [State.watch]

@[simp] theorem State.railUp_logOk : s.railUp.store.LogOk ↔ s.store.LogOk := by
  unfold State.railUp
  split
  all_goals simp

@[simp] theorem State.railConv_logOk (slot mv : Nat) : (s.railConv slot mv).store.LogOk ↔ s.store.LogOk := by simp [State.railConv]
theorem execAdcConversion_logOk (mv : BitVec 16) : LogOkAfter (execAdcConversion mv s) ↔ s.store.LogOk := by simp [execAdcConversion]

theorem execRailTimeout_logOk : LogOkAfter (execRailTimeout s) ↔ s.store.LogOk := by
  unfold execRailTimeout
  split
  all_goals simp

theorem execPowerDown_logOk : LogOkAfter (execPowerDown s) ↔ s.store.LogOk := by
  unfold execPowerDown
  refine (logOkAfter_done s _).trans ?_
  split
  · rfl
  · exact State.logOk_congr ((State.lowerNext_store _).trans (s.darken_store _))

@[simp] theorem State.dieAnswers_logOk (k : Nat) : (s.dieAnswers k).store.LogOk ↔ s.store.LogOk := by simp [State.dieAnswers]
@[simp] theorem State.channelAnswers_store (ch : Nat) : (s.channelAnswers ch).store = s.store := by simp [State.channelAnswers]

theorem execDiePor_logOk (ch : Chan) (d : DieNo) : LogOkAfter (execDiePor ch d s) ↔ s.store.LogOk := by
  simp only [execDiePor]
  repeat' split
  all_goals simp

theorem execDieResetEnd_logOk (ch : Chan) (d : DieNo) : LogOkAfter (execDieResetEnd ch d s) ↔ s.store.LogOk := by
  simp only [execDieResetEnd]
  repeat' split
  all_goals simp

theorem execDieProgramEnd_logOk (ch : Chan) (d : DieNo) (fail : Bool) : LogOkAfter (execDieProgramEnd ch d fail s) ↔ s.store.LogOk := by
  simp [execDieProgramEnd]

theorem execChannelStartTimeout_logOk (ch : Chan) : LogOkAfter (execChannelStartTimeout ch s) ↔ s.store.LogOk := by
  unfold execChannelStartTimeout
  split
  all_goals simp

theorem execMeasurementTimeout_logOk : LogOkAfter (execMeasurementTimeout s) ↔ s.store.LogOk := by
  unfold execMeasurementTimeout
  split
  all_goals simp

theorem execMeasurementPeriod_logOk : LogOkAfter (execMeasurementPeriod s) ↔ s.store.LogOk := by simp [execMeasurementPeriod]
theorem execMeasure_logOk : LogOkAfter (execMeasure s) ↔ s.store.LogOk := by simp [execMeasure]

theorem execMeasurementDrainDone_logOk : LogOkAfter (execMeasurementDrainDone s) ↔ s.store.LogOk := by
  unfold execMeasurementDrainDone
  split
  all_goals simp

theorem execDrainTimeout_logOk : LogOkAfter (execDrainTimeout s) ↔ s.store.LogOk := by
  unfold execDrainTimeout
  split
  all_goals simp

theorem execEnergyEstimate_logOk : LogOkAfter (execEnergyEstimate s) ↔ s.store.LogOk := by
  unfold execEnergyEstimate
  split
  all_goals simp

theorem execPfw_logOk : LogOkAfter (execPfw s) ↔ s.store.LogOk := by simp [execPfw]
theorem execPfwRearm_logOk : LogOkAfter (execPfwRearm s) ↔ s.store.LogOk := by simp [execPfwRearm]
theorem execAonSwitch_logOk (mv : BitVec 16) : LogOkAfter (execAonSwitch mv s) ↔ s.store.LogOk := by simp [execAonSwitch]
theorem execAonReturn_logOk : LogOkAfter (execAonReturn s) ↔ s.store.LogOk := by simp [execAonReturn]

theorem execAonReset_logOk (cut : Option StoreCut) (evt : Option Bool) : LogOkAfter (execAonReset cut evt s) := by
  unfold execAonReset
  refine (logOkAfter_done s _).mpr ⟨Nat.zero_le _, fun p => ?_⟩
  show (Tab.get ([] : Tab (List Event)) p []).length ≤ 4
  simp [Tab.get, Tab.find]

theorem Store.scanLog_ports (st : Store) (i n : Nat) : (st.scanLog i n).ports = st.ports := by
  induction n generalizing st i with
  | zero => rfl
  | succ n ih =>
    simp only [Store.scanLog]
    repeat' split
    all_goals simp [ih]

theorem Store.logOk_scanLog {st : Store} (h : st.LogOk) : (st.scanLog 0 2048).LogOk :=
  ⟨Store.scanLog_evCount_le st 0 2048, (Store.scanLog_ports st 0 2048).symm ▸ h.2⟩

theorem execAonBoot_logOk (h : s.store.LogOk) : LogOkAfter (execAonBoot s) := by
  unfold execAonBoot
  split
  · simpa using h
  extract_lets s1 s2 n lost st s3 c s4 s5 y z s6 _
  have h2 : s2.store.LogOk := Store.logOk_scanLog (s.recoverAll_logOk.mpr h)
  have h4 : s4.store.LogOk := (State.logOk_congr (State.setCmdq_store _ _)).mpr ((State.save_logOk _ _ _).mpr h2)
  have h5 : s5.store = s4.store := by
    simp only [s5]
    split
    all_goals simp
  have h6 : s6.store = s5.store := by
    simp only [s6]
    split
    · rfl
    · rfl
  exact (logOkAfter_done s _).mpr (h6 ▸ h5 ▸ h4)

theorem execPllLost_logOk : LogOkAfter (execPllLost s) ↔ s.store.LogOk := by simp [execPllLost]
theorem execPllHoldoverExpiry_logOk : LogOkAfter (execPllHoldoverExpiry s) ↔ s.store.LogOk := by simp [execPllHoldoverExpiry]
@[simp] theorem State.setCinchStep_store (c : CinchStep) : (s.setCinchStep c).store = s.store := by rfl
theorem execCinchAcceptEnd_logOk : LogOkAfter (execCinchAcceptEnd s) ↔ s.store.LogOk := by simp [execCinchAcceptEnd]
theorem execCinchWritebackComplete_logOk : LogOkAfter (execCinchWritebackComplete s) ↔ s.store.LogOk := by simp [execCinchWritebackComplete]
theorem execCinchParityComplete_logOk : LogOkAfter (execCinchParityComplete s) ↔ s.store.LogOk := by simp [execCinchParityComplete]
theorem execCinchJournalComplete_logOk : LogOkAfter (execCinchJournalComplete s) ↔ s.store.LogOk := by simp [execCinchJournalComplete]
theorem execCinchDeltaCommitted_logOk : LogOkAfter (execCinchDeltaCommitted s) ↔ s.store.LogOk := by simp [execCinchDeltaCommitted]
theorem execCinchBudgetExpiry_logOk : LogOkAfter (execCinchBudgetExpiry s) ↔ s.store.LogOk := by simp [execCinchBudgetExpiry]
theorem execCritLockoutEnd_logOk : LogOkAfter (execCritLockoutEnd s) ↔ s.store.LogOk := by simp [execCritLockoutEnd]

/-! ### Command packets -/

theorem State.store_of_arrive {port : Port} {p : Packet} {t : State} {c : Cmd} (h : s.arrive port p = some (t, c)) : t.store = s.store := by
  have ha : ∀ x ∈ s.arrive port p, x.1.store = s.store := by
    unfold State.arrive
    repeat' split
    all_goals simp [State.enterCmd, State.fetchEntry]
  exact ha _ h

@[simp] theorem State.enterCmd_store (port : Port) (p : Packet) : (s.enterCmd port p).1.store = s.store := by rfl
@[simp] theorem State.fetchEntry_store (q : Fin 1024) (p : Packet) : (s.fetchEntry q p).1.store = s.store := by rfl

/-- A packet is refused or held with the store as it was, or its command acts on a state with that store. -/
theorem State.run_cases (code : Nat) (port : Port) (p : Packet) (act : State → Cmd → State) :
    (s.run code port p act).store = s.store ∨ ∃ t c, t.store = s.store ∧ s.run code port p act = act t c := by
  unfold State.run
  split
  · exact .inl rfl
  split
  · exact .inl rfl
  rename_i t c ha
  have ht : t.store = s.store := State.store_of_arrive s ha
  split
  · exact .inl ht
  split
  · exact .inl ((State.finish_store _ _ _ _ _).trans ht)
  · exact .inr ⟨t, c, ht, rfl⟩

@[simp] theorem State.run_logOk (code : Nat) (port : Port) (p : Packet) {act : State → Cmd → State}
    (h : ∀ s c, (act s c).store.LogOk ↔ s.store.LogOk) : (s.run code port p act).store.LogOk ↔ s.store.LogOk := by
  obtain hr | ⟨t, c, ht, hr⟩ := s.run_cases code port p act
  · rw [hr]
  · rw [hr, h, ht]

@[simp] theorem State.ok_store (c : Cmd) : (s.ok c).store = s.store := by simp [State.ok]
@[simp] theorem State.fail_store (c : Cmd) (code : Nat) : (s.fail c code).store = s.store := by simp [State.fail]
@[simp] theorem State.answer_store (c : Cmd) (bs : List Byte) : (s.answer c bs).store = s.store := by simp [State.answer]
@[simp] theorem State.await_store (c : Cmd) (st : CmdStep) : (s.await c st).store = s.store := by rfl

/-! ### Health and reports -/

@[simp] theorem State.formRecord_store (level first path : Nat) (h : HRec) : (s.formRecord level first path h).1.store = s.store := by rfl

/-! ### Firmware slots -/

@[simp] theorem State.acceptHeader_logOk : s.acceptHeader.store.LogOk ↔ s.store.LogOk := by
  unfold State.acceptHeader
  extract_lets slot p s1 _ s2
  have h2 : s2.store.LogOk ↔ s.store.LogOk := by simp [s2, s1]
  rw [State.imageOn_logOk]
  refine (State.foldl_logOk s2 (fun s p => ?_) _).trans h2
  split
  all_goals simp

@[simp] theorem State.takeImage_logOk (c : Cmd) (bs : List Byte) (back : Images) : (s.takeImage c bs back).store.LogOk ↔ s.store.LogOk := by
  simp only [State.takeImage]
  repeat' split
  all_goals simp

@[simp] theorem State.endChunk_logOk (c : Cmd) : (s.endChunk c).store.LogOk ↔ s.store.LogOk := by simp [State.endChunk]
@[simp] theorem State.startChunk_store (c : Cmd) : (s.startChunk c).store = s.store := by simp [State.startChunk]
@[simp] theorem State.dropPartial_store : s.dropPartial.store = s.store := by simp [State.dropPartial]

@[simp] theorem State.stage_logOk (c : Cmd) (chunk : HostRead) : (s.stage c chunk).store.LogOk ↔ s.store.LogOk := by
  simp only [State.stage]
  repeat' split
  all_goals simp

theorem execImageVerify_logOk (good : BitVec 4) : LogOkAfter (execImageVerify good s) ↔ s.store.LogOk := by simp [execImageVerify]
theorem execImageStatus_logOk (port : Port) (pkt : Packet) : LogOkAfter (execImageStatus port pkt s) ↔ s.store.LogOk := by
  simp [execImageStatus]

@[simp] theorem State.discardImage_store (c : Cmd) : (s.discardImage c).store = s.store := by
  unfold State.discardImage
  split
  all_goals simp

theorem execImageDiscard_logOk (port : Port) (pkt : Packet) : LogOkAfter (execImageDiscard port pkt s) ↔ s.store.LogOk := by
  simp [execImageDiscard]
@[simp] theorem State.activate_store (c : Cmd) : (s.activate c).store = s.store := by simp [State.activate]
theorem execImageActivate_logOk (port : Port) (pkt : Packet) : LogOkAfter (execImageActivate port pkt s) ↔ s.store.LogOk := by
  simp [execImageActivate]

/-! ### The board description -/

theorem execBoardGet_logOk (port : Port) (pkt : Packet) : LogOkAfter (execBoardGet port pkt s) ↔ s.store.LogOk := by simp [execBoardGet]
@[simp] theorem State.writePending_logOk (off : Nat) (bs : List Byte) : (s.writePending off bs).store.LogOk ↔ s.store.LogOk := by
  simp [State.writePending]
@[simp] theorem State.commitBoard_logOk : s.commitBoard.1.store.LogOk ↔ s.store.LogOk := by simp [State.commitBoard]

@[simp] theorem State.boardCommit_logOk (c : Cmd) : (s.boardCommit c).store.LogOk ↔ s.store.LogOk := by
  unfold State.boardCommit
  split
  all_goals simp

theorem execBoardCommit_logOk (port : Port) (pkt : Packet) : LogOkAfter (execBoardCommit port pkt s) ↔ s.store.LogOk := by
  simp [execBoardCommit]

end

end Sys2Proof.Machine
end

section
/-! SUPPORT. The event log, continued: contexts, harnesses, start-up, ports and queues. -/

namespace Sys2Proof.Machine

section
variable (s : State)

/-! ### Context and key commands -/

@[simp] theorem State.bindFor_store (c : Cmd) (first n : Nat) : (s.bindFor c first n).store = s.store := by simp [State.bindFor]
@[simp] theorem State.ctxCreate_logOk (c : Cmd) : (s.ctxCreate c).store.LogOk ↔ s.store.LogOk := by simp [State.ctxCreate]
theorem execCtxCreate_logOk (port : Port) (pkt : Packet) : LogOkAfter (execCtxCreate port pkt s) ↔ s.store.LogOk := by simp [execCtxCreate]
@[simp] theorem State.repin_store (ctx id : Nat) : (s.repin ctx id).store = s.store := by simp [State.repin]
@[simp] theorem State.pushDirty_store (ctx id : Nat) : (s.pushDirty ctx id).store = s.store := by simp [State.pushDirty]
@[simp] theorem State.endWt_store (ctx : Nat) : (s.endWt ctx).store = s.store := by rfl

@[simp] theorem State.ctxModify_logOk (c : Cmd) : (s.ctxModify c).store.LogOk ↔ s.store.LogOk := by
  unfold State.ctxModify
  extract_lets ctx old x bind first n fresh s1 s2 s3
  have h2 : s2.store.LogOk ↔ s.store.LogOk := by simp [s2, s1]
  have h3 : s3.store.LogOk ↔ s.store.LogOk := by simp [s3, h2]
  clear_value bind s3
  split
  · simp
  split
  · simp
  split
  · simp
  split
  · simp
  split
  all_goals simp [h3]

theorem execCtxModify_logOk (port : Port) (pkt : Packet) : LogOkAfter (execCtxModify port pkt s) ↔ s.store.LogOk := by simp [execCtxModify]
@[simp] theorem State.ctxDelete_logOk (c : Cmd) : (s.ctxDelete c).store.LogOk ↔ s.store.LogOk := by simp [State.ctxDelete]
theorem execCtxDelete_logOk (port : Port) (pkt : Packet) : LogOkAfter (execCtxDelete port pkt s) ↔ s.store.LogOk := by simp [execCtxDelete]
theorem execCtxQuery_logOk (port : Port) (pkt : Packet) : LogOkAfter (execCtxQuery port pkt s) ↔ s.store.LogOk := by simp [execCtxQuery]

@[simp] theorem State.keyLoad_logOk (c : Cmd) (blob : HostRead) : (s.keyLoad c blob).store.LogOk ↔ s.store.LogOk := by
  simp only [State.keyLoad]
  repeat' split
  all_goals simp

theorem execKeyLoad_logOk (port : Port) (pkt : Packet) (blob : HostRead) : LogOkAfter (execKeyLoad port pkt blob s) ↔ s.store.LogOk := by
  simp [execKeyLoad]
@[simp] theorem State.keyDestroy_logOk (c : Cmd) : (s.keyDestroy c).store.LogOk ↔ s.store.LogOk := by simp [State.keyDestroy]
theorem execKeyDestroy_logOk (port : Port) (pkt : Packet) : LogOkAfter (execKeyDestroy port pkt s) ↔ s.store.LogOk := by
  simp [execKeyDestroy]

/-! ### Write-back, tags and the range engine -/

@[simp] theorem State.startWriteback_logOk (k : Nat) : (s.startWriteback k).store.LogOk ↔ s.store.LogOk := by
  unfold State.startWriteback
  split
  · rfl
  dsimp only
  split
  · rename_i h
    simp [State.store_of_eq h]
  · rfl

theorem execWritebackStart_logOk : LogOkAfter (execWritebackStart s) ↔ s.store.LogOk := by
  unfold execWritebackStart
  split
  all_goals simp

theorem execWbAgeExpiry_logOk : LogOkAfter (execWbAgeExpiry s) ↔ s.store.LogOk := by simp [execWbAgeExpiry]
theorem execAllocationRetry_logOk : LogOkAfter (execAllocationRetry s) ↔ s.store.LogOk := by simp [execAllocationRetry]

theorem execTagRebuild_logOk (set : BitVec 18) (way : Fin 16) (copies : List CopyRead) :
    LogOkAfter (execTagRebuild set way copies s) ↔ s.store.LogOk := by
  simp only [execTagRebuild]
  repeat' split
  all_goals simp

@[simp] theorem State.birthRange_logOk (r : RangeOp) : (s.birthRange r).store.LogOk ↔ s.store.LogOk := by
  simp only [State.birthRange]
  split
  all_goals rename_i h; simp [State.store_of_eq h]

theorem execRangeEngineLeaf_logOk : LogOkAfter (execRangeEngineLeaf s) ↔ s.store.LogOk := by
  unfold execRangeEngineLeaf
  split
  all_goals simp

@[simp] theorem State.submitRange_store (r : RangeOp) : (s.submitRange r).store = s.store := by simp [State.submitRange]
@[simp] theorem State.writeRngCtrl_store (v : Nat) : (s.writeRngCtrl v).store = s.store := by simp [State.writeRngCtrl]
theorem execRangeGoClean_logOk (v : Word) : LogOkAfter (execRangeGoClean v s) ↔ s.store.LogOk := by simp [execRangeGoClean]
theorem execRangeGoInvalidate_logOk (v : Word) : LogOkAfter (execRangeGoInvalidate v s) ↔ s.store.LogOk := by simp [execRangeGoInvalidate]
theorem execRangeGoDiscard_logOk (v : Word) : LogOkAfter (execRangeGoDiscard v s) ↔ s.store.LogOk := by simp [execRangeGoDiscard]
theorem execRangeGoLock_logOk (v : Word) : LogOkAfter (execRangeGoLock v s) ↔ s.store.LogOk := by simp [execRangeGoLock]
theorem execRangeGoUnlock_logOk (v : Word) : LogOkAfter (execRangeGoUnlock v s) ↔ s.store.LogOk := by simp [execRangeGoUnlock]
theorem execRangeGoPrefetch_logOk (v : Word) : LogOkAfter (execRangeGoPrefetch v s) ↔ s.store.LogOk := by simp [execRangeGoPrefetch]
@[simp] theorem State.disableCache_logOk : s.disableCache.store.LogOk ↔ s.store.LogOk := by simp [State.disableCache]
@[simp] theorem State.enableCache_store : s.enableCache.store = s.store := by simp [State.enableCache]
@[simp] theorem State.writeCacheCtrl_logOk (v : Nat) : (s.writeCacheCtrl v).store.LogOk ↔ s.store.LogOk := by simp [State.writeCacheCtrl]
theorem execCacheCtrlEnable_logOk (v : Word) : LogOkAfter (execCacheCtrlEnable v s) ↔ s.store.LogOk := by simp [execCacheCtrlEnable]
theorem execCacheCtrlDisable_logOk (v : Word) : LogOkAfter (execCacheCtrlDisable v s) ↔ s.store.LogOk := by simp [execCacheCtrlDisable]
theorem execCacheDrainDone_logOk : LogOkAfter (execCacheDrainDone s) ↔ s.store.LogOk := by simp [execCacheDrainDone]

/-! ### Harnesses -/

@[simp] theorem State.rejoin_store : s.rejoin.store = s.store := by
  unfold State.rejoin
  split
  all_goals simp

@[simp] theorem State.ownWrite_logOk (addr : Nat) (bs : List Byte) : (s.ownWrite addr bs).store.LogOk ↔ s.store.LogOk := by
  simp [State.ownWrite]
@[simp] theorem State.readSlot_logOk (m : Nat) : (s.readSlot m).store.LogOk ↔ s.store.LogOk := by simp [State.readSlot]
@[simp] theorem State.leaderRead_logOk : s.leaderRead.store.LogOk ↔ s.store.LogOk := by simp [State.leaderRead]
@[simp] theorem State.formHarness_store : s.formHarness.1.store = s.store := by rfl
@[simp] theorem State.leaderEnds_logOk : s.leaderEnds.store.LogOk ↔ s.store.LogOk := by simp [State.leaderEnds]

@[simp] theorem State.leaderBegins_logOk (owner : Option Nat) : (s.leaderBegins owner).store.LogOk ↔ s.store.LogOk := by
  unfold State.leaderBegins
  split
  all_goals simp

theorem execHarnessLeaderRead_logOk : LogOkAfter (execHarnessLeaderRead s) ↔ s.store.LogOk := by simp [execHarnessLeaderRead]
@[simp] theorem State.endPushCommands_store : s.endPushCommands.store = s.store := (trails_endPushCommands s).store
@[simp] theorem State.pushFailed_logOk : s.pushFailed.store.LogOk ↔ s.store.LogOk := by simp [State.pushFailed]

@[simp] theorem State.startPush_logOk : s.startPush.store.LogOk ↔ s.store.LogOk := by
  simp only [State.startPush]
  repeat' split
  all_goals simp

@[simp] theorem State.pushRead_logOk (r : HostRead) : (s.pushRead r).store.LogOk ↔ s.store.LogOk := by
  unfold State.pushRead
  split
  all_goals simp

theorem execHarnessPush_logOk : LogOkAfter (execHarnessPush s) ↔ s.store.LogOk := by simp [execHarnessPush]
theorem execHarnessPushReadback_logOk (r : HostRead) : LogOkAfter (execHarnessPushReadback r s) ↔ s.store.LogOk := by
  simp [execHarnessPushReadback]
theorem execHarnessJoin_logOk (port : Port) (pkt : Packet) : LogOkAfter (execHarnessJoin port pkt s) ↔ s.store.LogOk := by
  simp [execHarnessJoin]
theorem execHarnessLeave_logOk (port : Port) (pkt : Packet) : LogOkAfter (execHarnessLeave port pkt s) ↔ s.store.LogOk := by
  simp [execHarnessLeave]
theorem execHarnessQuery_logOk (port : Port) (pkt : Packet) : LogOkAfter (execHarnessQuery port pkt s) ↔ s.store.LogOk := by
  simp [execHarnessQuery]
theorem execGetHealth_logOk (port : Port) (pkt : Packet) : LogOkAfter (execGetHealth port pkt s) ↔ s.store.LogOk := by simp [execGetHealth]

/-! ### Start-up and mount -/

@[simp] theorem State.loadProfile_store (slot : Nat) : (s.loadProfile slot).store = s.store := by rfl

@[simp] theorem State.pointTrial_logOk : s.pointTrial.store.LogOk ↔ s.store.LogOk := by
  unfold State.pointTrial
  split
  all_goals simp

@[simp] theorem State.beginAttempt_logOk : s.beginAttempt.1.store.LogOk ↔ s.store.LogOk := by
  simp only [State.beginAttempt]
  repeat' split
  all_goals simp

@[simp] theorem State.copyBad_logOk (slot : Nat) (x : BadPart) : (s.copyBad slot x).store.LogOk ↔ s.store.LogOk := by simp [State.copyBad]

@[simp] theorem State.bootAttempt_logOk (parts : BootParts) : (s.bootAttempt parts).store.LogOk ↔ s.store.LogOk := by
  simp only [State.bootAttempt]
  split
  · rfl
  split
  · simp
  split
  all_goals rename_i h; simp [State.store_of_eq h]

theorem execBootAttempt_logOk (parts : BootParts) : LogOkAfter (execBootAttempt parts s) ↔ s.store.LogOk := by simp [execBootAttempt]
theorem execBootAttemptTimeout_logOk : LogOkAfter (execBootAttemptTimeout s) ↔ s.store.LogOk := by simp [execBootAttemptTimeout]

@[simp] theorem State.restoreCtxs_logOk : s.restoreCtxs.store.LogOk ↔ s.store.LogOk := by
  refine State.foldl_logOk s (fun s x => ?_) _
  split
  all_goals simp

@[simp] theorem State.restoreSpares_store : s.restoreSpares.store = s.store := by
  unfold State.restoreSpares
  split
  all_goals simp

@[simp] theorem State.restoreSpace_store : s.restoreSpace.store = s.store := by rfl

@[simp] theorem State.restoreStaged_store : s.restoreStaged.store = s.store := by
  simp only [State.restoreStaged]
  repeat' split
  all_goals simp

@[simp] theorem State.endActivation_logOk : s.endActivation.store.LogOk ↔ s.store.LogOk := by
  unfold State.endActivation
  split
  all_goals simp

@[simp] theorem State.bootSucceeds_logOk : s.bootSucceeds.store.LogOk ↔ s.store.LogOk := by simp [State.bootSucceeds]
theorem execBootReady_logOk : LogOkAfter (execBootReady s) ↔ s.store.LogOk := by simp [execBootReady]
theorem execActivationPauseLimit_logOk : LogOkAfter (execActivationPauseLimit s) ↔ s.store.LogOk := by simp [execActivationPauseLimit]
@[simp] theorem State.resumeSweeps_store : s.resumeSweeps.store = s.store := State.foldl_store s (fun s n => by rfl) _
@[simp] theorem State.resumeSalvage_logOk : s.resumeSalvage.store.LogOk ↔ s.store.LogOk := by simp [State.resumeSalvage]
@[simp] theorem State.endPass2_logOk : s.endPass2.store.LogOk ↔ s.store.LogOk := by simp [State.endPass2]
@[simp] theorem State.enterServing_logOk : s.enterServing.store.LogOk ↔ s.store.LogOk := by simp [State.enterServing]

@[simp] theorem State.mountBlank_logOk : s.mountBlank.store.LogOk ↔ s.store.LogOk := by
  unfold State.mountBlank
  refine (State.enterServing_logOk _).trans (State.logOk_congr ((State.setXlat_store _ _).trans ?_))
  exact State.foldl_store _ (fun s k => by simp) _

@[simp] theorem State.restoreAges_store (w : Welt) : (s.restoreAges w).store = s.store :=
  (State.limitOffsets_store _).trans (State.foldl_store s (fun s e => by rfl) _)

@[simp] theorem State.chooseWelt_logOk (reads : MountReads) : (s.chooseWelt reads).store.LogOk ↔ s.store.LogOk := by
  simp only [State.chooseWelt]
  repeat' split
  all_goals simp

theorem execMountWeltChoice_logOk (reads : MountReads) : LogOkAfter (execMountWeltChoice reads s) ↔ s.store.LogOk := by
  simp [execMountWeltChoice]
@[simp] theorem State.assess_logOk (k : Nat) (rows : List (List Nat)) : (s.assess k rows).store.LogOk ↔ s.store.LogOk := by
  simp [State.assess]

@[simp] theorem State.pass1_logOk : s.pass1.store.LogOk ↔ s.store.LogOk := by
  unfold State.pass1
  extract_lets _ s1 s2 u s3
  have h2 : s2.store.LogOk ↔ s.store.LogOk := by simp [s2, s1]
  have h3 : s3.store = s2.store := State.foldl_store s2 (fun s k => by simp) _
  simp [h3, h2]

theorem execBrandPass1_logOk (k : Sys2Proof.Kept) : LogOkAfter (execBrandPass1 k s) ↔ s.store.LogOk := by
  unfold execBrandPass1
  refine (logOkAfter_done s _).trans ?_
  split
  · rfl
  split
  · simp
  · refine State.foldl_logOk s (fun s k => ?_) _
    simp

@[simp] theorem State.reassessNext_store (k : Nat) : (s.reassessNext k).store = s.store := by simp [State.reassessNext]
theorem execBrandPass2Die_logOk (die : Fin 768) : LogOkAfter (execBrandPass2Die die s) ↔ s.store.LogOk := by simp [execBrandPass2Die]
@[simp] theorem State.reassessAll_store : s.reassessAll.store = s.store := by simp [State.reassessAll]

@[simp] theorem State.writeDriftCtrl_store (v : Nat) : (s.writeDriftCtrl v).store = s.store := by
  simp only [State.writeDriftCtrl]
  repeat' split
  all_goals simp

theorem execReassess_logOk (v : Word) (k : Sys2Proof.Kept) : LogOkAfter (execReassess v k s) ↔ s.store.LogOk := by
  unfold execReassess
  simp

theorem execLearnClear_logOk (v : Word) : LogOkAfter (execLearnClear v s) ↔ s.store.LogOk := by simp [execLearnClear]

@[simp] theorem State.replayBlock_store (kept : Tab PbRec) (sub die index : Nat) (planes : BitVec 4) (use : Nat) (erases : List Nat) :
    (s.replayBlock kept sub die index planes use erases).store = s.store := by
  unfold State.replayBlock
  extract_lets db on counts
  have hc (s : State) : (counts s).store = s.store := by simp [counts]
  split
  · simp [hc]
  · simp [hc]
  · split
    · rfl
    refine State.foldl_store s (fun s p => ?_) _
    extract_lets own
    split
    · extract_lets s1
      have h1 : s1.store = s.store := by simp [s1]
      split
      · simp [h1]
      · refine (State.foldl_store s1 (fun s k => ?_) _).trans h1
        split
        all_goals simp
    · simp
  · simp
  · simp

@[simp] theorem State.granuleAt_store (g rseq : Nat) (e : DirEntry) : (s.granuleAt g rseq e).store = s.store := by rfl

@[simp] theorem State.replayGranule_store (rseq sub : Nat) (ctx : BitVec 12) (first n : Nat) :
    (s.replayGranule rseq sub ctx first n).store = s.store := by
  unfold State.replayGranule
  split
  all_goals simp

@[simp] theorem State.replayHole_store (ctx : BitVec 12) (first n : Nat) (reason : Byte) :
    (s.replayHole ctx first n reason).store = s.store := by simp [State.replayHole]

@[simp] theorem State.replayAge_logOk (die counter : Nat) : (s.replayAge die counter).store.LogOk ↔ s.store.LogOk := by
  simp only [State.replayAge]
  repeat' split
  all_goals simp

@[simp] theorem State.replay1_logOk (kept : Tab PbRec) (e : Nat × JRec) : (State.replay1 kept s e).store.LogOk ↔ s.store.LogOk := by
  unfold State.replay1
  split
  · dsimp only
    split
    all_goals simp
  all_goals simp

@[simp] theorem State.replay2_store (e : Nat × JRec) : (s.replay2 e).store = s.store := by
  unfold State.replay2
  split
  all_goals simp

@[simp] theorem State.settleBlocks_store (kept : Tab PbRec) : (s.settleBlocks kept).store = s.store := by simp [State.settleBlocks]
@[simp] theorem State.placeMember_store (i m db p : Nat) : (s.placeMember i m db p).store = s.store := by simp [State.placeMember]
@[simp] theorem State.placePointers_store (recs : List JRec) (delta : Bool) : (s.placePointers recs delta).store = s.store := by
  simp [State.placePointers]
@[simp] theorem State.pinAll_store : s.pinAll.store = s.store := by rfl

@[simp] theorem State.replay_logOk (w : Welt) : (s.replay w).store.LogOk ↔ s.store.LogOk := by
  unfold State.replay
  extract_lets run recs fresh stop kept x counts s1 _ s2 s3 s4 s5 delta s6 stale top unclean marks _ s7 _ s8 s9 _ s10
  have h3 : s3.store.LogOk ↔ s.store.LogOk := (State.foldl_logOk s2 (fun s e => State.replay1_logOk s kept e) fresh).trans Iff.rfl
  have h4 : s4.store = s3.store := State.foldl_store s3 (fun s e => by simp) _
  have h9 : s9.store = s8.store := State.foldl_store s8 (fun s i => by simp) _
  simp [s10, h9, s8, s7, s6, s5, h4, h3]

theorem execJournalReplay_logOk : LogOkAfter (execJournalReplay s) ↔ s.store.LogOk := by
  unfold execJournalReplay
  split
  all_goals simp

theorem execDirectoryWrite_logOk : LogOkAfter (execDirectoryWrite s) ↔ s.store.LogOk := by simp [execDirectoryWrite]

/-! ### Observation -/

@[simp] theorem State.writeObsCtrl_store (v : Nat) : (s.writeObsCtrl v).store = s.store := by simp [State.writeObsCtrl]
theorem execSlotSnap_logOk (v : Word) : LogOkAfter (execSlotSnap v s) ↔ s.store.LogOk := by simp [execSlotSnap]
theorem execSlotClear_logOk (v : Word) : LogOkAfter (execSlotClear v s) ↔ s.store.LogOk := by simp [execSlotClear]
theorem execCntClear_logOk (v : Word) : LogOkAfter (execCntClear v s) ↔ s.store.LogOk := by simp [execCntClear]
@[simp] theorem State.writeSmpCfg_store (v : Nat) : (s.writeSmpCfg v).store = s.store := by simp [State.writeSmpCfg]
theorem execSampleRingClear_logOk (v : Word) : LogOkAfter (execSampleRingClear v s) ↔ s.store.LogOk := by simp [execSampleRingClear]
@[simp] theorem State.writeSmpTail_store (v : Nat) : (s.writeSmpTail v).store = s.store := by simp [State.writeSmpTail]
theorem execSampleTailWrite_logOk (v : Word) : LogOkAfter (execSampleTailWrite v s) ↔ s.store.LogOk := by simp [execSampleTailWrite]
theorem execCounterLoRead_logOk (k : Fin 16) : LogOkAfter (execCounterLoRead k s) ↔ s.store.LogOk := by simp [execCounterLoRead]
theorem execCounterOverflow_logOk (k : Fin 16) (inc : Nat) : LogOkAfter (execCounterOverflow k inc s) ↔ s.store.LogOk := by
  simp [execCounterOverflow]

theorem execSampleEntryWrite_logOk (times : SampleTimes) : LogOkAfter (execSampleEntryWrite times s) ↔ s.store.LogOk := by
  unfold execSampleEntryWrite
  split
  all_goals simp

theorem execSampleWriteTimeout_logOk : LogOkAfter (execSampleWriteTimeout s) ↔ s.store.LogOk := by
  unfold execSampleWriteTimeout
  split
  all_goals simp

theorem execTraceFrameSend_logOk : LogOkAfter (execTraceFrameSend s) ↔ s.store.LogOk := by
  simp only [execTraceFrameSend]
  repeat' split
  all_goals simp

theorem execTraceTime_logOk (cycles : BitVec 64) : LogOkAfter (execTraceTime cycles s) ↔ s.store.LogOk := by simp [execTraceTime]

/-! ### Device, cache, map and media commands -/

theorem execIdentify_logOk (port : Port) (pkt : Packet) : LogOkAfter (execIdentify port pkt s) ↔ s.store.LogOk := by simp [execIdentify]
theorem execGetState_logOk (port : Port) (pkt : Packet) : LogOkAfter (execGetState port pkt s) ↔ s.store.LogOk := by simp [execGetState]
@[simp] theorem State.setWall_store (t : Nat) : (s.setWall t).store = s.store := by rfl
theorem execSetWalltime_logOk (port : Port) (pkt : Packet) : LogOkAfter (execSetWalltime port pkt s) ↔ s.store.LogOk := by
  simp [execSetWalltime]
theorem execEnterMaintenance_logOk (port : Port) (pkt : Packet) : LogOkAfter (execEnterMaintenance port pkt s) ↔ s.store.LogOk := by
  simp [execEnterMaintenance]
theorem execLeaveMaintenance_logOk (port : Port) (pkt : Packet) : LogOkAfter (execLeaveMaintenance port pkt s) ↔ s.store.LogOk := by
  simp [execLeaveMaintenance]
@[simp] theorem State.drainRange_store : s.drainRange.store = s.store := by simp [State.drainRange]

@[simp] theorem State.stopCmd_store (c : Cmd) : (s.stopCmd c).1.store = s.store := by
  simp only [State.stopCmd]
  repeat' split
  all_goals simp

@[simp] theorem State.dropRangeOf_store (id : Nat) : (s.dropRangeOf id).store = s.store := by rfl

theorem execAbort_logOk (port : Port) (pkt : Packet) : LogOkAfter (execAbort port pkt s) ↔ s.store.LogOk := by
  refine (logOkAfter_done s _).trans (s.run_logOk _ _ _ fun s c => ?_)
  split
  all_goals simp

theorem execPrepareShelfDown_logOk (port : Port) (pkt : Packet) : LogOkAfter (execPrepareShelfDown port pkt s) ↔ s.store.LogOk := by
  simp [execPrepareShelfDown]
@[simp] theorem State.cacheRange_store (c : Cmd) : (s.cacheRange c).store = s.store := by simp [State.cacheRange]
@[simp] theorem State.runRange_logOk (op : Nat) (port : Port) (pkt : Packet) : (s.runRange op port pkt).store.LogOk ↔ s.store.LogOk := by
  simp [State.runRange]
theorem execCacheRangeClean_logOk (port : Port) (pkt : Packet) : LogOkAfter (execCacheRangeClean port pkt s) ↔ s.store.LogOk := by
  simp [execCacheRangeClean]
theorem execCacheRangeInvalidate_logOk (port : Port) (pkt : Packet) : LogOkAfter (execCacheRangeInvalidate port pkt s) ↔ s.store.LogOk := by
  simp [execCacheRangeInvalidate]
theorem execCacheRangeDiscard_logOk (port : Port) (pkt : Packet) : LogOkAfter (execCacheRangeDiscard port pkt s) ↔ s.store.LogOk := by
  simp [execCacheRangeDiscard]
theorem execCacheRangeLock_logOk (port : Port) (pkt : Packet) : LogOkAfter (execCacheRangeLock port pkt s) ↔ s.store.LogOk := by
  simp [execCacheRangeLock]
theorem execCacheRangeUnlock_logOk (port : Port) (pkt : Packet) : LogOkAfter (execCacheRangeUnlock port pkt s) ↔ s.store.LogOk := by
  simp [execCacheRangeUnlock]
theorem execCacheRangePrefetch_logOk (port : Port) (pkt : Packet) : LogOkAfter (execCacheRangePrefetch port pkt s) ↔ s.store.LogOk := by
  simp [execCacheRangePrefetch]
theorem execCacheEnable_logOk (port : Port) (pkt : Packet) : LogOkAfter (execCacheEnable port pkt s) ↔ s.store.LogOk := by
  simp [execCacheEnable]
theorem execCacheDisable_logOk (port : Port) (pkt : Packet) : LogOkAfter (execCacheDisable port pkt s) ↔ s.store.LogOk := by
  simp [execCacheDisable]
theorem execCacheStatus_logOk (port : Port) (pkt : Packet) : LogOkAfter (execCacheStatus port pkt s) ↔ s.store.LogOk := by
  simp [execCacheStatus]
@[simp] theorem State.clearRange_logOk (zero : Bool) (c : Cmd) : (s.clearRange zero c).store.LogOk ↔ s.store.LogOk := by
  simp [State.clearRange]
theorem execUnmapRange_logOk (port : Port) (pkt : Packet) : LogOkAfter (execUnmapRange port pkt s) ↔ s.store.LogOk := by
  simp [execUnmapRange]
theorem execZeroRange_logOk (port : Port) (pkt : Packet) : LogOkAfter (execZeroRange port pkt s) ↔ s.store.LogOk := by simp [execZeroRange]
theorem execMapQuery_logOk (port : Port) (pkt : Packet) : LogOkAfter (execMapQuery port pkt s) ↔ s.store.LogOk := by simp [execMapQuery]
theorem execPinSegments_logOk (port : Port) (pkt : Packet) : LogOkAfter (execPinSegments port pkt s) ↔ s.store.LogOk := by
  simp [execPinSegments]
theorem execUnpinSegments_logOk (port : Port) (pkt : Packet) : LogOkAfter (execUnpinSegments port pkt s) ↔ s.store.LogOk := by
  simp [execUnpinSegments]
theorem execGetHoles_logOk (port : Port) (pkt : Packet) : LogOkAfter (execGetHoles port pkt s) ↔ s.store.LogOk := by simp [execGetHoles]
theorem execClearReadOnly_logOk (port : Port) (pkt : Packet) : LogOkAfter (execClearReadOnly port pkt s) ↔ s.store.LogOk := by
  simp [execClearReadOnly]
theorem execScrubNow_logOk (port : Port) (pkt : Packet) : LogOkAfter (execScrubNow port pkt s) ↔ s.store.LogOk := by simp [execScrubNow]
theorem execBurnishNow_logOk (port : Port) (pkt : Packet) : LogOkAfter (execBurnishNow port pkt s) ↔ s.store.LogOk := by
  simp [execBurnishNow]
theorem execRefreshNow_logOk (port : Port) (pkt : Packet) : LogOkAfter (execRefreshNow port pkt s) ↔ s.store.LogOk := by
  simp [execRefreshNow]
theorem execRetireUnit_logOk (port : Port) (pkt : Packet) : LogOkAfter (execRetireUnit port pkt s) ↔ s.store.LogOk := by
  simp [execRetireUnit]
theorem execRestoreUnit_logOk (port : Port) (pkt : Packet) : LogOkAfter (execRestoreUnit port pkt s) ↔ s.store.LogOk := by
  simp [execRestoreUnit]
theorem execMediaReport_logOk (port : Port) (pkt : Packet) : LogOkAfter (execMediaReport port pkt s) ↔ s.store.LogOk := by
  simp [execMediaReport]
theorem execRetentionReport_logOk (port : Port) (pkt : Packet) : LogOkAfter (execRetentionReport port pkt s) ↔ s.store.LogOk := by
  simp [execRetentionReport]
theorem execPowerStatus_logOk (port : Port) (pkt : Packet) : LogOkAfter (execPowerStatus port pkt s) ↔ s.store.LogOk := by
  simp [execPowerStatus]
theorem execHoldupMeasure_logOk (port : Port) (pkt : Packet) : LogOkAfter (execHoldupMeasure port pkt s) ↔ s.store.LogOk := by
  simp [execHoldupMeasure]
theorem execSetLimits_logOk (port : Port) (pkt : Packet) : LogOkAfter (execSetLimits port pkt s) ↔ s.store.LogOk := by simp [execSetLimits]
theorem execParamGet_logOk (port : Port) (pkt : Packet) : LogOkAfter (execParamGet port pkt s) ↔ s.store.LogOk := by simp [execParamGet]
theorem execParamSet_logOk (port : Port) (pkt : Packet) : LogOkAfter (execParamSet port pkt s) ↔ s.store.LogOk := by simp [execParamSet]
theorem execCounterConfig_logOk (port : Port) (pkt : Packet) : LogOkAfter (execCounterConfig port pkt s) ↔ s.store.LogOk := by
  simp [execCounterConfig]
theorem execCounterRead_logOk (port : Port) (pkt : Packet) : LogOkAfter (execCounterRead port pkt s) ↔ s.store.LogOk := by
  simp [execCounterRead]
theorem execSampleConfig_logOk (port : Port) (pkt : Packet) : LogOkAfter (execSampleConfig port pkt s) ↔ s.store.LogOk := by
  simp [execSampleConfig]
theorem execEventRead_logOk (port : Port) (pkt : Packet) : LogOkAfter (execEventRead port pkt s) ↔ s.store.LogOk := by simp [execEventRead]

theorem execEventClear_logOk (port : Port) (pkt : Packet) (h : s.store.LogOk) : LogOkAfter (execEventClear port pkt s) := by
  unfold execEventClear
  refine (logOkAfter_done s _).mpr ?_
  obtain he | ⟨t, c, ht, he⟩ := s.run_cases 0x74 port pkt
    (fun s c => if pkt.u 0x18 2 = s.store.evCount then s.clearLog.ok c else s.fail c stBusy)
  · rwa [he]
  rw [he]
  split
  · simpa using t.clearLog_logOk (ht ▸ h)
  · simpa [ht] using h

/-! ### The service port -/

@[simp] theorem State.msgError_store : s.msgError.store = s.store := by rfl
@[simp] theorem State.pecError_store : s.pecError.store = s.store := by rfl

@[simp] theorem State.transact_logOk (pecOk : Bool) {act : State → State} (h : ∀ s, (act s).store.LogOk ↔ s.store.LogOk) :
    (s.transact pecOk act).store.LogOk ↔ s.store.LogOk := by
  unfold State.transact
  split
  · rfl
  · dsimp only
    split
    · simp [h]
    · simp

@[simp] theorem State.endRun_store (c : Cmd) (code detail : Nat) : (s.endRun c code detail).store = s.store := by simp [State.endRun]
@[simp] theorem State.runDone_logOk (c : Cmd) : (s.runDone c).store.LogOk ↔ s.store.LogOk := by simp [State.runDone]

@[simp] theorem State.feed_logOk (fuel : Nat) : (s.feed fuel).store.LogOk ↔ s.store.LogOk := by
  induction fuel generalizing s with
  | zero => rfl
  | succ n ih =>
    simp only [State.feed]
    split
    · rfl
    split
    · simp
    split
    · rfl
    · simp [ih]

@[simp] theorem State.pushByte_logOk (b : Byte × Bool) : (s.pushByte b).store.LogOk ↔ s.store.LogOk := by simp [State.pushByte]
@[simp] theorem State.flushFifo_store : s.flushFifo.store = s.store := by rfl
theorem execImageStage_logOk (port : Port) (pkt : Packet) (chunk : HostRead) :
    LogOkAfter (execImageStage port pkt chunk s) ↔ s.store.LogOk := by simp [execImageStage]

theorem execBoardSet_logOk (port : Port) (pkt : Packet) (data : HostRead) : LogOkAfter (execBoardSet port pkt data s) ↔ s.store.LogOk := by
  unfold execBoardSet
  split
  all_goals simp

@[simp] theorem State.writeSvcCtrl_store (v : Nat) : (s.writeSvcCtrl v).store = s.store := by simp [State.writeSvcCtrl]
theorem execFifoFlush_logOk (v : Word) : LogOkAfter (execFifoFlush v s) ↔ s.store.LogOk := by simp [execFifoFlush]

theorem execFifoTimeout_logOk : LogOkAfter (execFifoTimeout s) ↔ s.store.LogOk := by
  unfold execFifoTimeout
  split
  all_goals simp

@[simp] theorem State.answerMessage_store (cid code detail : Nat) : (s.answerMessage cid code detail).store = s.store := by rfl
@[simp] theorem State.brokenMessage_store (cid : Nat) : (s.brokenMessage cid).store = s.store := by rfl

@[simp] theorem State.takeRequest_store (body : List Byte) : (s.takeRequest body).store = s.store := by
  simp only [State.takeRequest]
  repeat' split
  all_goals simp

theorem execSvcRequest_logOk (body : List Byte) (pecOk : Bool) : LogOkAfter (execSvcRequest body pecOk s) ↔ s.store.LogOk := by
  simp [execSvcRequest]
@[simp] theorem State.takeData_logOk (body : List Byte) : (s.takeData body).store.LogOk ↔ s.store.LogOk := by simp [State.takeData]
theorem execSvcData_logOk (body : List Byte) (pecOk : Bool) : LogOkAfter (execSvcData body pecOk s) ↔ s.store.LogOk := by simp [execSvcData]
theorem execSetEndpointId_logOk (eid : Byte) : LogOkAfter (execSetEndpointId eid s) ↔ s.store.LogOk := by simp [execSetEndpointId]
theorem execGetEndpointId_logOk : LogOkAfter (execGetEndpointId s) ↔ s.store.LogOk :=
  (logOkAfter_done s _).trans (s.transact_logOk true fun s => by simp)
theorem execGetMctpVersionSupport_logOk : LogOkAfter (execGetMctpVersionSupport s) ↔ s.store.LogOk :=
  (logOkAfter_done s _).trans (s.transact_logOk true fun s => by simp)
theorem execGetMessageTypeSupport_logOk : LogOkAfter (execGetMessageTypeSupport s) ↔ s.store.LogOk :=
  (logOkAfter_done s _).trans (s.transact_logOk true fun s => by simp)
theorem execGetVendorDefinedMessageSupport_logOk : LogOkAfter (execGetVendorDefinedMessageSupport s) ↔ s.store.LogOk :=
  (logOkAfter_done s _).trans (s.transact_logOk true fun s => by simp)
theorem execOtherMessageType_logOk (ty : Byte) : LogOkAfter (execOtherMessageType ty s) ↔ s.store.LogOk := by simp [execOtherMessageType]
@[simp] theorem State.assignAddr_store (addr : BitVec 7) (pecOk : Bool) : (s.assignAddr addr pecOk).store = s.store := by
  simp [State.assignAddr]
theorem execEntdaa_logOk (addr : BitVec 7) (pecOk : Bool) : LogOkAfter (execEntdaa addr pecOk s) ↔ s.store.LogOk := by simp [execEntdaa]
theorem execSetdasa_logOk (addr : BitVec 7) (pecOk : Bool) : LogOkAfter (execSetdasa addr pecOk s) ↔ s.store.LogOk := by simp [execSetdasa]
theorem execRstdaa_logOk : LogOkAfter (execRstdaa s) ↔ s.store.LogOk := by simp [execRstdaa]

/-! ### Queue pairs -/

@[simp] theorem State.writeQStatus_store (q v : Nat) : (s.writeQStatus q v).store = s.store := by rfl
@[simp] theorem State.disablePair_store (q : Fin 1024) : (s.disablePair q).store = s.store := by simp [State.disablePair]
@[simp] theorem State.writeQctrl_store (q : Fin 1024) (v : Nat) : (s.writeQctrl q v).store = s.store := by simp [State.writeQctrl]

@[simp] theorem State.writeQueueReg_store (q : Fin 1024) (off v : Nat) : (s.writeQueueReg q off v).store = s.store := by
  unfold State.writeQueueReg
  split
  all_goals simp

theorem execQueueEnable_logOk (q : Fin 1024) (v : Word) : LogOkAfter (execQueueEnable q v s) ↔ s.store.LogOk := by simp [execQueueEnable]
theorem execQueueDisable_logOk (q : Fin 1024) (v : Word) : LogOkAfter (execQueueDisable q v s) ↔ s.store.LogOk := by simp [execQueueDisable]
@[simp] theorem State.refuseDoorbell_store (q : Nat) : (s.refuseDoorbell q).store = s.store := by rfl
@[simp] theorem State.writeSqTail_store (q v : Nat) : (s.writeSqTail q v).store = s.store := by simp [State.writeSqTail]
@[simp] theorem State.writeCqHead_store (q v : Nat) : (s.writeCqHead q v).store = s.store := by simp [State.writeCqHead]
theorem execSqTailDoorbell_logOk (q : Fin 1024) (v : Word) : LogOkAfter (execSqTailDoorbell q v s) ↔ s.store.LogOk := by
  simp [execSqTailDoorbell]
theorem execCqHeadDoorbell_logOk (q : Fin 1024) (v : Word) : LogOkAfter (execCqHeadDoorbell q v s) ↔ s.store.LogOk := by
  simp [execCqHeadDoorbell]
@[simp] theorem State.takeTurn_store (q : Nat) : (s.takeTurn q).store = s.store := by simp [State.takeTurn]
@[simp] theorem State.failFetch_logOk (q : Fin 1024) : (s.failFetch q).store.LogOk ↔ s.store.LogOk := by simp [State.failFetch]

theorem execSqFetch_logOk (read : Option Packet) : LogOkAfter (execSqFetch read s) ↔ s.store.LogOk := by
  unfold execSqFetch
  split
  all_goals simp

theorem execCompletionPost_logOk (q : Fin 1024) : LogOkAfter (execCompletionPost q s) ↔ s.store.LogOk := by simp [execCompletionPost]
theorem execCoalesceTimeout_logOk (q : Fin 1024) : LogOkAfter (execCoalesceTimeout q s) ↔ s.store.LogOk := by simp [execCoalesceTimeout]

/-! ### The clean shutdown -/

@[simp] theorem State.setShutdown_store (x : Shutdown) : (s.setShutdown x).store = s.store := by rfl
@[simp] theorem State.stopEngines_store : s.stopEngines.store = s.store := by simp [State.stopEngines]
@[simp] theorem State.sealAll_store : s.sealAll.store = s.store := by simp [State.sealAll]

@[simp] theorem State.flushPath_logOk : s.flushPath.1.store.LogOk ↔ s.store.LogOk := by
  unfold State.flushPath
  extract_lets s1 s2
  have h2 : s2.store = s.store := by simp [s1, s2]
  split
  · simp [s1]
  split
  · simp [h2]
  · split
    · simp [h2]
    · split
      all_goals simp [h2]

@[simp] theorem State.storePath_logOk : s.storePath.store.LogOk ↔ s.store.LogOk := by simp [State.storePath]
@[simp] theorem State.goDark_store : s.goDark.store = s.store := by rfl
@[simp] theorem State.brandAll_store (dies : List Nat) : (s.brandAll dies).1.store = s.store := by simp [State.brandAll]

@[simp] theorem State.hold_logOk : s.hold.store.LogOk ↔ s.store.LogOk := by
  simp only [State.hold]
  repeat' split
  all_goals simp

@[simp] theorem State.shutdownPath_logOk : s.shutdownPath.store.LogOk ↔ s.store.LogOk := by
  unfold State.shutdownPath
  split
  · rfl
  · rfl
  · split
    · rename_i h
      simp [State.store_of_eq h]
    · rename_i h
      simp [State.store_of_eq h]
  · split
    all_goals simp
  · split
    all_goals simp
  · split
    all_goals rename_i h; simp [State.store_of_eq h]
  · split
    all_goals simp

theorem execCleanShutdown_logOk : LogOkAfter (execCleanShutdown s) ↔ s.store.LogOk := by simp [execCleanShutdown]

/-! ### The host link and the mailbox -/

theorem execLinkTraining_logOk (rate width : Nat) (flit cxl : Bool) :
    LogOkAfter (execLinkTraining rate width flit cxl s) ↔ s.store.LogOk := by simp [execLinkTraining]
theorem execPmStateChange_logOk (d3hot : Bool) : LogOkAfter (execPmStateChange d3hot s) ↔ s.store.LogOk := by simp [execPmStateChange]
theorem execAspmL1Entry_logOk : LogOkAfter (execAspmL1Entry s) ↔ s.store.LogOk := by simp [execAspmL1Entry]
@[simp] theorem State.dropReads_store : s.dropReads.store = s.store := by simp [State.dropReads]
@[simp] theorem State.resetCmdq_store : s.resetCmdq.store = s.store := by rfl
@[simp] theorem State.resetHostRoutes_store : s.resetHostRoutes.store = s.store := by rfl
@[simp] theorem State.hostPortReset_logOk (cause : ResetCause) : (s.hostPortReset cause).store.LogOk ↔ s.store.LogOk := by
  simp [State.hostPortReset]
theorem execHostPortReset_logOk (cause : ResetCause) : LogOkAfter (execHostPortReset cause s) ↔ s.store.LogOk := by simp [execHostPortReset]

@[simp] theorem State.readTimeout_logOk (who : HostReader) : (s.readTimeout who).store.LogOk ↔ s.store.LogOk := by
  simp only [State.readTimeout]
  repeat' split
  all_goals simp

theorem execCompletionTimeout_logOk (who : HostReader) : LogOkAfter (execCompletionTimeout who s) ↔ s.store.LogOk := by
  simp [execCompletionTimeout]
@[simp] theorem State.mailbox_store (st : MailboxStatus) (fields : List (String × Int)) (records : List (List Byte)) :
    (s.mailbox st fields records).store = s.store := by rfl
theorem execCxlIdentifyMemoryDevice_logOk : LogOkAfter (execCxlIdentifyMemoryDevice s) ↔ s.store.LogOk := by
  simp [execCxlIdentifyMemoryDevice]
theorem execCxlGetHealthInfo_logOk : LogOkAfter (execCxlGetHealthInfo s) ↔ s.store.LogOk := by simp [execCxlGetHealthInfo]
theorem execCxlGetPoisonList_logOk (dpa len : BitVec 64) : LogOkAfter (execCxlGetPoisonList dpa len s) ↔ s.store.LogOk := by
  simp [execCxlGetPoisonList]
theorem execCxlSetTimestamp_logOk (ns : BitVec 64) : LogOkAfter (execCxlSetTimestamp ns s) ↔ s.store.LogOk := by simp [execCxlSetTimestamp]
theorem execCxlGetEventRecords_logOk (log : Fin 4) : LogOkAfter (execCxlGetEventRecords log s) ↔ s.store.LogOk := by
  simp [execCxlGetEventRecords]
theorem execCxlClearEventRecords_logOk (log : Fin 4) (count : Nat) : LogOkAfter (execCxlClearEventRecords log count s) ↔ s.store.LogOk := by
  simp [execCxlClearEventRecords]
theorem execMailboxUnsupportedOpcode_logOk (opcode : BitVec 16) : LogOkAfter (execMailboxUnsupportedOpcode opcode s) ↔ s.store.LogOk := by
  simp [execMailboxUnsupportedOpcode]
theorem execAgeLoRead_logOk (ch : Chan) (d : DieNo) : LogOkAfter (execAgeLoRead ch d s) ↔ s.store.LogOk := by simp [execAgeLoRead]

/-! ### Writes of registers -/

@[simp] theorem State.writeRw_store (off mask v : Nat) : (s.writeRw off mask v).store = s.store := by rfl
@[simp] theorem State.writeW1c_store (off mask v : Nat) : (s.writeW1c off mask v).store = s.store := by rfl
@[simp] theorem State.writeNear_store (off lo w a b v : Nat) : (s.writeNear off lo w a b v).store = s.store := by rfl

@[simp] theorem State.writeIntc_store (off v : Nat) : (s.writeIntc off v).store = s.store := by
  simp only [State.writeIntc]
  repeat' split
  all_goals simp

@[simp] theorem State.writeTickets_logOk (ch i v : Nat) : (s.writeTickets ch i v).store.LogOk ↔ s.store.LogOk := by
  simp [State.writeTickets]

@[simp] theorem State.writeArb_logOk (off v : Nat) : (s.writeArb off v).store.LogOk ↔ s.store.LogOk := by
  simp only [State.writeArb]
  repeat' split
  all_goals simp

@[simp] theorem State.writeMedia_store (off v : Nat) : (s.writeMedia off v).store = s.store := by
  simp only [State.writeMedia]
  repeat' split
  all_goals simp

@[simp] theorem State.writeDrift_logOk (off v : Nat) : (s.writeDrift off v).store.LogOk ↔ s.store.LogOk := by simp [State.writeDrift]
@[simp] theorem State.writeXlat_store (off v : Nat) : (s.writeXlat off v).store = s.store := by simp [State.writeXlat]
@[simp] theorem State.writeRngReg_store (off mask v : Nat) : (s.writeRngReg off mask v).store = s.store := by simp [State.writeRngReg]
@[simp] theorem State.writeCache_logOk (off v : Nat) : (s.writeCache off v).store.LogOk ↔ s.store.LogOk := by simp [State.writeCache]

@[simp] theorem State.writeCtxWord_store (off v : Nat) : (s.writeCtxWord off v).store = s.store := by
  unfold State.writeCtxWord
  split
  all_goals simp

@[simp] theorem State.writePwr_logOk (off v : Nat) : (s.writePwr off v).store.LogOk ↔ s.store.LogOk := by simp [State.writePwr]
@[simp] theorem State.writeTherm_store (off v : Nat) : (s.writeTherm off v).store = s.store := by simp [State.writeTherm]
@[simp] theorem State.writePstore_store (off v : Nat) : (s.writePstore off v).store = s.store := by simp [State.writePstore]
@[simp] theorem State.writeTrcCfg_store (v : Nat) : (s.writeTrcCfg v).store = s.store := by simp [State.writeTrcCfg]
@[simp] theorem State.writeObs_store (off v : Nat) : (s.writeObs off v).store = s.store := by simp [State.writeObs]
@[simp] theorem State.writeSvc_store (off v : Nat) : (s.writeSvc off v).store = s.store := by simp [State.writeSvc]

@[simp] theorem State.writeCmdq_store (off v : Nat) : (s.writeCmdq off v).store = s.store := by
  simp only [State.writeCmdq]
  repeat' split
  all_goals simp

@[simp] theorem State.writeHdm_store (i off v : Nat) : (s.writeHdm i off v).store = s.store := by simp [State.writeHdm]
@[simp] theorem State.writeCxl_store (off v : Nat) : (s.writeCxl off v).store = s.store := by simp [State.writeCxl]
@[simp] theorem State.writeBar0_logOk (off v : Nat) : (s.writeBar0 off v).store.LogOk ↔ s.store.LogOk := by simp [State.writeBar0]

@[simp] theorem State.writeBar_store (i v : Nat) : (s.writeBar i v).store = s.store := by
  unfold State.writeBar
  split
  case h_7 => rfl
  all_goals exact s.setHost_store _

@[simp] theorem State.writeAer_store (off : Nat) (v : Word) : (s.writeAer off v).store = s.store := by
  unfold State.writeAer
  split
  all_goals simp

@[simp] theorem State.writeConfig_store (off v : Nat) : (s.writeConfig off v).store = s.store := by simp [State.writeConfig]
@[simp] theorem State.writeMsix_store (off v : Nat) : (s.writeMsix off v).store = s.store := by simp [State.writeMsix]
@[simp] theorem State.writeReg_logOk (off v : Nat) : (s.writeReg off v).store.LogOk ↔ s.store.LogOk := by simp [State.writeReg]
theorem execRegisterWrite_logOk (off : BitVec 26) (v : Word) : LogOkAfter (execRegisterWrite off v s) ↔ s.store.LogOk := by
  simp [execRegisterWrite]

/-! ### Thermal management -/

@[simp] theorem State.noteSuspects_logOk (l : List Int) (xs : List Nat) : (s.noteSuspects l xs).store.LogOk ↔ s.store.LogOk := by
  simp [State.noteSuspects]
@[simp] theorem State.judgeJunction_logOk (j : Int) (fell : Bool) : (s.judgeJunction j fell).store.LogOk ↔ s.store.LogOk := by
  simp [State.judgeJunction]

@[simp] theorem State.critical_logOk (j : Int) (first : Bool) : (s.critical j first).store.LogOk ↔ s.store.LogOk := by
  simp only [State.critical]
  repeat' split
  all_goals simp

@[simp] theorem State.dramTemp_store (n : Nat) (t : Int) : (s.dramTemp n t).store = s.store := by rfl
theorem execThermalSample_logOk (sensors : List Int) (diode dram0 dram1 : Int) :
    LogOkAfter (execThermalSample sensors diode dram0 dram1 s) ↔ s.store.LogOk := by simp [execThermalSample]
theorem execDramRefresh_logOk (stack : Fin 2) : LogOkAfter (execDramRefresh stack s) ↔ s.store.LogOk := by simp [execDramRefresh]
@[simp] theorem State.ageDie_store (k : Nat) : (s.ageDie k).store = s.store := by rfl
theorem execThermalAgeTick_logOk : LogOkAfter (execThermalAgeTick s) ↔ s.store.LogOk := by simp [execThermalAgeTick]
theorem execTempPoll_logOk : LogOkAfter (execTempPoll s) ↔ s.store.LogOk := by simp [execTempPoll]

end

end Sys2Proof.Machine
end

section
/-! SUPPORT. What every command keeps of the event log: O56. -/

namespace Sys2Proof.Machine

/-- What every command answers keeps the bounds of the log: one rule for each command. -/
theorem logOkAfter_exec (i : Instr) {s : State} (h : s.store.LogOk) : LogOkAfter (exec i s) :=
  match i with
  | .identify port pkt => (execIdentify_logOk s port pkt).mpr h
  | .getState port pkt => (execGetState_logOk s port pkt).mpr h
  | .getHealth port pkt => (execGetHealth_logOk s port pkt).mpr h
  | .setWalltime port pkt => (execSetWalltime_logOk s port pkt).mpr h
  | .enterMaintenance port pkt => (execEnterMaintenance_logOk s port pkt).mpr h
  | .leaveMaintenance port pkt => (execLeaveMaintenance_logOk s port pkt).mpr h
  | .prepareShelfDown port pkt => (execPrepareShelfDown_logOk s port pkt).mpr h
  | .abort port pkt => (execAbort_logOk s port pkt).mpr h
  | .ctxCreate port pkt => (execCtxCreate_logOk s port pkt).mpr h
  | .ctxModify port pkt => (execCtxModify_logOk s port pkt).mpr h
  | .ctxDelete port pkt => (execCtxDelete_logOk s port pkt).mpr h
  | .ctxQuery port pkt => (execCtxQuery_logOk s port pkt).mpr h
  | .keyLoad port pkt blob => (execKeyLoad_logOk s port pkt blob).mpr h
  | .keyDestroy port pkt => (execKeyDestroy_logOk s port pkt).mpr h
  | .cacheRangeClean port pkt => (execCacheRangeClean_logOk s port pkt).mpr h
  | .cacheRangeInvalidate port pkt => (execCacheRangeInvalidate_logOk s port pkt).mpr h
  | .cacheRangeDiscard port pkt => (execCacheRangeDiscard_logOk s port pkt).mpr h
  | .cacheRangeLock port pkt => (execCacheRangeLock_logOk s port pkt).mpr h
  | .cacheRangeUnlock port pkt => (execCacheRangeUnlock_logOk s port pkt).mpr h
  | .cacheRangePrefetch port pkt => (execCacheRangePrefetch_logOk s port pkt).mpr h
  | .cacheEnable port pkt => (execCacheEnable_logOk s port pkt).mpr h
  | .cacheDisable port pkt => (execCacheDisable_logOk s port pkt).mpr h
  | .cacheStatus port pkt => (execCacheStatus_logOk s port pkt).mpr h
  | .unmapRange port pkt => (execUnmapRange_logOk s port pkt).mpr h
  | .zeroRange port pkt => (execZeroRange_logOk s port pkt).mpr h
  | .mapQuery port pkt => (execMapQuery_logOk s port pkt).mpr h
  | .pinSegments port pkt => (execPinSegments_logOk s port pkt).mpr h
  | .unpinSegments port pkt => (execUnpinSegments_logOk s port pkt).mpr h
  | .getHoles port pkt => (execGetHoles_logOk s port pkt).mpr h
  | .clearReadOnly port pkt => (execClearReadOnly_logOk s port pkt).mpr h
  | .scrubNow port pkt => (execScrubNow_logOk s port pkt).mpr h
  | .burnishNow port pkt => (execBurnishNow_logOk s port pkt).mpr h
  | .refreshNow port pkt => (execRefreshNow_logOk s port pkt).mpr h
  | .retireUnit port pkt => (execRetireUnit_logOk s port pkt).mpr h
  | .restoreUnit port pkt => (execRestoreUnit_logOk s port pkt).mpr h
  | .mediaReport port pkt => (execMediaReport_logOk s port pkt).mpr h
  | .retentionReport port pkt => (execRetentionReport_logOk s port pkt).mpr h
  | .powerStatus port pkt => (execPowerStatus_logOk s port pkt).mpr h
  | .holdupMeasure port pkt => (execHoldupMeasure_logOk s port pkt).mpr h
  | .setLimits port pkt => (execSetLimits_logOk s port pkt).mpr h
  | .boardGet port pkt => (execBoardGet_logOk s port pkt).mpr h
  | .boardSet port pkt data => (execBoardSet_logOk s port pkt data).mpr h
  | .boardCommit port pkt => (execBoardCommit_logOk s port pkt).mpr h
  | .paramGet port pkt => (execParamGet_logOk s port pkt).mpr h
  | .paramSet port pkt => (execParamSet_logOk s port pkt).mpr h
  | .counterConfig port pkt => (execCounterConfig_logOk s port pkt).mpr h
  | .counterRead port pkt => (execCounterRead_logOk s port pkt).mpr h
  | .sampleConfig port pkt => (execSampleConfig_logOk s port pkt).mpr h
  | .eventRead port pkt => (execEventRead_logOk s port pkt).mpr h
  | .eventClear port pkt => execEventClear_logOk s port pkt h
  | .imageStage port pkt chunk => (execImageStage_logOk s port pkt chunk).mpr h
  | .imageStatus port pkt => (execImageStatus_logOk s port pkt).mpr h
  | .imageActivate port pkt => (execImageActivate_logOk s port pkt).mpr h
  | .imageDiscard port pkt => (execImageDiscard_logOk s port pkt).mpr h
  | .harnessJoin port pkt => (execHarnessJoin_logOk s port pkt).mpr h
  | .harnessLeave port pkt => (execHarnessLeave_logOk s port pkt).mpr h
  | .harnessQuery port pkt => (execHarnessQuery_logOk s port pkt).mpr h
  | .sqTailDoorbell q v => (execSqTailDoorbell_logOk s q v).mpr h
  | .cqHeadDoorbell q v => (execCqHeadDoorbell_logOk s q v).mpr h
  | .queueEnable q v => (execQueueEnable_logOk s q v).mpr h
  | .queueDisable q v => (execQueueDisable_logOk s q v).mpr h
  | .sqFetch read => (execSqFetch_logOk s read).mpr h
  | .completionPost q => (execCompletionPost_logOk s q).mpr h
  | .coalesceTimeout q => (execCoalesceTimeout_logOk s q).mpr h
  | .retrainAll v => (execRetrainAll_logOk s v).mpr h
  | .retrain ch v => (execRetrain_logOk s ch v).mpr h
  | .reseed => (execReseed_logOk s).mpr h
  | .customChange ch custom => (execCustomChange_logOk s ch custom).mpr h
  | .reassess v reads => (execReassess_logOk s v reads).mpr h
  | .learnClear v => (execLearnClear_logOk s v).mpr h
  | .weltNow v => (execWeltNow_logOk s v).mpr h
  | .dirPeek index crcOk => (execDirPeek_logOk s index crcOk).mpr h
  | .cacheCtrlEnable v => (execCacheCtrlEnable_logOk s v).mpr h
  | .cacheCtrlDisable v => (execCacheCtrlDisable_logOk s v).mpr h
  | .rangeGoClean v => (execRangeGoClean_logOk s v).mpr h
  | .rangeGoInvalidate v => (execRangeGoInvalidate_logOk s v).mpr h
  | .rangeGoDiscard v => (execRangeGoDiscard_logOk s v).mpr h
  | .rangeGoLock v => (execRangeGoLock_logOk s v).mpr h
  | .rangeGoUnlock v => (execRangeGoUnlock_logOk s v).mpr h
  | .rangeGoPrefetch v => (execRangeGoPrefetch_logOk s v).mpr h
  | .measure => (execMeasure_logOk s).mpr h
  | .offReq => (execOffReq_logOk s).mpr h
  | .fifoFlush v => (execFifoFlush_logOk s v).mpr h
  | .slotSnap v => (execSlotSnap_logOk s v).mpr h
  | .slotClear v => (execSlotClear_logOk s v).mpr h
  | .cntClear v => (execCntClear_logOk s v).mpr h
  | .sampleRingClear v => (execSampleRingClear_logOk s v).mpr h
  | .sampleTailWrite v => (execSampleTailWrite_logOk s v).mpr h
  | .counterLoRead k => (execCounterLoRead_logOk s k).mpr h
  | .ageLoRead ch d => (execAgeLoRead_logOk s ch d).mpr h
  | .claim t => (execClaim_logOk s t).mpr h
  | .eoi t v => (execEoi_logOk s t v).mpr h
  | .softSet v => (execSoftSet_logOk s v).mpr h
  | .registerWrite off v => (execRegisterWrite_logOk s off v).mpr h
  | .linkTraining rate width flit cxl => (execLinkTraining_logOk s rate width flit cxl).mpr h
  | .hostPortReset cause => (execHostPortReset_logOk s cause).mpr h
  | .aspmL1Entry => (execAspmL1Entry_logOk s).mpr h
  | .pmStateChange d3hot => (execPmStateChange_logOk s d3hot).mpr h
  | .memoryWindowRead addr len tag ev => (execMemoryWindowRead_logOk s addr len tag ev).mpr h
  | .memoryWindowWrite addr data ep ev => (execMemoryWindowWrite_logOk s addr data ep ev).mpr h
  | .zeroLengthRead addr tag => (execZeroLengthRead_logOk s addr tag).mpr h
  | .bar0BadAccess write tag => (execBar0BadAccess_logOk s write tag).mpr h
  | .readWatchdog slot => (execReadWatchdog_logOk s slot).mpr h
  | .tackLate slot => (execTackLate_logOk s slot).mpr h
  | .cxlMemRd hpa tag ev => (execCxlMemRd_logOk s hpa tag ev).mpr h
  | .cxlMemWr hpa data poison ev => (execCxlMemWr_logOk s hpa data poison ev).mpr h
  | .cxlMemSpecRd hpa taken => (execCxlMemSpecRd_logOk s hpa taken).mpr h
  | .hdmDecoderCommit n dpaBase size ways gran => (execHdmDecoderCommit_logOk s n dpaBase size ways gran).mpr h
  | .cxlGpf => (execCxlGpf_logOk s).mpr h
  | .gpfLate ms => (execGpfLate_logOk s ms).mpr h
  | .cxlIdentifyMemoryDevice => (execCxlIdentifyMemoryDevice_logOk s).mpr h
  | .cxlGetHealthInfo => (execCxlGetHealthInfo_logOk s).mpr h
  | .cxlGetPoisonList dpa len => (execCxlGetPoisonList_logOk s dpa len).mpr h
  | .cxlSetTimestamp ns => (execCxlSetTimestamp_logOk s ns).mpr h
  | .cxlGetEventRecords log => (execCxlGetEventRecords_logOk s log).mpr h
  | .cxlClearEventRecords log count => (execCxlClearEventRecords_logOk s log count).mpr h
  | .svcRequest body pecOk => (execSvcRequest_logOk s body pecOk).mpr h
  | .svcData body pecOk => (execSvcData_logOk s body pecOk).mpr h
  | .setEndpointId eid => (execSetEndpointId_logOk s eid).mpr h
  | .getEndpointId => (execGetEndpointId_logOk s).mpr h
  | .getMctpVersionSupport => (execGetMctpVersionSupport_logOk s).mpr h
  | .getMessageTypeSupport => (execGetMessageTypeSupport_logOk s).mpr h
  | .getVendorDefinedMessageSupport => (execGetVendorDefinedMessageSupport_logOk s).mpr h
  | .entdaa addr pecOk => (execEntdaa_logOk s addr pecOk).mpr h
  | .setdasa addr pecOk => (execSetdasa_logOk s addr pecOk).mpr h
  | .rstdaa => (execRstdaa_logOk s).mpr h
  | .fifoTimeout => (execFifoTimeout_logOk s).mpr h
  | .imageVerify good => (execImageVerify_logOk s good).mpr h
  | .activationPauseLimit => (execActivationPauseLimit_logOk s).mpr h
  | .onRequest darkSeconds => (execOnRequest_logOk s darkSeconds).mpr h
  | .shelfEnLow => (execShelfEnLow_logOk s).mpr h
  | .adcConversion mv => (execAdcConversion_logOk s mv).mpr h
  | .railTimeout => (execRailTimeout_logOk s).mpr h
  | .powerDown => (execPowerDown_logOk s).mpr h
  | .channelStartTimeout ch => (execChannelStartTimeout_logOk s ch).mpr h
  | .measurementTimeout => (execMeasurementTimeout_logOk s).mpr h
  | .measurementPeriod => (execMeasurementPeriod_logOk s).mpr h
  | .measurementDrainDone => (execMeasurementDrainDone_logOk s).mpr h
  | .drainTimeout => (execDrainTimeout_logOk s).mpr h
  | .energyEstimate => (execEnergyEstimate_logOk s).mpr h
  | .pfw => (execPfw_logOk s).mpr h
  | .pfwRearm => (execPfwRearm_logOk s).mpr h
  | .aonSwitch mv => (execAonSwitch_logOk s mv).mpr h
  | .aonReturn => (execAonReturn_logOk s).mpr h
  | .aonReset cut evt => execAonReset_logOk s cut evt
  | .aonBoot => execAonBoot_logOk s h
  | .pllLost => (execPllLost_logOk s).mpr h
  | .pllHoldoverExpiry => (execPllHoldoverExpiry_logOk s).mpr h
  | .cinchAcceptEnd => (execCinchAcceptEnd_logOk s).mpr h
  | .cinchWritebackComplete => (execCinchWritebackComplete_logOk s).mpr h
  | .cinchParityComplete => (execCinchParityComplete_logOk s).mpr h
  | .cinchJournalComplete => (execCinchJournalComplete_logOk s).mpr h
  | .cinchDeltaCommitted => (execCinchDeltaCommitted_logOk s).mpr h
  | .cinchBudgetExpiry => (execCinchBudgetExpiry_logOk s).mpr h
  | .critLockoutEnd => (execCritLockoutEnd_logOk s).mpr h
  | .thermalSample sensors diode dram0 dram1 => (execThermalSample_logOk s sensors diode dram0 dram1).mpr h
  | .dramRefresh stack => (execDramRefresh_logOk s stack).mpr h
  | .thermalAgeTick => (execThermalAgeTick_logOk s).mpr h
  | .tempPoll => (execTempPoll_logOk s).mpr h
  | .arbDraw ch withdraws => (execArbDraw_logOk s ch withdraws).mpr h
  | .housekeepingWindow ch temp => (execHousekeepingWindow_logOk s ch temp).mpr h
  | .senseIssue ch d guardOver => (execSenseIssue_logOk s ch d guardOver).mpr h
  | .loadComplete ch crcOk => (execLoadComplete_logOk s ch crcOk).mpr h
  | .xferComplete ch crcOk hist => (execXferComplete_logOk s ch crcOk hist).mpr h
  | .decodeDone slot out => (execDecodeDone_logOk s slot out).mpr h
  | .stitchRebuild slot lost => (execStitchRebuild_logOk s slot lost).mpr h
  | .dieTimeout ch d withinHour => (execDieTimeout_logOk s ch d withinHour).mpr h
  | .alertAsserted ch reports internal => (execAlertAsserted_logOk s ch reports internal).mpr h
  | .alertStuck ch => (execAlertStuck_logOk s ch).mpr h
  | .alertStuckEnd ch => (execAlertStuckEnd_logOk s ch).mpr h
  | .retrainDone ch ok trim deskew ck temps => (execRetrainDone_logOk s ch ok trim deskew ck temps).mpr h
  | .amc2Reset ch d => (execAmc2Reset_logOk s ch d).mpr h
  | .amc2Identify ch d mod => (execAmc2Identify_logOk s ch d mod).mpr h
  | .amc2Status ch d mod => (execAmc2Status_logOk s ch d mod).mpr h
  | .amc2StatusScan ch mod => (execAmc2StatusScan_logOk s ch mod).mpr h
  | .amc2GetTemp ch d mod temp => (execAmc2GetTemp_logOk s ch d mod temp).mpr h
  | .amc2TrainRdPattern ch d mod => (execAmc2TrainRdPattern_logOk s ch d mod).mpr h
  | .amc2TrainWrStore ch d mod data => (execAmc2TrainWrStore_logOk s ch d mod data).mpr h
  | .amc2TrainRdStore ch d mod => (execAmc2TrainRdStore_logOk s ch d mod).mpr h
  | .amc2TrainConfig ch d mod word => (execAmc2TrainConfig_logOk s ch d mod word).mpr h
  | .amc2SetRef ch d mod words => (execAmc2SetRef_logOk s ch d mod words).mpr h
  | .amc2ReadPageSense ch d mod c1 c2 => (execAmc2ReadPageSense_logOk s ch d mod c1 c2).mpr h
  | .amc2ReadPageXfer ch d mod c1 => (execAmc2ReadPageXfer_logOk s ch d mod c1).mpr h
  | .amc2ReadSoftSense ch d mod c1 c2 c3 => (execAmc2ReadSoftSense_logOk s ch d mod c1 c2 c3).mpr h
  | .amc2ReadSoftXfer ch d mod c1 => (execAmc2ReadSoftXfer_logOk s ch d mod c1).mpr h
  | .amc2ReadHistSense ch d mod c1 c2 => (execAmc2ReadHistSense_logOk s ch d mod c1 c2).mpr h
  | .amc2ReadHistXfer ch d mod c1 => (execAmc2ReadHistXfer_logOk s ch d mod c1).mpr h
  | .amc2ProgramLoad ch d mod c1 c2 c3 data crc => (execAmc2ProgramLoad_logOk s ch d mod c1 c2 c3 data crc).mpr h
  | .amc2ProgramStart ch d mod c1 c2 c3 => (execAmc2ProgramStart_logOk s ch d mod c1 c2 c3).mpr h
  | .amc2Erase ch d mod c1 => (execAmc2Erase_logOk s ch d mod c1).mpr h
  | .amc2Suspend ch d mod => (execAmc2Suspend_logOk s ch d mod).mpr h
  | .amc2Resume ch d mod => (execAmc2Resume_logOk s ch d mod).mpr h
  | .amc2FrameAbort ch d => (execAmc2FrameAbort_logOk s ch d).mpr h
  | .dieSenseEnd ch d => (execDieSenseEnd_logOk s ch d).mpr h
  | .dieProgramEnd ch d fail => (execDieProgramEnd_logOk s ch d fail).mpr h
  | .dieEraseEnd ch d fail => (execDieEraseEnd_logOk s ch d fail).mpr h
  | .dieSuspendEnd ch d => (execDieSuspendEnd_logOk s ch d).mpr h
  | .dieResetEnd ch d => (execDieResetEnd_logOk s ch d).mpr h
  | .diePor ch d => (execDiePor_logOk s ch d).mpr h
  | .stitchForm copy => (execStitchForm_logOk s copy).mpr h
  | .memberProgram stitch member => (execMemberProgram_logOk s stitch member).mpr h
  | .padTimeout stitch member => (execPadTimeout_logOk s stitch member).mpr h
  | .parityRowProgram stitch => (execParityRowProgram_logOk s stitch).mpr h
  | .burnishMember stitch member => (execBurnishMember_logOk s stitch member).mpr h
  | .burnishResult stitch member badPlanes corrMax => (execBurnishResult_logOk s stitch member badPlanes corrMax).mpr h
  | .skiverVictimSelect => (execSkiverVictimSelect_logOk s).mpr h
  | .skiverCopyProgram => (execSkiverCopyProgram_logOk s).mpr h
  | .victimErase => (execVictimErase_logOk s).mpr h
  | .refreshJob => (execRefreshJob_logOk s).mpr h
  | .scrubPatrol dieBlock corrected step => (execScrubPatrol_logOk s dieBlock corrected step).mpr h
  | .systemCopyRefresh => (execSystemCopyRefresh_logOk s).mpr h
  | .wearSnapshot => (execWearSnapshot_logOk s).mpr h
  | .segReadDone seg badPrimary badMirror => (execSegReadDone_logOk s seg badPrimary badMirror).mpr h
  | .segWrite seg => (execSegWrite_logOk s seg).mpr h
  | .leafMapAppend => (execLeafMapAppend_logOk s).mpr h
  | .jrnWindowExpiry => (execJrnWindowExpiry_logOk s).mpr h
  | .journalRingErase stream block => (execJournalRingErase_logOk s stream block).mpr h
  | .weltStart => (execWeltStart_logOk s).mpr h
  | .weltPeriodExpiry => (execWeltPeriodExpiry_logOk s).mpr h
  | .weltDone => (execWeltDone_logOk s).mpr h
  | .dirLineRebuild line out => (execDirLineRebuild_logOk s line out).mpr h
  | .dirPatrol line found => (execDirPatrol_logOk s line found).mpr h
  | .bootAttempt parts => (execBootAttempt_logOk s parts).mpr h
  | .bootReady => (execBootReady_logOk s).mpr h
  | .bootAttemptTimeout => (execBootAttemptTimeout_logOk s).mpr h
  | .mountWeltChoice reads => (execMountWeltChoice_logOk s reads).mpr h
  | .brandPass1 reads => (execBrandPass1_logOk s reads).mpr h
  | .journalReplay => (execJournalReplay_logOk s).mpr h
  | .directoryWrite => (execDirectoryWrite_logOk s).mpr h
  | .brandPass2Die die => (execBrandPass2Die_logOk s die).mpr h
  | .writebackStart => (execWritebackStart_logOk s).mpr h
  | .wbAgeExpiry => (execWbAgeExpiry_logOk s).mpr h
  | .allocationRetry => (execAllocationRetry_logOk s).mpr h
  | .tagRebuild set way copies => (execTagRebuild_logOk s set way copies).mpr h
  | .rangeEngineLeaf => (execRangeEngineLeaf_logOk s).mpr h
  | .cacheDrainDone => (execCacheDrainDone_logOk s).mpr h
  | .harnessPush => (execHarnessPush_logOk s).mpr h
  | .harnessPushReadback r => (execHarnessPushReadback_logOk s r).mpr h
  | .harnessLeaderRead => (execHarnessLeaderRead_logOk s).mpr h
  | .cleanShutdown => (execCleanShutdown_logOk s).mpr h
  | .eventGrant => execEventGrant_logOk s h
  | .opSecondsTick => (execOpSecondsTick_logOk s).mpr h
  | .opSecondsSave => (execOpSecondsSave_logOk s).mpr h
  | .evtOverflowSave => (execEvtOverflowSave_logOk s).mpr h
  | .counterOverflow k inc => (execCounterOverflow_logOk s k inc).mpr h
  | .sampleEntryWrite times => (execSampleEntryWrite_logOk s times).mpr h
  | .sampleWriteTimeout => (execSampleWriteTimeout_logOk s).mpr h
  | .traceFrameSend => (execTraceFrameSend_logOk s).mpr h
  | .traceTime cycles => (execTraceTime_logOk s cycles).mpr h
  | .completionTimeout who => (execCompletionTimeout_logOk s who).mpr h
  | .evtWinRead off => (execEvtWinRead_logOk s off).mpr h
  | .ecrcError => (execEcrcError_logOk s).mpr h
  | .malformedTlp => (execMalformedTlp_logOk s).mpr h
  | .unsupportedFeatureRequest tag => (execUnsupportedFeatureRequest_logOk s tag).mpr h
  | .mailboxUnsupportedOpcode opcode => (execMailboxUnsupportedOpcode_logOk s opcode).mpr h
  | .otherMessageType ty => (execOtherMessageType_logOk s ty).mpr h

/-- Settles O56: a command leaves the log and its ports as they are, grants one event, clears the log or starts with none; no event
enters a port that holds four. -/
theorem everyStepKeepsTheEventLog : Obligations.EveryStepKeepsTheEventLog := by
  intro s t h hs
  unfold step at hs
  split at hs
  · cases hs
    exact h
  · rename_i i q _
    have hx : LogOkAfter (exec i (s.withPending q)) := logOkAfter_exec i h
    rw [hs] at hx
    exact hx

end Sys2Proof.Machine
end

section
/-! SUPPORT. The front of the queue: O1. -/

namespace Sys2Proof.Machine

/-- Settles O1: the front of the queue is the case of `step` that runs a command. -/
theorem stepRunsTheFrontCommand : Obligations.StepRunsTheFrontCommand := by
  intro c q s hq
  unfold step
  rw [hq]
  rfl

end Sys2Proof.Machine
end

section
/-! SUPPORT. Observation: the sample ring and the trace port (R438, R446 to R448): O14. -/

namespace Sys2Proof.Machine

/-! ### The sample ring -/

section
variable {s : State} {w : SampleTimes} {r : Retired} {rest : List Retired} {v : Word}

/-- The state once the oldest waiting entry has left the queue before the ring. -/
def State.dequeued (s : State) (rest : List Retired) : State := { s with obs := { s.obs with waiting := rest } }

theorem sampleEntryWrite_of_room (hw : s.obs.waiting = r :: rest) (hf : s.smpFill ≠ 4194303) :
    Effect (.sampleEntryWrite w) s { s with obs := { s.obs with
      waiting := rest, ring := Tab.put s.obs.ring s.obs.head (r.entry w), head := (s.obs.head + 1) % 4194304 } } := by
  refine Effect.of_done (show execSampleEntryWrite w s = _ from ?_)
  simp [execSampleEntryWrite, hw, hf]

theorem sampleEntryWrite_of_full (hw : s.obs.waiting = r :: rest) (hf : s.smpFill = 4194303) (hn : bit (s.reg rSmpCfg) 29 = false) :
    Effect (.sampleEntryWrite w) s ((s.dequeued rest).bump rSmpDrop 0 32 1) := by
  refine Effect.of_done (show execSampleEntryWrite w s = _ from ?_)
  simp [execSampleEntryWrite, hw, hf, hn, State.dequeued]

theorem sampleWriteTimeout_of_waiting (hw : s.obs.waiting = r :: rest) :
    Effect .sampleWriteTimeout s ((s.dequeued rest).bump rSmpDrop 0 32 1) := by
  refine Effect.of_done (show execSampleWriteTimeout s = _ from ?_)
  simp only [execSampleWriteTimeout, hw, State.dequeued]

theorem sampleTailWrite_of_inside (hb : s.barOpen = true) (ht : (bits v.toNat 0 22 + 4194304 - s.obs.tail) % 4194304 ≤ s.smpFill) :
    Effect (.sampleTailWrite v) s { s with obs := { s.obs with tail := bits v.toNat 0 22 } } :=
  Effect.of_done (congrArg s.done ((if_pos hb).trans (if_pos ht)))

theorem sampleTailWrite_of_outside (hb : s.barOpen = true) (ht : s.smpFill < (bits v.toNat 0 22 + 4194304 - s.obs.tail) % 4194304) :
    Effect (.sampleTailWrite v) s s :=
  Effect.of_done (congrArg s.done ((if_pos hb).trans (if_neg ht.not_ge)))

theorem sampleRingClear_of_clear (hb : s.barOpen = true) (hv : v.getLsbD 30 = true) :
    Answers (.sampleRingClear v) s (fun t => t.obs.head = 0 ∧ t.obs.tail = 0 ∧ t.obs.waiting = []) := by
  refine Answers.of_done (congrArg s.done (if_pos hb)) fun t ht => ?_
  have hv : bit v.toNat 30 = true := (bit_toNat v 30).trans hv
  have ho := ht.obs
  simp only [State.writeSmpCfg, hv, if_true] at ho
  exact ⟨(congrArg Obs.head ho : _), (congrArg Obs.tail ho : _), (congrArg Obs.waiting ho : _)⟩

end

/-! ### The trace port -/

section
variable {s : State} {ty : Byte} {p : List Byte} {rest : List (Byte × List Byte)} {c : BitVec 64} (he : bit (s.reg rTrcCfg) 31 = true)
include he

theorem traceFrameSend_of_frame (hd : s.obs.traceTimeDue = false) (ht : s.obs.trace = (ty, p) :: rest) (hl : s.obs.traceLost = 0) :
    Effect .traceFrameSend s (({ s with obs := { s.obs with trace := rest, traceSeq := s.obs.traceSeq + 1 } }).emit
      (.trace (frameBytes ty s.obs.traceSeq p))) := by
  refine Effect.of_done (show execTraceFrameSend s = _ from ?_)
  simp [execTraceFrameSend, he, hd, ht, hl]

theorem traceFrameSend_of_loss (hd : s.obs.traceTimeDue = false) (ht : s.obs.trace ≠ []) (hl : 0 < s.obs.traceLost) :
    Effect .traceFrameSend s (({ s with obs := { s.obs with traceLost := 0, traceSeq := s.obs.traceSeq + 1 } }).emit
      (.trace (frameBytes 0x04 s.obs.traceSeq (le 4 s.obs.traceLost)))) := by
  refine Effect.of_done (show execTraceFrameSend s = _ from ?_)
  obtain ⟨f, rest, ht⟩ := List.exists_cons_of_ne_nil ht
  simp [execTraceFrameSend, he, hd, ht, hl.ne']

theorem traceTime_of_due (hd : s.obs.traceTimeDue = true) :
    Answers (.traceTime c) s (fun t => t.obs.traceTimeDue = false ∧ t.obs.trace.length = s.obs.trace.length + 1 ∧
      t.obs.trace.tail = s.obs.trace ∧ (t.obs.trace.headD (0, [])).1 = 0x03 ∧ (t.obs.trace.headD (0, [])).2.take 8 = le 8 c.toNat) := by
  have hx : exec (.traceTime c) s = s.done { s with obs := { s.obs with
      traceTimeDue := false
      trace := (0x03, le 8 c.toNat ++ le 4 s.store.opSeconds ++ le 4 s.store.powerCycles ++ le 2 s.dev.unitId.toNat) ::
        s.obs.trace } } := by
    show execTraceTime c s = _
    simp [execTraceTime, he, hd]
  refine Answers.of_done hx fun t ht => ?_
  have htrace := congrArg Obs.trace ht.obs
  have hdue := congrArg Obs.traceTimeDue ht.obs
  dsimp only at htrace hdue
  rw [htrace]
  exact ⟨hdue, rfl, rfl, rfl, rfl⟩

end

/-- Settles O14: each row by the branch that the ring and the trace queue select, CLEAR and the first TIME frame by what the rest of the
step leaves of observation. -/
theorem samplesAndTrace : Obligations.SamplesAndTrace :=
  ⟨fun _ _ _ _ _ => ⟨sampleEntryWrite_of_room, sampleEntryWrite_of_full, sampleWriteTimeout_of_waiting, sampleTailWrite_of_inside,
    sampleTailWrite_of_outside, sampleRingClear_of_clear⟩,
   fun _ _ _ _ _ he => ⟨traceFrameSend_of_frame he, traceFrameSend_of_loss he, traceTime_of_due he⟩⟩

end Sys2Proof.Machine
end

section
/-! SUPPORT. What the reports answer with: O21. -/

namespace Sys2Proof.Machine

/-- A report that starts answers with its record, of which its statement then says more. -/
theorem report_of_starts {i : Instr} {code : Nat} {port : Port} {pkt : Packet} {s s1 : State} {c : Cmd} {f : State → Cmd → List Byte}
    {p : List Byte → Prop} (hs : Starts code port pkt s s1 c)
    (he : exec i s = s.done (s.run code port pkt (fun s c => s.answer c (f s c)))) (hp : p (f s1 c)) :
    ∃ bs, Effect i s (s1.finish c 0 0 (some bs)) ∧ p bs :=
  ⟨_, Effect.of_starts hs he rfl, hp⟩

theorem cmd_of_starts {code : Nat} {port : Port} {pkt : Packet} {s s1 : State} {c : Cmd} (hs : Starts code port pkt s s1 c) :
    c.port = port ∧ c.pkt = pkt ∧ c ∈ s1.cmdq.cmds := by
  obtain ⟨-, harrive, -, -⟩ := hs
  exact State.arrive_cmd harrive

@[simp] theorem le_length (n v : Nat) : (le n v).length = n := by
  induction n generalizing v with
  | zero => rfl
  | succ n ih => exact congrArg (· + 1) (ih _)

@[simp] theorem zeros_length (n : Nat) : (zeros n).length = n := List.length_replicate

/-- Settles O21: each report by the record that its meaning forms, whose first fields stand at its head. -/
theorem reportsAnswer : Obligations.ReportsAnswer := by
  intro port pkt s s1 c
  refine ⟨fun hs => ?_, fun hs => ?_, fun hs => ?_, fun hs => ?_, fun v hs hv => ?_, fun hs => ?_, fun hs => ?_, fun hs => ?_,
    fun hs => Effect.of_starts hs rfl rfl, fun hs => Effect.of_starts hs rfl rfl, fun hs => Effect.of_starts hs rfl rfl⟩
  · exact report_of_starts hs rfl ⟨by simp, rfl, rfl, rfl⟩
  · exact report_of_starts hs rfl ⟨by simp [low32], rfl⟩
  · exact report_of_starts hs rfl ⟨by simp [State.cacheErrors], rfl⟩
  · obtain ⟨-, rfl, -⟩ := cmd_of_starts hs
    have hl : (s1.ctxEntry c.ctxOf).length = 32 := by simp [State.ctxEntry]
    refine report_of_starts hs rfl ⟨by simp [hl], ?_⟩
    rw [List.append_assoc]
    exact List.take_left' hl
  · exact Effect.of_starts hs rfl (by simp only [hv]; rfl)
  · exact report_of_starts hs rfl ⟨rfl, rfl⟩
  · exact report_of_starts hs rfl ⟨by simp, rfl⟩
  · exact report_of_starts hs rfl ⟨by simp, rfl⟩

end Sys2Proof.Machine
end

section
/-! SUPPORT. The service port: control messages, addresses, and the words of the receive FIFO (R451, R452, R455): O38. -/

namespace Sys2Proof.Machine

/-! ### Transactions -/

section
variable {s : State} {bus : SvcBus} (act : State → State)

theorem State.transact_of_bus (hb : s.svcBus = some bus) : s.transact true act = act (s.setSvc { s.svc with bus := bus }) := by
  simp only [State.transact, hb, if_true]

theorem State.transact_of_bad_pec (hb : s.svcBus = some bus) : s.transact false act = (s.setSvc { s.svc with bus := bus }).pecError := by
  simp only [State.transact, hb, Bool.false_eq_true, if_false]

theorem State.transact_of_none (pecOk : Bool) (hb : s.svcBus = none) : s.transact pecOk act = s := by
  simp only [State.transact, hb]

end

theorem State.bit_raised_setBit (s : State) (i lo : Nat) (hi : i < 32) :
    bit ((((s.setBit rSvcStatus i).bump rSvcErrors lo 16 1).raise 14).reg rSvcStatus) i = true := by
  show bit (((s.setBit rSvcStatus i).bump rSvcErrors lo 16 1).reg rSvcStatus) i = true
  rw [State.reg_bump_of_ne _ lo 16 1 (by decide)]
  exact State.bit_setBit _ _ hi

/-! ### Words of the receive FIFO -/

section
variable {q w rest : List (Byte × Bool)} {left : Nat}

theorem fifoWord_of_full (h : 32 ≤ q.length) : fifoWord q = some (q.take 32, q.drop 32) := if_pos h

theorem fifoWord_of_open (h : q.length < 32) (he : ∀ b, q.getLast? = some b → b.2 = false) : fifoWord q = none := by
  unfold fifoWord
  rw [if_neg h.not_ge]
  split
  · rename_i hl
    exact absurd (he _ hl) Bool.noConfusion
  · rfl

theorem fifoWord_some (h : fifoWord q = some (w, rest)) :
    q = w ++ rest ∧ w.length ≤ 32 ∧ (w.length < 32 → rest = [] ∧ (w.getLast?).map (fun b => b.2) = some true) := by
  unfold fifoWord at h
  split at h
  case isTrue hq =>
    obtain ⟨rfl, rfl⟩ := h
    simp [hq]
  case isFalse hq =>
    split at h
    · rename_i hl
      cases h
      exact ⟨(List.append_nil _).symm, (Nat.lt_of_not_ge hq).le, fun _ => ⟨rfl, congrArg (Option.map fun b => b.2) hl⟩⟩
    · cases h

theorem breaksRun_of_long (h : left < w.length) : breaksRun w left = true := by simp [breaksRun, h]

theorem breaksRun_of_end {i : Nat} {b : Byte × Bool} (hi : i + 1 < left) (hw : w[i]? = some b) (hb : b.2 = true) :
    breaksRun w left = true := by
  have hm : b ∈ w.take (left - 1) := List.mem_of_getElem? ((List.getElem?_take_of_lt (by omega)).trans hw)
  simp only [breaksRun, List.any_of_mem hm hb, Bool.or_true]

theorem breaksRun_of_none (h : w.length ≤ left) (hw : ∀ b ∈ w, b.2 = false) : breaksRun w left = false := by
  have ha : (w.take (left - 1)).any (fun b => b.2) = false := List.any_eq_false.mpr fun b hb => by simp [hw b (List.mem_of_mem_take hb)]
  simp [breaksRun, ha, h]

end

/-- Settles O38: what answers on a bus is one transaction of it, and without a bus no transaction does anything; the FIFO by the two
ways in which a word leaves it. -/
theorem serviceControl : Obligations.ServiceControl := by
  refine ⟨?_, fun q w rest left => ⟨fifoWord_of_full, fifoWord_some, fifoWord_of_open, breaksRun_of_long, fun _ _ => breaksRun_of_end,
    breaksRun_of_none⟩⟩
  rintro eid ty addr body bus s _ rfl
  refine ⟨fun hb => ?_, fun hb => ?_, Effect.of_done rfl, Effect.of_done rfl, Effect.of_done rfl, s.bit_raised_setBit 2 16 (by decide),
    s.bit_raised_setBit 3 0 (by decide)⟩
  · have answered {c : Instr} {act : State → State} {x : State} (hc : exec c s = s.done (s.transact true act))
        (hx : act (s.setSvc { s.svc with bus := bus }) = x) : Effect c s x :=
      Effect.of_done (hc.trans (congrArg s.done ((State.transact_of_bus act hb).trans hx)))
    have failed {c : Instr} {act : State → State} (hc : exec c s = s.done (s.transact false act)) :
        Effect c s (s.setSvc { s.svc with bus := bus }).pecError :=
      Effect.of_done (hc.trans (congrArg s.done (State.transact_of_bad_pec act hb)))
    refine ⟨fun h0 hF => answered rfl ?_, answered rfl rfl, answered rfl rfl, answered rfl rfl, answered rfl rfl,
      fun h0 h7 => answered (act := State.msgError) (congrArg s.done (if_neg (not_or.mpr ⟨h0, h7⟩))) rfl, failed rfl, failed rfl⟩
    simp only [h0, hF, or_self, if_false]
    rfl
  · have silent {c : Instr} {pecOk : Bool} {act : State → State} (hc : exec c s = s.done (s.transact pecOk act)) : Effect c s s :=
      Effect.of_done (hc.trans (congrArg s.done (State.transact_of_none act pecOk hb)))
    simp only [List.forall_mem_cons, List.not_mem_nil, false_implies, implies_true, and_true]
    exact ⟨silent rfl, silent rfl, silent rfl, silent rfl, silent rfl, silent rfl, silent rfl⟩

end Sys2Proof.Machine
end

section
/-! SUPPORT. Staging of an image, and the clean shutdown path (R392, R393, R460 to R462): O32. -/

namespace Sys2Proof.Machine

/-! ### The bytes of staging (R461, R462) -/

theorem fit_length (n : Nat) (b : List Byte) : (fit n b).length = n := by
  simp [fit, zeros]
  omega

/-- The whole pages of a list, in order, are its front. -/
theorem flatMap_pages (l : List Byte) (m n : Nat) : (List.range n).flatMap (fun k => (l.drop (m * k)).take m) = l.take (m * n) := by
  induction n with
  | zero => simp
  | succ n ih => rw [List.range_succ, List.flatMap_append, ih, List.flatMap_singleton, Nat.mul_succ, List.take_add]

theorem Images.take_bytes (i : Images) (b : List Byte) :
    (i.take b).pages.flatMap (fun e => e.2) ++ (i.take b).page = i.pages.flatMap (fun e => e.2) ++ i.page ++ b := by
  simp only [Images.take, List.flatMap_append, List.flatMap_map, flatMap_pages, List.append_assoc, List.take_append_drop]

theorem Images.take_page_length (i : Images) (b : List Byte) : (i.take b).page.length < 131072 := by
  simp only [Images.take, List.length_drop]
  omega

/-! ### Chunks from a queue pair -/

section
variable {s : State} {c : Cmd}

theorem State.feed_of_idle (n : Nat) (h : s.svc.consumer = none) : s.feed n = s := by
  cases n with
  | zero => rfl
  | succ n => simp only [State.feed, State.consumer, h, Option.bind_none]

end

section
variable (s : State)

theorem State.svc_of_still {s t : State} (h : t.still = s.still) : t.svc = s.svc := (congrArg State.svc h : t.still.svc = s.still.svc)

@[simp] theorem State.finish_svc (c : Cmd) (code detail : Nat) (r : Option (List Byte)) : (s.finish c code detail r).svc = s.svc :=
  State.svc_of_still (still_finish s c code detail r)

theorem State.rejectStage_svc (sub : Nat) : (s.rejectStage sub).svc = s.svc := by
  have he (u : State) (port code path : Nat) (ps : List Byte) (k : Nat) : (u.event port code path ps k).svc = u.svc :=
    State.svc_of_still (still_event u port code path ps k)
  unfold State.rejectStage
  dsimp only
  split
  · exact (State.finish_svc _ _ _ _ _).trans (he _ _ _ _ _ _)
  · exact he _ _ _ _ _ _

theorem State.copyOn_svc (p : Nat) (x : ImgCopy) : (s.copyOn p x).svc = s.svc := by
  unfold State.copyOn
  split
  · rfl
  split
  · rfl
  split
  · exact State.svc_of_still (still_ask s _)
  · rfl

theorem State.imageOn_svc : s.imageOn.svc = s.svc := by
  unfold State.imageOn
  split
  · rfl
  extract_lets u v
  have hu : u.svc = s.svc := State.foldl_keeps State.svc (fun s e => s.copyOn_svc _ _) s _
  split
  · exact (State.rejectStage_svc _ _).trans hu
  split
  · split
    · split
      · exact (State.finish_svc _ _ _ _ _).trans hu
      · exact hu
    · exact hu
  · exact hu

theorem State.endChunk_svc (c : Cmd) : (s.endChunk c).svc = s.svc :=
  State.ite_keeps State.svc rfl (State.ite_keeps State.svc (State.imageOn_svc _)
    (State.ite_keeps State.svc (State.imageOn_svc _) (State.finish_svc _ _ _ _ _)))

end

/-- Where no other chunk runs and no image is being verified or activated, the place and the length of a chunk decide. -/
structure State.Stages (s : State) (c : Cmd) (q : Fin 1024) : Prop where
  port : c.port = .sq q
  single : s.cmdq.cmds.any (fun x => x.id != c.id && x.opcode == 0x80 && x.step != CmdStep.fetched) = false
  verify : s.img.st ≠ .verifying
  activate : s.img.st ≠ .activating

section
variable {s : State} {c : Cmd} {q : Fin 1024} {o n : Nat} {last : Bool} {b : List Byte} (h : s.Stages c q) (hc : c.chunk = (o, n, last))
include h hc

theorem State.stage_of_good (hb : s.badChunk o n last = none) :
    s.stage c (.bytes b) = (((s.startChunk c).await c .fifo).takeImage c (fit n b) s.img).endChunk c := by
  simp [State.stage, h.port, h.single, h.verify, h.activate, hc, hb]

theorem State.stage_of_bad {off : Nat} (hb : s.badChunk o n last = some off) : s.stage c (.bytes b) = s.finish c stField off none := by
  simp [State.stage, h.port, h.single, h.verify, h.activate, hc, hb]

end

section
variable {s : State} {c : Cmd} {o n : Nat} {last : Bool} {bs : List Byte} {back : Images}

theorem State.badChunk_of_gap (h0 : o ≠ 0) (h : o ≠ s.img.received) : s.badChunk o n last = some 0x20 := if_pos ⟨h0, .inl h⟩

theorem State.badChunk_of_next (h0 : s.img.received ≠ 0) (hst : s.img.st = .receiving) (h8 : 8 ≤ n) (hm : n ≤ 1048576) (hd : n % 8 = 0)
    (hl : s.img.received + n < headerLen s.img.header) : s.badChunk s.img.received n false = none := by
  simp [State.badChunk, h0, hst, hd, lengthFits, hl, hm.not_gt, h8.not_gt, show n ≠ 0 by omega]

theorem State.badChunk_of_first (h8 : 8 ≤ n) (hm : n < 4096) (hd : n % 8 = 0) : s.badChunk 0 n false = none := by
  simp [State.badChunk, hd, h8.not_gt, show n ≠ 0 by omega, show ¬ 1048576 < n by omega, show ¬ 67108864 < n by omega]

/-- Bytes past the header only join the pages. -/
theorem State.takeImage_of_receiving (hst : s.img.st = .receiving) (hh : 4096 ≤ s.img.header.length) :
    s.takeImage c bs back = (s.setImg (s.img.take bs)).imageOn := by
  simp only [State.takeImage, hst, hh.not_gt, if_true, if_false]
  rfl

/-- The first bytes of an image, short of its header. -/
theorem State.takeImage_of_header (hst : s.img.st ≠ .receiving) (hh : s.img.header = []) (hb : bs.length < 4096) :
    s.takeImage c bs back = s.setImg { s.img.take bs with header := bs } := by
  have ht : bs.take 4096 = bs := List.take_of_length_le hb.le
  simp only [State.takeImage, hst, hh, List.nil_append, List.length_nil, Nat.zero_lt_succ, if_true, if_false, ht, hb]

/-- A chunk that leaves the header incomplete ends at once. -/
theorem State.endChunk_of_header (hr : s.running c = true) (hl : c.chunk = (o, n, false)) (hst : s.img.st ≠ .receiving) :
    s.endChunk c = s.finish c 0 0 none := by
  simp only [State.endChunk, hr, hl, hst, Bool.not_true, Bool.false_eq_true, if_false]

theorem State.running_await (st : CmdStep) (h : c ∈ s.cmdq.cmds) : (s.await c st).running c = true := by
  refine List.any_eq_true.mpr ⟨_, List.mem_map_of_mem h, ?_⟩
  rw [if_pos rfl]
  exact beq_self_eq_true c.id

end

/-- A chunk from a queue pair whose stage is `x`, where the receive FIFO feeds no command. -/
theorem imageStage_of_starts {q : Fin 1024} {pkt : Packet} {b : List Byte} {s s1 x : State} {c : Cmd} (hs : Starts 0x80 (.sq q) pkt s s1 c)
    (hx : s1.stage c (.bytes b) = x) (hf : x.svc.consumer = none) : Effect (.imageStage (.sq q) pkt (.bytes b)) s x :=
  Effect.of_starts hs rfl ((State.feed_of_idle 130 (hx ▸ hf)).trans hx)

section
variable {q : Fin 1024} {pkt : Packet} {b : List Byte} {n : Nat} {i0 : Images} {s s1 : State} {c : Cmd}
  (hs : Starts 0x80 (.sq q) pkt s s1 c)
  (h1 : s1.cmdq.cmds.any (fun x => x.id != c.id && x.opcode == 0x80 && x.step != CmdStep.fetched) = false)
  (hi : s1.svc.consumer = none)
include hs h1 hi

theorem imageStage_of_next (hc : c.chunk = (s1.img.received, n, false)) (hd : n % 8 = 0) (h8 : 8 ≤ n) (hm : n ≤ 1048576)
    (h0 : s1.img.received ≠ 0) (hst : s1.img.st = .receiving) (hh : 4096 ≤ s1.img.header.length)
    (hl : s1.img.received + n < headerLen s1.img.header) :
    Effect (.imageStage (.sq q) pkt (.bytes b)) s ((((s1.await c .fifo).setImg (s1.img.take (fit n b))).imageOn).endChunk c) := by
  obtain ⟨hp, -, -⟩ := cmd_of_starts hs
  have hS : s1.Stages c q := ⟨hp, h1, by simp [hst], by simp [hst]⟩
  have hstart : s1.startChunk c = s1 := by simp [State.startChunk, hc, h0]
  refine imageStage_of_starts hs ?_ ?_
  · rw [State.stage_of_good hS hc (State.badChunk_of_next h0 hst h8 hm hd hl), hstart,
      State.takeImage_of_receiving (s := s1.await c .fifo) hst hh]
    rfl
  · rw [State.endChunk_svc, State.imageOn_svc]
    exact hi

theorem imageStage_of_first (hc : c.chunk = (0, n, false)) (hd : n % 8 = 0) (h8 : 8 ≤ n) (hm : n < 4096) (hv : s1.img.st ≠ .verifying)
    (ha : s1.img.st ≠ .activating) (hi0 : { s1.img.empty with st := .header, slot := s1.stagingSlot } = i0) :
    Effect (.imageStage (.sq q) pkt (.bytes b)) s
      ((((s1.setImg i0).await c .fifo).setImg { i0.take (fit n b) with header := fit n b }).finish c 0 0 none) := by
  obtain ⟨hp, -, hmem⟩ := cmd_of_starts hs
  have hstart : s1.startChunk c = s1.setImg i0 := by simp [State.startChunk, hc, hi0]
  have hst : i0.st ≠ .receiving := by simp [← hi0]
  have hh : i0.header = [] := by simp [← hi0, Images.empty]
  refine imageStage_of_starts hs ?_ ((congrArg Svc.consumer (State.finish_svc _ _ _ _ _)).trans hi)
  rw [State.stage_of_good ⟨hp, h1, hv, ha⟩ hc (State.badChunk_of_first h8 hm hd), hstart,
    State.takeImage_of_header hst hh ((fit_length n b).trans_lt hm)]
  exact State.endChunk_of_header (State.running_await (s := s1.setImg i0) _ hmem) hc hst

theorem imageStage_of_gap {o : Nat} {last : Bool} (hc : c.chunk = (o, n, last)) (ho : o ≠ s1.img.received) (h0 : o ≠ 0)
    (hst : s1.img.st = .receiving) : Effect (.imageStage (.sq q) pkt (.bytes b)) s (s1.finish c 0x02 0x20 none) := by
  obtain ⟨hp, -, -⟩ := cmd_of_starts hs
  have hS : s1.Stages c q := ⟨hp, h1, by simp [hst], by simp [hst]⟩
  exact imageStage_of_starts hs (State.stage_of_bad hS hc (State.badChunk_of_gap h0 ho))
    ((congrArg Svc.consumer (State.finish_svc _ _ _ _ _)).trans hi)

end

/-! ### The rest of a step on the power steward -/

section
variable (s : State)

theorem State.msix_power (v : Nat) : (s.msix v).power = s.power := State.ite_keeps State.power rfl rfl

theorem State.settlePair_power (q : Fin 1024) : (s.settlePair q).power = s.power := State.ite_keeps State.power rfl rfl

theorem State.postReady_power (q n : Nat) : (s.postReady q n).power = s.power := by
  induction n generalizing s with
  | zero => rfl
  | succ n ih =>
    unfold State.postReady
    dsimp only
    split
    · rfl
    · exact State.ite_keeps State.power ((ih _).trans (State.ite_keeps State.power (State.msix_power _ _) rfl)) rfl

theorem State.finish_power (c : Cmd) (code detail : Nat) (r : Option (List Byte)) : (s.finish c code detail r).power = s.power := by
  unfold State.finish
  extract_lets _ _ _ _ _ _ w
  refine State.ite_keeps State.power ?_ ?_
  · split
    · exact State.settlePair_power _ _
    · rfl
  · split
    · rfl
    · have hw : w.power = s.power := State.ite_keeps State.power rfl rfl
      exact (State.settlePair_power _ _).trans ((State.postReady_power _ _ _).trans hw)

theorem State.nextRange_power (n : Nat) : (s.nextRange n).power = s.power := by
  induction n generalizing s with
  | zero => rfl
  | succ n ih =>
    refine State.ite_keeps State.power rfl (State.ite_keeps State.power rfl ?_)
    split
    · rfl
    · rename_i r rest _
      extract_lets _ u cmd fail
      have hfail (code : Nat) : (fail code).power = s.power := by
        clear_value cmd
        cases cmd with
        | none => exact ih u
        | some c => exact (ih _).trans (State.finish_power u c code 0 none)
      exact State.ite_keeps State.power (ih _) (State.ite_keeps State.power (hfail _) (State.ite_keeps State.power (hfail _) rfl))

theorem State.endRange_power : s.endRange.power = s.power := by
  unfold State.endRange
  split
  · rfl
  · refine State.ite_keeps State.power rfl ((State.nextRange_power _ _).trans ?_)
    split
    · exact State.finish_power _ _ _ _ _
    · rfl

/-- A shutdown begins only where none has begun (R392). -/
theorem State.startStopped_power (h : s.power.shutdown ≠ .none) : s.startStopped.power = s.power := by
  unfold State.startStopped
  extract_lets
  refine State.ite_keeps State.power rfl ?_
  split
  · exact congrArg State.power (if_neg (by simp [h]))
  · refine State.ite_keeps State.power rfl ?_
    split
    · exact State.ite_keeps State.power rfl rfl
    · exact congrArg State.power (if_neg h)
    · rfl
  · rfl

theorem State.finishWaiters_power (h : s.power.shutdown ≠ .none) : s.finishWaiters.power = s.power := by
  have hg : s.endGpf.endRange.power = s.power := s.endGpf.endRange_power.trans (State.ite_keeps State.power rfl rfl)
  unfold State.finishWaiters
  extract_lets u
  have hf := (State.foldl_keeps State.power (f := fun s c => if s.waitOver c then s.finish c c.code 0 c.waitResult else s)
    (fun s c => State.ite_keeps State.power (State.finish_power _ _ _ _ _) rfl) u u.cmdq.cmds).trans hg
  exact (State.startStopped_power _ (hf ▸ h)).trans hf

theorem State.settle_power (s0 : State) (h : s.power.shutdown ≠ .none) : (s0.settle s).power = s.power := by
  have hc (u : State) : (s0.countConds u).power = u.power := by
    refine State.ite_keeps State.power rfl (State.foldl_keeps State.power (fun s e => ?_) u _)
    exact State.ite_keeps State.power ((congrArg State.power (s.observed_addCount _ _).eq).trans rfl) rfl
  have he (u : State) (id : Nat) (c : Bool) : (u.edgeIf id c).power = u.power := State.ite_keeps State.power rfl rfl
  have hf (u : State) : (s0.flagChanges u).power = u.power := State.ite_keeps State.power rfl rfl
  have hl (u : State) : (s0.linkMessages u).power = u.power := State.ite_keeps State.power rfl rfl
  have hn (u : State) : u.notify.power = u.power := by
    refine State.foldl_keeps State.power (fun s e => ?_) u _
    exact State.ite_keeps State.power (State.msix_power _ _) rfl
  unfold State.settle
  extract_lets u1 u2 u3 u4 u5 u6 u7 u8 u9
  rw [hl, hn]
  iterate 6 rw [he]
  rw [hf, hc, State.finishWaiters_power _ h]

end

/-! ### The clean shutdown path (R392, R393) -/

section
variable {s : State} (hs : s.dev.state = .serving)
include hs

theorem exec_cleanShutdown : exec .cleanShutdown s = s.done s.shutdownPath := congrArg s.done (if_pos (.inl hs))

theorem cleanShutdown_of_path {x : State} (hx : s.shutdownPath = x) : Effect .cleanShutdown s x :=
  Effect.of_done (hx ▸ exec_cleanShutdown hs)

/-- Once the final welt is committed and nothing waits, the shutdown is held and fetching goes on. -/
theorem cleanShutdown_of_welt (hw : s.power.shutdown = .welt) (hr : s.xlat.run = none) (hj : s.journalDone = true) (hc : s.cmdq.cmds = [])
    (ho : s.power.offAsked = false) :
    Answers .cleanShutdown s (fun t => t.power.shutdown = .held ∧ t.cmdq.stopped = none ∧ t.dev.state = .serving) := by
  have hx : s.shutdownPath = (s.setShutdown .held).setCmdq { s.cmdq with stopped := none } := by
    simp [State.shutdownPath, State.hold, State.setShutdown, hw, hr, hj, hc, ho]
  refine ⟨_, exec_cleanShutdown hs, ?_⟩
  beta_reduce
  have ht := settle_trails s s.shutdownPath
  obtain ⟨hstop, -⟩ := ht.fetching
  rw [State.settle_power _ _ (by simp [hx, State.setShutdown]), hstop, ht.dev, hx]
  exact ⟨rfl, rfl, hs⟩

end

/-- Settles O32: a chunk by where its bytes stand, the path by the step that it has reached; that the shutdown stays held is what the rest
of the step leaves of the power steward. -/
theorem stagingAndCleanShutdown : Obligations.StagingAndCleanShutdown := by
  refine ⟨?_, fun s hs => ⟨fun h => cleanShutdown_of_path hs ?_, fun s' h hf => cleanShutdown_of_path hs ?_,
    fun s' h hf hm => cleanShutdown_of_path hs ?_, fun h ha hr hj ds hd => cleanShutdown_of_path hs ?_,
    fun ds s' h => ⟨fun hb => cleanShutdown_of_path hs ?_, fun hb => cleanShutdown_of_path hs ?_⟩, cleanShutdown_of_welt hs⟩⟩
  · rintro q pkt b _ _ i i0 s s1 c
    refine ⟨fun hs h1 hi ho hn hl hd h8 hm => ?_, i.take_bytes b, rfl, i.take_page_length b⟩
    obtain ⟨-, rfl, -⟩ := cmd_of_starts hs
    have hc : c.chunk = (c.pkt.u 0x20 4, c.pkt.u 0x24 4, false) := congrArg (fun l => (c.pkt.u 0x20 4, c.pkt.u 0x24 4, l)) hl
    rw [ho, hn] at hc
    refine ⟨fun hr h0 hst hh hf => ?_, fun h0 hm hv ha hi0 => ?_, imageStage_of_gap hs h1 hi hc⟩
    · subst hr
      exact imageStage_of_next hs h1 hi hc hd h8 hm h0 hst hh hf
    · subst h0
      exact imageStage_of_first hs h1 hi hc hd h8 hm hv ha hi0
  · rcases h with h | h
    · simp only [State.shutdownPath, h]
    · simp only [State.shutdownPath, h]
  · simp only [State.shutdownPath, h, hf]
  · simp only [State.shutdownPath, h, hf, hm, Bool.false_and, Bool.false_eq_true, if_false]
  · simp only [State.shutdownPath, h, ha, hr, hj, hd, Option.isSome_none, Bool.not_true, Bool.or_self, Bool.false_eq_true, if_false]
  · simp only [State.shutdownPath, h, hb]
  · simp only [State.shutdownPath, h, hb]

end Sys2Proof.Machine
end

section
/-! SUPPORT. No function of the model reads or writes the queue of waiting commands: one rule `_pending` for each, from the rules of the
functions that it calls, and one rule `_keepsQueue` for each command: O54. This part: what every command shares. -/

namespace Sys2Proof.Machine

section
variable (s : State)

/-! ### Choices, repetitions, and results of two parts -/

@[simp] theorem State.ite_pending {c : Prop} [Decidable c] (a b : State) :
    (if c then a else b).pending = if c then a.pending else b.pending := apply_ite State.pending c a b

@[simp] theorem State.foldl_pending {α : Type} {f : State → α → State} (hf : ∀ s a, (f s a).pending = s.pending) (l : List α) :
    (l.foldl f s).pending = s.pending := State.foldl_keeps State.pending hf s l

theorem State.pending_of_eq {β : Type} {p : State × β} {t : State} {b : β} (h : p = (t, b)) : t.pending = p.1.pending := by rw [h]

/-! ### The queue is part of what `still` and `kept` show -/

theorem State.pending_of_still {s t : State} (h : t.still = s.still) : t.pending = s.pending :=
  (congrArg State.pending h : t.still.pending = s.still.pending)

theorem State.pending_of_kept {s t : State} (h : t.kept = s.kept) : t.pending = s.pending := congrArg Kept.pending h

/-! ### What a command answers -/

/-- The outcome is a next state, whose queue is that of `s`. -/
def State.KeepsQueue (o : Host.Outcome State Fault Refusal) : Prop := ∃ t, o = .next t ∧ t.pending = s.pending

@[simp] theorem State.keepsQueue_ite {c : Prop} [Decidable c] (a b : Host.Outcome State Fault Refusal) :
    s.KeepsQueue (if c then a else b) ↔ if c then s.KeepsQueue a else s.KeepsQueue b := by
  split
  · rfl
  · rfl

/-- The rest of a step leaves the queue of the state that the command made. -/
@[simp] theorem State.keepsQueue_done (s0 x : State) : s.KeepsQueue (s0.done x) ↔ x.pending = s.pending := by
  have h : (s0.settle x).pending = x.pending := (settle_trails s0 x).pending
  simp [State.KeepsQueue, State.done, h]

/-! ### Registers and events -/

@[simp] theorem State.setField_pending (off lo w x) : (s.setField off lo w x).pending = s.pending := by rfl
@[simp] theorem State.setBit_pending (off i) : (s.setBit off i).pending = s.pending := by rfl
@[simp] theorem State.bump_pending (off lo w k) : (s.bump off lo w k).pending = s.pending := by rfl
@[simp] theorem State.event_pending (port code path params tack) : (s.event port code path params tack).pending = s.pending := by
  simp [State.event]

/-! ### Registers -/

@[simp] theorem State.resetRegs_pending (p) : (s.resetRegs p).pending = s.pending := by rfl

/-! ### Operations that every command shares -/

@[simp] theorem State.updLife_pending (k f) : (s.updLife k f).pending = s.pending := by rfl
@[simp] theorem State.tick_pending : s.tick.pending = s.pending := by rfl
@[simp] theorem State.raise_pending (id) : (s.raise id).pending = s.pending := by rfl
@[simp] theorem State.goto_pending (st) : (s.goto st).pending = s.pending := by rfl
@[simp] theorem State.addCount_pending (k inc) : (s.addCount k inc).pending = s.pending := State.pending_of_kept (kept_addCount ..)
@[simp] theorem State.count_pending (code t isT) : (s.count code t isT).pending = s.pending := State.pending_of_still (still_count ..)
@[simp] theorem State.frame_pending (ty payload) : (s.frame ty payload).pending = s.pending := State.pending_of_kept (kept_frame ..)
@[simp] theorem State.retire_pending (k) : (s.retire k).pending = s.pending := State.pending_of_still (still_retire ..)
@[simp] theorem State.eraseCells_pending (ks) : (s.eraseCells ks).pending = s.pending := by rfl
@[simp] theorem State.updTack_pending (k f) : (s.updTack k f).pending = s.pending := by rfl

/-! ### Ends of commands -/

@[simp] theorem State.setQueue_pending (q x) : (s.setQueue q x).pending = s.pending := by rfl
@[simp] theorem State.msix_pending (v) : (s.msix v).pending = s.pending := State.pending_of_still (still_msix ..)
@[simp] theorem State.settlePair_pending (q) : (s.settlePair q).pending = s.pending := State.pending_of_still (still_settlePair ..)
@[simp] theorem State.postReady_pending (q fuel) : (s.postReady q fuel).pending = s.pending := (trails_postReady s q fuel).pending
@[simp] theorem State.finish_pending (c code detail result) : (s.finish c code detail result).pending = s.pending :=
  (trails_finish s c code detail result).pending
@[simp] theorem State.updCmd_pending (id f) : (s.updCmd id f).pending = s.pending := by rfl
@[simp] theorem State.startDrain_pending : s.startDrain.pending = s.pending := by rfl
@[simp] theorem State.nextRange_pending (fuel) : (s.nextRange fuel).pending = s.pending := (trails_nextRange s fuel).pending
@[simp] theorem State.leaveRange_pending (r) : (s.leaveRange r).pending = s.pending := by rfl
@[simp] theorem State.endGpf_pending : s.endGpf.pending = s.pending := by simp [State.endGpf]

/-! ### Ends of steps -/

@[simp] theorem State.flagChanges_pending (s0 : State) : (s0.flagChanges s).pending = s.pending := (trails_flagChanges s0 s).pending

/-! ### Dies and their bus -/

@[simp] theorem State.program_pending (a c) : (s.program a c).pending = s.pending := by rfl
@[simp] theorem State.fulfil_pending (k o bufs) : (s.fulfil k o bufs).pending = s.pending := by simp [State.fulfil]

@[simp] theorem State.dieSenseEnds_pending (k) : (s.dieSenseEnds k).pending = s.pending := by
  simp only [State.dieSenseEnds]
  repeat' split
  all_goals simp

@[simp] theorem State.spoil_pending (k o) : (s.spoil k o).pending = s.pending := by simp [State.spoil]

@[simp] theorem State.dieDark_pending (k) : (s.dieDark k).pending = s.pending := by
  unfold State.dieDark
  dsimp only
  split
  all_goals simp

@[simp] theorem State.darken_pending (p) : (s.darken p).pending = s.pending := by simp [State.darken]

@[simp] theorem State.dieOpEnds_pending (k erase fail) : (s.dieOpEnds k erase fail).pending = s.pending := by
  unfold State.dieOpEnds
  dsimp only
  split
  all_goals simp

@[simp] theorem State.dieReset_pending (k) : (s.dieReset k).pending = s.pending := by
  simp only [State.dieReset]
  split
  all_goals simp

@[simp] theorem State.dieTakes_pending (ch d f reply) : (s.dieTakes ch d f reply).pending = s.pending := by simp [State.dieTakes]
@[simp] theorem execAmc2Reset_keepsQueue (ch d) : s.KeepsQueue (execAmc2Reset ch d s) := by simp [execAmc2Reset]
@[simp] theorem execAmc2Identify_keepsQueue (ch d mod) : s.KeepsQueue (execAmc2Identify ch d mod s) := by simp [execAmc2Identify]
@[simp] theorem execAmc2Status_keepsQueue (ch d mod) : s.KeepsQueue (execAmc2Status ch d mod s) := by simp [execAmc2Status]
@[simp] theorem execAmc2StatusScan_keepsQueue (ch mod) : s.KeepsQueue (execAmc2StatusScan ch mod s) := by simp [execAmc2StatusScan]
@[simp] theorem execAmc2GetTemp_keepsQueue (ch d mod temp) : s.KeepsQueue (execAmc2GetTemp ch d mod temp s) := by simp [execAmc2GetTemp]
@[simp] theorem execAmc2TrainRdPattern_keepsQueue (ch d mod) : s.KeepsQueue (execAmc2TrainRdPattern ch d mod s) := by
  simp [execAmc2TrainRdPattern]
@[simp] theorem execAmc2TrainWrStore_keepsQueue (ch d mod data) : s.KeepsQueue (execAmc2TrainWrStore ch d mod data s) := by
  simp [execAmc2TrainWrStore]
@[simp] theorem execAmc2TrainRdStore_keepsQueue (ch d mod) : s.KeepsQueue (execAmc2TrainRdStore ch d mod s) := by
  simp [execAmc2TrainRdStore]
@[simp] theorem execAmc2TrainConfig_keepsQueue (ch d mod word) : s.KeepsQueue (execAmc2TrainConfig ch d mod word s) := by
  simp [execAmc2TrainConfig]
@[simp] theorem execAmc2SetRef_keepsQueue (ch d mod words) : s.KeepsQueue (execAmc2SetRef ch d mod words s) := by simp [execAmc2SetRef]
@[simp] theorem State.amc2Sense_pending (ch d kind mod c1 c2 c3) : (s.amc2Sense ch d kind mod c1 c2 c3).pending = s.pending := by rfl
@[simp] theorem State.amc2Xfer_pending (ch d kind mod c1) : (s.amc2Xfer ch d kind mod c1).pending = s.pending := by simp [State.amc2Xfer]
@[simp] theorem execAmc2ReadPageSense_keepsQueue (ch d mod c1 c2) : s.KeepsQueue (execAmc2ReadPageSense ch d mod c1 c2 s) := by
  simp [execAmc2ReadPageSense]
@[simp] theorem execAmc2ReadPageXfer_keepsQueue (ch d mod c1) : s.KeepsQueue (execAmc2ReadPageXfer ch d mod c1 s) := by
  simp [execAmc2ReadPageXfer]
@[simp] theorem execAmc2ReadSoftSense_keepsQueue (ch d mod c1 c2 c3) : s.KeepsQueue (execAmc2ReadSoftSense ch d mod c1 c2 c3 s) := by
  simp [execAmc2ReadSoftSense]
@[simp] theorem execAmc2ReadSoftXfer_keepsQueue (ch d mod c1) : s.KeepsQueue (execAmc2ReadSoftXfer ch d mod c1 s) := by
  simp [execAmc2ReadSoftXfer]
@[simp] theorem execAmc2ReadHistSense_keepsQueue (ch d mod c1 c2) : s.KeepsQueue (execAmc2ReadHistSense ch d mod c1 c2 s) := by
  simp [execAmc2ReadHistSense]
@[simp] theorem execAmc2ReadHistXfer_keepsQueue (ch d mod c1) : s.KeepsQueue (execAmc2ReadHistXfer ch d mod c1 s) := by
  simp [execAmc2ReadHistXfer]

@[simp] theorem execAmc2ProgramLoad_keepsQueue (ch d mod c1 c2 c3 data crc) :
    s.KeepsQueue (execAmc2ProgramLoad ch d mod c1 c2 c3 data crc s) := by
  simp [execAmc2ProgramLoad]

@[simp] theorem execAmc2ProgramStart_keepsQueue (ch d mod c1 c2 c3) : s.KeepsQueue (execAmc2ProgramStart ch d mod c1 c2 c3 s) := by
  simp [execAmc2ProgramStart]
@[simp] theorem execAmc2Erase_keepsQueue (ch d mod c1) : s.KeepsQueue (execAmc2Erase ch d mod c1 s) := by simp [execAmc2Erase]
@[simp] theorem execAmc2Suspend_keepsQueue (ch d mod) : s.KeepsQueue (execAmc2Suspend ch d mod s) := by simp [execAmc2Suspend]
@[simp] theorem execAmc2Resume_keepsQueue (ch d mod) : s.KeepsQueue (execAmc2Resume ch d mod s) := by simp [execAmc2Resume]
@[simp] theorem execAmc2FrameAbort_keepsQueue (ch d) : s.KeepsQueue (execAmc2FrameAbort ch d s) := by simp [execAmc2FrameAbort]
@[simp] theorem execDieSenseEnd_keepsQueue (ch d) : s.KeepsQueue (execDieSenseEnd ch d s) := by simp [execDieSenseEnd]
@[simp] theorem execDieEraseEnd_keepsQueue (ch d fail) : s.KeepsQueue (execDieEraseEnd ch d fail s) := by simp [execDieEraseEnd]
@[simp] theorem execDieSuspendEnd_keepsQueue (ch d) : s.KeepsQueue (execDieSuspendEnd ch d s) := by simp [execDieSuspendEnd]

/-! ### Rein arbiters -/

@[simp] theorem State.judge_pending (ch) : (s.judge ch).pending = s.pending := State.pending_of_kept (kept_judge ..)
@[simp] theorem State.judgeAll_pending : s.judgeAll.pending = s.pending := State.pending_of_kept (kept_judgeAll ..)
@[simp] theorem State.setDrfOvr_pending (ch on) : (s.setDrfOvr ch on).pending = s.pending := by simp [State.setDrfOvr]

@[simp] theorem State.stampPage_pending (k p) : (s.stampPage k p).pending = s.pending := by
  unfold State.stampPage
  split
  all_goals simp

@[simp] theorem State.holdLoads_pending (ch) : (s.holdLoads ch).pending = s.pending := by
  refine State.foldl_pending s (fun s x => ?_) _
  split
  all_goals simp

@[simp] theorem State.loadTaken_pending (k) : (s.loadTaken k).pending = s.pending := by rfl
@[simp] theorem State.elapse_pending (ch ck) : (s.elapse ch ck).pending = s.pending := by rfl
@[simp] theorem State.classify_pending (ch ck c) : (s.classify ch ck c).pending = s.pending := by rfl
@[simp] theorem State.account_pending (ch ck c) : (s.account ch ck c).pending = s.pending := by rfl
@[simp] theorem State.accountEmpty_pending (ch kind won) : (s.accountEmpty ch kind won).pending = s.pending := by rfl

@[simp] theorem State.draw_pending (ch withdraws) : (s.draw ch withdraws).pending = s.pending := by
  unfold State.draw
  extract_lets s1 a present ts v raised overridden
  split
  extract_lets winner s2 b1 b2 kind owner b3 s3 s4 s5 s6 s7 s8
  have h2 : s2.pending = s.pending := by simp [s2, s1]
  have h4 : s4.pending = s3.pending := by
    refine State.foldl_pending s3 (fun s e => ?_) _
    split
    · rfl
    · rfl
  have h5 : s5.pending = s4.pending := by
    cases ho : owner with
    | none => simp [s5, ho]
    | some _ => simp [s5, ho]
  have h6 : s6.pending = s5.pending := by
    cases hw : winner with
    | none => simp [s6, hw]
    | some _ => simp [s6, hw]
  have h8 : s8.pending = s6.pending := by simp [s8, s7]
  simp [h8, h6, h5, h4, s3, h2]

@[simp] theorem State.endPhase_pending (ch) : (s.endPhase ch).pending = s.pending := by rfl
@[simp] theorem State.withdraw_pending (ch k) : (s.withdraw ch k).pending = s.pending := by simp [State.withdraw]
@[simp] theorem execArbDraw_keepsQueue (ch withdraws) : s.KeepsQueue (execArbDraw ch withdraws s) := by simp [execArbDraw]
@[simp] theorem State.reseedAll_pending : s.reseedAll.pending = s.pending := State.foldl_pending s (fun s ch => by rfl) _
@[simp] theorem execReseed_keepsQueue : s.KeepsQueue (execReseed s) := by simp [execReseed]
@[simp] theorem State.writeCustom_pending (ch custom) : (s.writeCustom ch custom).pending = s.pending := by simp [State.writeCustom]
@[simp] theorem execCustomChange_keepsQueue (ch custom) : s.KeepsQueue (execCustomChange ch custom s) := by simp [execCustomChange]

/-! ### Learned offsets and holes -/

@[simp] theorem State.limitOffsets_pending : s.limitOffsets.pending = s.pending := by rfl
@[simp] theorem State.enterHoles_pending (h) : (s.enterHoles h).pending = s.pending := State.pending_of_still (still_enterHoles ..)
@[simp] theorem State.leaveHoles_pending (first n) : (s.leaveHoles first n).pending = s.pending :=
  State.pending_of_still (still_leaveHoles ..)

/-! ### The parameter store and the event log -/

@[simp] theorem State.save_pending (id payload) : (s.save id payload).pending = s.pending := State.pending_of_kept (kept_save ..)
@[simp] theorem State.erase_pending (ids) : (s.erase ids).pending = s.pending := by simp [State.erase]

@[simp] theorem State.saveWall_pending : s.saveWall.pending = s.pending := by
  unfold State.saveWall
  split
  all_goals simp

@[simp] theorem State.checkTie_pending (id) : (s.checkTie id).pending = s.pending := by simp [State.checkTie]
@[simp] theorem State.recover_pending (slot e) : (s.recover slot e).pending = s.pending := by simp [State.recover]
@[simp] theorem State.recoverAll_pending : s.recoverAll.pending = s.pending := by simp [State.recoverAll]

@[simp] theorem State.traceEvent_pending (r) : (s.traceEvent r).pending = s.pending := by simp [State.traceEvent]
@[simp] theorem State.viewRecord_pending (r) : (s.viewRecord r).pending = s.pending := by
  unfold State.viewRecord
  dsimp only
  split
  all_goals simp
@[simp] theorem State.recordEvent_pending (e) : (s.recordEvent e).pending = s.pending := by simp [State.recordEvent]

@[simp] theorem State.clearLog_pending : s.clearLog.pending = s.pending := by simp [State.clearLog]

/-! ### Block records and space -/

@[simp] theorem State.setPb_pending (k r) : (s.setPb k r).pending = s.pending := by rfl
@[simp] theorem State.updPb_pending (k f) : (s.updPb k f).pending = s.pending := by rfl
@[simp] theorem State.updDb_pending (db f) : (s.updDb db f).pending = s.pending := by rfl
@[simp] theorem State.checkSpace_pending : s.checkSpace.pending = s.pending := State.pending_of_still (still_checkSpace ..)

end

end Sys2Proof.Machine
end

section
/-! SUPPORT. The queue of waiting commands, continued: the journal, translation, the cache, stitches and lost codewords. -/

namespace Sys2Proof.Machine

section
variable (s : State)

/-! ### Engine tacks and the journal -/

@[simp] theorem State.birth_pending (t ch) : (s.birth t ch).1.pending = s.pending := State.pending_of_still (still_birth ..)
@[simp] theorem State.ask_pending (t) : (s.ask t).1.pending = s.pending := State.pending_of_still (still_ask ..)

@[simp] theorem State.spawnProgram_pending (op e rein db page cws what) :
    (s.spawnProgram op e rein db page cws what).1.pending = s.pending :=
  State.pending_of_kept (kept_spawnProgram ..)

@[simp] theorem State.writeJournal_pending (p second) : (s.writeJournal p second).pending = s.pending :=
  State.pending_of_still (still_writeJournal ..)
@[simp] theorem State.closePage_pending : s.closePage.pending = s.pending := State.pending_of_still (still_closePage ..)
@[simp] theorem State.append_pending (r) : (s.append r).pending = s.pending := State.pending_of_still (still_append ..)
@[simp] theorem State.journalProgrammed_pending (jseq second) : (s.journalProgrammed jseq second).pending = s.pending := by rfl
@[simp] theorem State.flushJournal_pending : s.flushJournal.pending = s.pending := by simp [State.flushJournal]

/-! ### The directory and its leaves -/

@[simp] theorem State.updCtx_pending (c f) : (s.updCtx c f).pending = s.pending := by rfl
@[simp] theorem State.setEntry_pending (g e) : (s.setEntry g e).pending = s.pending := by rfl
@[simp] theorem State.dirError_pending (line source) : (s.dirError line source).pending = s.pending := by rfl
@[simp] theorem State.segRoom_pending (g) : (s.segRoom g).1.pending = s.pending := State.pending_of_still (still_segRoom ..)
@[simp] theorem State.placeSegment_pending (g k leaves) : (s.placeSegment g k leaves).pending = s.pending := by rfl

@[simp] theorem State.bringIn_pending (g) : (s.bringIn g).pending = s.pending := by
  simp only [State.bringIn]
  split
  · rfl
  · split
    all_goals rename_i h; simp [State.pending_of_eq h]

@[simp] theorem State.setLeaf_pending (leaf rseq f) : (s.setLeaf leaf rseq f).pending = s.pending :=
  State.pending_of_still (still_setLeaf ..)
@[simp] theorem State.addValid_pending (a) : (s.addValid a).pending = s.pending := by rfl
@[simp] theorem State.subValid_pending (a) : (s.subValid a).pending = s.pending := by rfl
@[simp] theorem State.unmapOld_pending (e) : (s.unmapOld e).pending = s.pending := State.pending_of_still (still_unmapOld ..)
@[simp] theorem State.voidWritebacks_pending (first n) : (s.voidWritebacks first n).pending = s.pending := by rfl
@[simp] theorem State.leafState_pending (st first n reason hole) : (s.leafState st first n reason hole).pending = s.pending :=
  State.pending_of_still (still_leafState ..)
@[simp] theorem State.poisonLeaf_pending (leaf reason at') : (s.poisonLeaf leaf reason at').pending = s.pending :=
  State.pending_of_still (still_poisonLeaf ..)
@[simp] theorem State.mapLeaf_pending (i) : (s.mapLeaf i).pending = s.pending := by simp [State.mapLeaf]
@[simp] theorem State.pin_pending (g on) : (s.pin g on).pending = s.pending := State.pending_of_still (still_pin ..)
@[simp] theorem State.dropSegment_pending (g rseq) : (s.dropSegment g rseq).pending = s.pending :=
  State.pending_of_still (still_dropSegment ..)

/-! ### The line cache -/

@[simp] theorem State.setLine_pending (k l) : (s.setLine k l).pending = s.pending := by rfl
@[simp] theorem State.sendCredit_pending (addr cxl) : (s.sendCredit addr cxl).pending = s.pending := by rfl
@[simp] theorem State.keepCommits_pending (p) : (s.keepCommits p).pending = s.pending := State.pending_of_still (still_keepCommits ..)
@[simp] theorem State.dropLine_pending (k) : (s.dropLine k).pending = s.pending := State.pending_of_still (still_dropLine ..)
@[simp] theorem State.listDirty_pending (k wt) : (s.listDirty k wt).pending = s.pending := State.pending_of_still (still_listDirty ..)
@[simp] theorem State.recomputeCeiling_pending (usable) : (s.recomputeCeiling usable).pending = s.pending := by
  simp [State.recomputeCeiling]

/-! ### Errors of the host port -/

@[simp] theorem State.aer_pending (e header) : (s.aer e header).pending = s.pending := State.pending_of_still (still_aer ..)
@[simp] theorem State.aerFree_pending (e) : (s.aerFree e).pending = s.pending := State.pending_of_kept (kept_aerFree ..)

/-! ### Contexts and runs of leaves -/

@[simp] theorem State.storeCtx_pending (c x) : (s.storeCtx c x).pending = s.pending := State.pending_of_still (still_storeCtx ..)
@[simp] theorem State.bindRun_pending (c first n) : (s.bindRun c first n).pending = s.pending := State.pending_of_still (still_bindRun ..)
@[simp] theorem State.pinRun_pending (c first n) : (s.pinRun c first n).pending = s.pending := State.pending_of_still (still_pinRun ..)
@[simp] theorem State.unpinRun_pending (c first n) : (s.unpinRun c first n).pending = s.pending :=
  State.pending_of_still (still_unpinRun ..)
@[simp] theorem State.destroyKey_pending (c) : (s.destroyKey c).pending = s.pending := by simp [State.destroyKey]
@[simp] theorem State.checkMailbox_pending : s.checkMailbox.pending = s.pending := State.pending_of_still (still_checkMailbox ..)
@[simp] theorem State.endRunTack_pending (id) : (s.endRunTack id).pending = s.pending := State.pending_of_still (still_endRunTack ..)

/-! ### Host accesses -/

@[simp] theorem State.sendPiece_pending (r c tag bs) : (s.sendPiece r c tag bs).pending = s.pending :=
  State.pending_of_still (still_sendPiece ..)
@[simp] theorem State.countOutside_pending (t) : (s.countOutside t).pending = s.pending := State.pending_of_still (still_countOutside ..)
@[simp] theorem State.deliver_pending (k bs poison) : (s.deliver k bs poison).pending = s.pending :=
  State.pending_of_still (still_deliver ..)
@[simp] theorem State.failRead_pending (r st) : (s.failRead r st).pending = s.pending := State.pending_of_still (still_failRead ..)
@[simp] theorem State.markOutside_pending (p) : (s.markOutside p).pending = s.pending := by rfl
@[simp] theorem State.rejudge_pending : s.rejudge.pending = s.pending := by rfl
@[simp] theorem State.markAll_pending : s.markAll.pending = s.pending := by rfl
@[simp] theorem State.markSegment_pending (g out) : (s.markSegment g out).pending = s.pending := by simp [State.markSegment]
@[simp] theorem State.endPause_pending : s.endPause.pending = s.pending := by simp [State.endPause]
@[simp] theorem State.spawnSegRead_pending (g host parent cmd) : (s.spawnSegRead g host parent cmd).pending = s.pending :=
  State.pending_of_still (still_spawnSegRead ..)
@[simp] theorem State.dropStale_pending (leaf) : (s.dropStale leaf).pending = s.pending := State.pending_of_still (still_dropStale ..)
@[simp] theorem State.updaterReads_pending : s.updaterReads.pending = s.pending := State.pending_of_still (still_updaterReads ..)
@[simp] theorem State.meetBad_pending (leaf m tack) : (s.meetBad leaf m tack).1.pending = s.pending :=
  State.pending_of_still (still_meetBad ..)

@[simp] theorem State.strike_pending (xs) : (s.strike xs).pending = s.pending := by
  refine State.foldl_pending s (fun s x => ?_) _
  split
  all_goals simp

@[simp] theorem State.acceptEnds_pending : s.acceptEnds.pending = s.pending := State.pending_of_kept (kept_acceptEnds ..)
@[simp] theorem State.tryPrefetch_pending (k) : (s.tryPrefetch k).pending = s.pending := State.pending_of_still (still_tryPrefetch ..)
@[simp] theorem State.tryWriteback_pending (k) : (s.tryWriteback k).pending = s.pending := State.pending_of_still (still_tryWriteback ..)
@[simp] theorem State.flushLine_pending (k o) : (s.flushLine k o).pending = s.pending := State.pending_of_still (still_flushLine ..)
@[simp] theorem State.tryRange_pending (k) : (s.tryRange k).pending = s.pending := State.pending_of_still (still_tryRange ..)
@[simp] theorem State.refuseWrite_pending (r reason abort) : (s.refuseWrite r reason abort).pending = s.pending :=
  State.pending_of_still (still_refuseWrite ..)
@[simp] theorem State.advance_pending : s.advance.pending = s.pending := State.pending_of_still (still_advance ..)

/-! ### Retirement and runs of reads -/

@[simp] theorem State.eraseNow_pending (ks f) : (s.eraseNow ks f).pending = s.pending := by simp [State.eraseNow]

@[simp] theorem State.replacePb_pending (db plane gone) : (s.replacePb db plane gone).pending = s.pending := by
  simp only [State.replacePb]
  repeat' split
  all_goals simp

@[simp] theorem State.retirePb_pending (k reason) : (s.retirePb k reason).pending = s.pending := by simp [State.retirePb]
@[simp] theorem State.retireMarked_pending (db) : (s.retireMarked db).pending = s.pending := by simp [State.retireMarked]
@[simp] theorem State.spawnSystemErase_pending (e db) : (s.spawnSystemErase e db).pending = s.pending := by simp [State.spawnSystemErase]

@[simp] theorem State.pumpRun_pending (op e x fuel) : (s.pumpRun op e x fuel).1.pending = s.pending := by
  induction fuel generalizing s x with
  | zero => rfl
  | succ n ih =>
    unfold State.pumpRun
    split
    · rfl
    dsimp only
    split
    · rename_i h
      simp [ih, State.pending_of_eq h]
    · rfl

/-! ### Copies of images and boot records -/

@[simp] theorem State.setSlotPtr_pending (p) : (s.setSlotPtr p).pending = s.pending := by simp [State.setSlotPtr]
@[simp] theorem State.rewriteBoot_pending (p) : (s.rewriteBoot p).pending = s.pending := by simp [State.rewriteBoot]
@[simp] theorem State.rewriteBoots_pending : s.rewriteBoots.pending = s.pending := by simp [State.rewriteBoots]
@[simp] theorem State.writeBoot_pending (p) : (s.writeBoot p).pending = s.pending := by simp [State.writeBoot]
@[simp] theorem State.loseCopy_pending (p block) : (s.loseCopy p block).pending = s.pending := by rfl
@[simp] theorem State.bootEnded_pending (p fail) : (s.bootEnded p fail).pending = s.pending := by simp [State.bootEnded]
@[simp] theorem State.setCopies_pending (cs) : (s.setCopies cs).pending = s.pending := by rfl

@[simp] theorem State.rejectStage_pending (sub) : (s.rejectStage sub).pending = s.pending := by
  simp only [State.rejectStage]
  repeat' split
  all_goals simp

@[simp] theorem State.copyOn_pending (p x) : (s.copyOn p x).pending = s.pending := by
  simp only [State.copyOn]
  repeat' split
  all_goals simp

@[simp] theorem State.imageOn_pending : s.imageOn.pending = s.pending := by
  simp only [State.imageOn]
  repeat' split
  all_goals simp

@[simp] theorem State.beginCopy_pending (p block again) : (s.beginCopy p block again).pending = s.pending := by simp [State.beginCopy]
@[simp] theorem State.moveCopy_pending (p x) : (s.moveCopy p x).pending = s.pending := by simp [State.moveCopy]

@[simp] theorem State.imageEnded_pending (p page fail) : (s.imageEnded p page fail).pending = s.pending := by
  unfold State.imageEnded
  split
  all_goals simp

@[simp] theorem State.copyErased_pending (db failed) : (s.copyErased db failed).pending = s.pending := by
  unfold State.copyErased
  split
  all_goals simp

@[simp] theorem State.emptySlot_pending (slot) : (s.emptySlot slot).pending = s.pending := by rfl

@[simp] theorem State.stageDone_pending : s.stageDone.pending = s.pending := by
  simp only [State.stageDone]
  repeat' split
  all_goals simp

@[simp] theorem State.verified_pending (good) : (s.verified good).pending = s.pending := by simp [State.verified]
@[simp] theorem State.setRenew_pending (r) : (s.setRenew r).pending = s.pending := by rfl
@[simp] theorem State.queueCopy_pending (db) : (s.queueCopy db).pending = s.pending := by simp [State.queueCopy]
@[simp] theorem State.unqueueCopy_pending (db) : (s.unqueueCopy db).pending = s.pending := by simp [State.unqueueCopy]

@[simp] theorem State.renewReads_pending : s.renewReads.pending = s.pending := by
  unfold State.renewReads
  split
  all_goals simp

@[simp] theorem State.startRenew_pending (db) : (s.startRenew db).pending = s.pending := by simp [State.startRenew]

@[simp] theorem State.renewProgram_pending (r) : (s.renewProgram r).pending = s.pending := by
  unfold State.renewProgram
  split
  all_goals simp

@[simp] theorem State.renewRewrite_pending (r) : (s.renewRewrite r).pending = s.pending := by simp [State.renewRewrite]

@[simp] theorem State.renewOn_pending : s.renewOn.pending = s.pending := by
  unfold State.renewOn
  split
  all_goals simp

@[simp] theorem State.renewRead_pending (a bad) : (s.renewRead a bad).pending = s.pending := by
  unfold State.renewRead
  split
  all_goals simp

@[simp] theorem State.renewMove_pending (r) : (s.renewMove r).pending = s.pending := by simp [State.renewMove]

@[simp] theorem State.renewEnded_pending (db page fail) : (s.renewEnded db page fail).pending = s.pending := by
  unfold State.renewEnded
  split
  all_goals simp

@[simp] theorem State.profileOn_pending : s.profileOn.pending = s.pending := by
  simp only [State.profileOn]
  repeat' split
  all_goals simp

@[simp] theorem State.followProfile_pending : s.followProfile.pending = s.pending := by simp [State.followProfile]

@[simp] theorem State.imageErased_pending (db failed) : (s.imageErased db failed).pending = s.pending := by
  simp only [State.imageErased]
  repeat' split
  all_goals simp

@[simp] theorem State.positionOff_pending (die) : (s.positionOff die).pending = s.pending := by
  unfold State.positionOff
  split
  all_goals simp

/-! ### Stitches, erases and ends of programs -/

@[simp] theorem State.queueRefresh_pending (db) : (s.queueRefresh db).pending = s.pending := by simp [State.queueRefresh]
@[simp] theorem State.checkOverride_pending (ch) : (s.checkOverride ch).pending = s.pending := by simp [State.checkOverride]

@[simp] theorem State.spawnErase_pending (db) : (s.spawnErase db).pending = s.pending := by
  simp only [State.spawnErase]
  repeat' split
  all_goals simp

@[simp] theorem State.startErase_pending (k p) : (s.startErase k p).pending = s.pending := by
  unfold State.startErase
  split
  all_goals simp

@[simp] theorem State.leaveStitch_pending (db) : (s.leaveStitch db).pending = s.pending := by rfl
@[simp] theorem State.freeParity_pending (db) : (s.freeParity db).pending = s.pending := by simp [State.freeParity]

@[simp] theorem State.releaseIf_pending (i) : (s.releaseIf i).pending = s.pending := by
  unfold State.releaseIf
  split
  all_goals simp

@[simp] theorem State.releaseAll_pending : s.releaseAll.pending = s.pending := by simp [State.releaseAll]
@[simp] theorem State.erasedPbs_pending (ks st) : (s.erasedPbs ks st).pending = s.pending := by simp [State.erasedPbs]
@[simp] theorem State.eraseDone_pending (db failed) : (s.eraseDone db failed).pending = s.pending := by simp [State.eraseDone]
@[simp] theorem State.setStitch_pending (i x) : (s.setStitch i x).pending = s.pending := by rfl

@[simp] theorem State.settleAt_pending (i) : (s.settleAt i).pending = s.pending := by
  unfold State.settleAt
  extract_lets x
  split
  · rfl
  refine (State.foldl_pending _ (fun s m => ?_) _).trans (State.setStitch_pending _ _ _)
  split
  · simp
  · rfl

@[simp] theorem State.closeMember_pending (i m) : (s.closeMember i m).pending = s.pending := by
  simp only [State.closeMember]
  repeat' split
  all_goals simp

@[simp] theorem State.sealStitch_pending (i bare) : (s.sealStitch i bare).pending = s.pending := by
  unfold State.sealStitch
  extract_lets x s1 s2 s3
  have h2 : s2.pending = s.pending := by simp [s2, s1]
  have h3 : s3.pending = s2.pending := by
    refine State.foldl_pending s2 (fun s m => ?_) _
    split
    all_goals simp
  rw [State.settleAt_pending, h3, h2]

@[simp] theorem State.force_pending (db planes) : (s.force db planes).pending = s.pending := by simp [State.force]
@[simp] theorem State.notePage_pending (ks page stamp) : (s.notePage ks page stamp).pending = s.pending := by simp [State.notePage]
@[simp] theorem State.notePages_pending (p) : (s.notePages p).pending = s.pending := by simp [State.notePages]
@[simp] theorem State.markFailed_pending (p) : (s.markFailed p).pending = s.pending := by simp [State.markFailed]

@[simp] theorem State.lineWritten_pending (leaf) : (s.lineWritten leaf).pending = s.pending := by
  unfold State.lineWritten
  split
  all_goals simp

@[simp] theorem State.leavesWritten_pending (p stitch member) : (s.leavesWritten p stitch member).pending = s.pending := by
  unfold State.leavesWritten
  extract_lets x refresh y s1 n
  split
  · rfl
  extract_lets s2 b t u s3 s4
  have h2 : s2.pending = s1.pending := by
    refine State.foldl_pending s1 (fun s e => ?_) _
    dsimp only
    split
    all_goals simp
  simp [s4, s3, h2, s1]

@[simp] theorem State.leavesFailed_pending (p stitch member) : (s.leavesFailed p stitch member).pending = s.pending := by
  unfold State.leavesFailed
  extract_lets x
  split
  · rfl
  · rename_i db _
    refine (State.foldl_pending ((s.closeMember stitch member).force db) (fun s o => ?_) _).trans (by simp)
    split
    all_goals simp

@[simp] theorem State.parityEnded_pending (stitch row second fail) : (s.parityEnded stitch row second fail).pending = s.pending := by
  simp [State.parityEnded]

@[simp] theorem State.segmentWritten_pending (g) : (s.segmentWritten g).pending = s.pending := by
  simp only [State.segmentWritten]
  repeat' split
  all_goals simp

@[simp] theorem State.segmentsEnded_pending (ids second) : (s.segmentsEnded ids second).pending = s.pending := by simp [State.segmentsEnded]
@[simp] theorem State.takeBlank_pending (db) : (s.takeBlank db).pending = s.pending := by simp [State.takeBlank]

@[simp] theorem State.mapPage_pending (d) : (s.mapPage d).1.pending = s.pending := by
  simp only [State.mapPage]
  repeat' split
  all_goals simp

@[simp] theorem State.writeImages_pending (is second notOctet) : (s.writeImages is second notOctet).1.pending = s.pending := by
  unfold State.writeImages
  split
  · rfl
  split
  all_goals rename_i h; simp [State.pending_of_eq h]

@[simp] theorem State.writeSegments_pending (gs) : (s.writeSegments gs).pending = s.pending := by
  unfold State.writeSegments
  extract_lets gs'
  split
  extract_lets s1 is rseq
  have h1 : s1.pending = s.pending := by simp [s1]
  split
  · exact h1
  split
  · rename_i h
    simp [State.pending_of_eq h, h1]
  rename_i s2 _ _ ha
  have h2 : s2.pending = s.pending := by simp [State.pending_of_eq ha, h1]
  split
  · rename_i h
    simp [State.pending_of_eq h, h2]
  rename_i s3 _ _ hb
  have h3 : s3.pending = s.pending := by simp [State.pending_of_eq hb, h2]
  refine (State.foldl_pending s3 (fun s e => ?_) _).trans h3
  dsimp only
  split
  all_goals simp

@[simp] theorem State.segmentsFailed_pending (ids second) : (s.segmentsFailed ids second).pending = s.pending := by
  unfold State.segmentsFailed
  extract_lets is other
  split
  · rename_i h
    simp [State.pending_of_eq h]
  · rename_i h
    refine (State.foldl_pending _ (fun s e => ?_) _).trans ?_
    · simp
    · simp [State.pending_of_eq h]

@[simp] theorem State.weltNext_pending (die) : (s.weltNext die).pending = s.pending := by
  simp only [State.weltNext]
  repeat' split
  all_goals simp

@[simp] theorem State.weltEnded_pending (die j fail) : (s.weltEnded die j fail).pending = s.pending := by
  simp only [State.weltEnded]
  repeat' split
  all_goals simp

@[simp] theorem State.spawnBrandRow_pending (die r) : (s.spawnBrandRow die r).pending = s.pending := by simp [State.spawnBrandRow]
@[simp] theorem State.writeBrand_pending (die) : (s.writeBrand die).pending = s.pending := by simp [State.writeBrand]

@[simp] theorem State.systemErased_pending (db failed) : (s.systemErased db failed).pending = s.pending := by
  simp only [State.systemErased]
  repeat' split
  all_goals simp

@[simp] theorem State.eraseEnded_pending (k t p fail db system) : (s.eraseEnded k t p fail db system).pending = s.pending := by
  simp [State.eraseEnded]

@[simp] theorem State.programEnded_pending (k t p fail) : (s.programEnded k t p fail).pending = s.pending := by
  simp only [State.programEnded]
  repeat' split
  all_goals simp

@[simp] theorem State.programOff_pending (k t p) : (s.programOff k t p).pending = s.pending := by
  unfold State.programOff
  split
  all_goals simp

@[simp] theorem State.programsOff_pending (die) : (s.programsOff die).pending = s.pending := by
  unfold State.programsOff
  extract_lets on waiting s1 s2
  have h2 : s2.pending = s.pending := by
    refine (State.foldl_pending s1 (fun s t => ?_) _).trans rfl
    split
    all_goals simp
  refine (State.foldl_pending s2 (fun s e => ?_) _).trans h2
  split
  all_goals simp

/-! ### Lost codewords and units that leave -/

@[simp] theorem State.lookFor_pending (a gs) : (s.lookFor a gs).1.pending = s.pending := by
  induction gs generalizing s with
  | nil => rfl
  | cons g gs ih =>
    unfold State.lookFor
    split
    · simp
    split
    · rfl
    · exact ih s

@[simp] theorem State.segNext_pending (k t r ok) : (s.segNext k t r ok).pending = s.pending := by
  simp only [State.segNext]
  repeat' split
  all_goals simp

@[simp] theorem State.burnishEnded_pending (a bad) : (s.burnishEnded a bad).pending = s.pending := by rfl
@[simp] theorem State.scrubEnded_pending (a) : (s.scrubEnded a).pending = s.pending := by simp [State.scrubEnded]

@[simp] theorem State.brandOn_pending (die) : (s.brandOn die).pending = s.pending := by
  unfold State.brandOn
  split
  · rfl
  refine State.foldl_pending s (fun s r => ?_) _
  dsimp only
  split
  all_goals rename_i h; simp [State.pending_of_eq h]

@[simp] theorem State.brandBegin_pending (die) : (s.brandBegin die).pending = s.pending := by simp [State.brandBegin]

@[simp] theorem State.reassessed_pending (die) : (s.reassessed die).pending = s.pending := by
  simp only [State.reassessed]
  repeat' split
  all_goals simp

@[simp] theorem State.brandRow_pending (a h) : (s.brandRow a h).pending = s.pending := by
  simp only [State.brandRow]
  repeat' split
  all_goals simp

@[simp] theorem State.memberLost_pending (t a) : (s.memberLost t a).pending = s.pending := by
  unfold State.memberLost
  split
  all_goals simp

@[simp] theorem State.countLost_pending (a) : (s.countLost a).pending = s.pending := by rfl
@[simp] theorem State.logLost_pending (k a leaf) : (s.logLost k a leaf).pending = s.pending := by simp [State.logLost]
@[simp] theorem State.holedOn_pending (die) : (s.holedOn die).pending = s.pending := by rfl
@[simp] theorem State.loseLeaf_pending (a leaf reason) : (s.loseLeaf a leaf reason).pending = s.pending := by simp [State.loseLeaf]

@[simp] theorem State.endSearch_pending (x leaf) : (s.endSearch x leaf).pending = s.pending := by
  simp only [State.endSearch]
  repeat' split
  all_goals simp

@[simp] theorem State.searchOn_pending : s.searchOn.pending = s.pending := by
  refine State.foldl_pending s (fun s x => ?_) _
  split
  all_goals rename_i h; simp [State.pending_of_eq h]

@[simp] theorem State.searchLost_pending (k a reason) : (s.searchLost k a reason).pending = s.pending := by simp [State.searchLost]

@[simp] theorem State.readLost_pending (k t a reason) : (s.readLost k t a reason).pending = s.pending := by
  simp only [State.readLost]
  repeat' split
  all_goals simp

@[simp] theorem State.closeOpen_pending (d) : (s.closeOpen d).pending = s.pending := by simp [State.closeOpen]
@[simp] theorem State.dieOff_pending (d) : (s.dieOff d).pending = s.pending := by simp [State.dieOff]
@[simp] theorem State.setLeaving_pending (us) : (s.setLeaving us).pending = s.pending := by rfl

@[simp] theorem State.sweepSegment_pending (u g) : (s.sweepSegment u g).pending = s.pending := by
  unfold State.sweepSegment
  split
  all_goals simp

@[simp] theorem State.sweepOn_pending (u gs) : (s.sweepOn u gs).1.pending = s.pending := by
  induction gs generalizing s with
  | nil => rfl
  | cons g gs ih =>
    simp only [State.sweepOn]
    split
    all_goals simp [ih]

@[simp] theorem State.retireUnitPbs_pending (u) : (s.retireUnitPbs u).pending = s.pending := by
  unfold State.retireUnitPbs
  extract_lets reason
  refine State.foldl_pending s (fun s d => ?_) _
  split
  · rfl
  · exact (State.setCtl_pending _ _ _).trans (State.foldl_pending s (fun s b => by simp) _)

@[simp] theorem State.endUnit_pending (u) : (s.endUnit u).pending = s.pending := by simp [State.endUnit]

@[simp] theorem State.endUnits_pending : s.endUnits.pending = s.pending := by
  refine State.foldl_pending s (fun s u => ?_) _
  split
  · rfl
  split
  all_goals rename_i h; simp [State.pending_of_eq h]

@[simp] theorem State.faultUnit_pending (level first n) : (s.faultUnit level first n).pending = s.pending := by simp [State.faultUnit]
@[simp] theorem State.checkAges_pending : s.checkAges.pending = s.pending := by simp [State.checkAges]

/-! ### Commands that a change of state ends -/

@[simp] theorem State.crossedCommands_pending : s.crossedCommands.pending = s.pending := State.pending_of_kept (kept_crossedCommands ..)
@[simp] theorem State.faultCommands_pending : s.faultCommands.pending = s.pending := State.pending_of_kept (kept_faultCommands ..)
@[simp] theorem State.cinchCommands_pending : s.cinchCommands.pending = s.pending := by rfl

end

end Sys2Proof.Machine
end

section
/-! SUPPORT. The queue of waiting commands, continued: the commands of the window, the channels, block life and translation. -/

namespace Sys2Proof.Machine

section
variable (s : State)

/-! ### Parameters -/

@[simp] theorem State.setParam_pending (id v) : (s.setParam id v).pending = s.pending := by
  unfold State.setParam
  split
  all_goals simp

/-! ### Events, the clocks of the store and interrupts -/

@[simp] theorem execEventGrant_keepsQueue : s.KeepsQueue (execEventGrant s) := by
  unfold execEventGrant
  split
  all_goals simp

@[simp] theorem execOpSecondsTick_keepsQueue : s.KeepsQueue (execOpSecondsTick s) := by simp [execOpSecondsTick]
@[simp] theorem execOpSecondsSave_keepsQueue : s.KeepsQueue (execOpSecondsSave s) := by simp [execOpSecondsSave]
@[simp] theorem execEvtOverflowSave_keepsQueue : s.KeepsQueue (execEvtOverflowSave s) := by simp [execEvtOverflowSave]

@[simp] theorem execEvtWinRead_keepsQueue (off) : s.KeepsQueue (execEvtWinRead off s) := by
  unfold execEvtWinRead
  split
  · split
    split
    all_goals simp
  · simp

@[simp] theorem State.claim_pending (t) : (s.claim t).1.pending = s.pending := by
  simp only [State.claim]
  repeat' split
  all_goals simp

@[simp] theorem execClaim_keepsQueue (t) : s.KeepsQueue (execClaim t s) := by simp [execClaim]

@[simp] theorem State.eoi_pending (t id) : (s.eoi t id).pending = s.pending := by
  simp only [State.eoi]
  repeat' split
  all_goals simp

@[simp] theorem execEoi_keepsQueue (t v) : s.KeepsQueue (execEoi t v s) := by simp [execEoi]
@[simp] theorem State.softSet_pending (id) : (s.softSet id).pending = s.pending := by simp [State.softSet]
@[simp] theorem execSoftSet_keepsQueue (v) : s.KeepsQueue (execSoftSet v s) := by simp [execSoftSet]

/-! ### The memory window and CXL.mem -/

@[simp] theorem State.meetDirError_pending (r) : (s.meetDirError r).pending = s.pending := by
  simp only [State.meetDirError]
  repeat' split
  all_goals simp

@[simp] theorem State.enqueue_pending (r) : (s.enqueue r).pending = s.pending := by simp [State.enqueue]

@[simp] theorem State.takeRead_pending (r) : (s.takeRead r).pending = s.pending := by
  simp only [State.takeRead]
  repeat' split
  all_goals simp

@[simp] theorem State.takeWrite_pending (r) : (s.takeWrite r).pending = s.pending := by
  simp only [State.takeWrite]
  repeat' split
  all_goals simp

@[simp] theorem execMemoryWindowRead_keepsQueue (addr len tag ev) : s.KeepsQueue (execMemoryWindowRead addr len tag ev s) := by
  simp [execMemoryWindowRead]
@[simp] theorem execMemoryWindowWrite_keepsQueue (addr data ep ev) : s.KeepsQueue (execMemoryWindowWrite addr data ep ev s) := by
  simp [execMemoryWindowWrite]
@[simp] theorem execZeroLengthRead_keepsQueue (addr tag) : s.KeepsQueue (execZeroLengthRead addr tag s) := by simp [execZeroLengthRead]
@[simp] theorem execBar0BadAccess_keepsQueue (write tag) : s.KeepsQueue (execBar0BadAccess write tag s) := by simp [execBar0BadAccess]

@[simp] theorem execCxlMemRd_keepsQueue (hpa tag ev) : s.KeepsQueue (execCxlMemRd hpa tag ev s) := by
  simp only [execCxlMemRd]
  repeat' split
  all_goals simp

@[simp] theorem execCxlMemWr_keepsQueue (hpa data poison ev) : s.KeepsQueue (execCxlMemWr hpa data poison ev s) := by
  simp only [execCxlMemWr]
  repeat' split
  all_goals simp

@[simp] theorem execCxlMemSpecRd_keepsQueue (hpa taken) : s.KeepsQueue (execCxlMemSpecRd hpa taken s) := by
  refine (s.keepsQueue_done s _).mpr ?_
  split
  · split
    · dsimp only
      split
      all_goals rename_i h; simp [State.pending_of_eq h]
    · rfl
  · rfl

@[simp] theorem State.drain_pending (k) : (s.drain k).pending = s.pending := State.pending_of_still (still_drain ..)
@[simp] theorem State.watchUnborn_pending (r) : (s.watchUnborn r).pending = s.pending := by simp [State.watchUnborn]

@[simp] theorem execReadWatchdog_keepsQueue (slot) : s.KeepsQueue (execReadWatchdog slot s) := by
  unfold execReadWatchdog
  split
  · split
    all_goals simp
  · split
    · simp
    · split
      · rename_i r _ _
        extract_lets s1 s2
        have h1 : s1.pending = s.pending := by
          refine State.foldl_pending s (fun s e => ?_) _
          split
          all_goals simp
        simp [s2, h1]
      · simp

@[simp] theorem execTackLate_keepsQueue (slot) : s.KeepsQueue (execTackLate slot s) := by
  simp only [execTackLate]
  repeat' split
  all_goals simp

@[simp] theorem execEcrcError_keepsQueue : s.KeepsQueue (execEcrcError s) := by simp [execEcrcError]
@[simp] theorem execMalformedTlp_keepsQueue : s.KeepsQueue (execMalformedTlp s) := by simp [execMalformedTlp]
@[simp] theorem execUnsupportedFeatureRequest_keepsQueue (tag) : s.KeepsQueue (execUnsupportedFeatureRequest tag s) := by
  simp [execUnsupportedFeatureRequest]
@[simp] theorem execCxlGpf_keepsQueue : s.KeepsQueue (execCxlGpf s) := by simp [execCxlGpf]
@[simp] theorem execGpfLate_keepsQueue (ms) : s.KeepsQueue (execGpfLate ms s) := by simp [execGpfLate]
@[simp] theorem State.commitHdm_pending (i dpaBase size ways gran) : (s.commitHdm i dpaBase size ways gran).pending = s.pending := by
  simp [State.commitHdm]

@[simp] theorem execHdmDecoderCommit_keepsQueue (i dpaBase size ways gran) :
    s.KeepsQueue (execHdmDecoderCommit i dpaBase size ways gran s) := by
  simp [execHdmDecoderCommit]

/-! ### The channel sequencer -/

@[simp] theorem State.wantRetrain_pending (ch) : (s.wantRetrain ch).pending = s.pending := by simp [State.wantRetrain]
@[simp] theorem State.phaseEnds_pending (ch) : (s.phaseEnds ch).pending = s.pending := by simp [State.phaseEnds]
@[simp] theorem State.busError_pending (ch wr) : (s.busError ch wr).pending = s.pending := by simp [State.busError]
@[simp] theorem State.owe_pending (ch i) : (s.owe ch i).pending = s.pending := by simp [State.owe]

@[simp] theorem State.tryStart_pending (k p) : (s.tryStart k p).pending = s.pending := by
  unfold State.tryStart
  split
  all_goals simp

@[simp] theorem State.kick_pending (die) : (s.kick die).pending = s.pending := by
  simp only [State.kick]
  repeat' split
  all_goals simp

@[simp] theorem State.kickChannel_pending (ch) : (s.kickChannel ch).pending = s.pending := by simp [State.kickChannel]
@[simp] theorem State.startLate_pending (die) : (s.startLate die).pending = s.pending := by simp [State.startLate]

@[simp] theorem State.issueSense_pending (die guardOver) : (s.issueSense die guardOver).pending = s.pending := by
  simp only [State.issueSense]
  repeat' split
  all_goals simp

@[simp] theorem State.askMembers_pending (k) : (s.askMembers k).pending = s.pending := by
  unfold State.askMembers
  split
  · rfl
  split
  · rfl
  refine State.foldl_pending s (fun s m => ?_) _
  split
  · rfl
  dsimp only
  split
  all_goals rename_i h; simp [State.pending_of_eq h]

@[simp] theorem State.toStitch_pending (k t r reason) : (s.toStitch k t r reason).pending = s.pending := by
  unfold State.toStitch
  split
  all_goals simp

@[simp] theorem State.stepFailed_pending (k t r) : (s.stepFailed k t r).pending = s.pending := by simp [State.stepFailed]
@[simp] theorem State.divert_pending (die) : (s.divert die).pending = s.pending := by simp [State.divert]

@[simp] theorem State.offerCopy_pending (k t r c) : (s.offerCopy k t r c).pending = s.pending := by
  unfold State.offerCopy
  split
  all_goals simp

@[simp] theorem State.dirtyLine_pending (leaf) : (s.dirtyLine leaf).pending = s.pending := by
  unfold State.dirtyLine
  split
  all_goals simp

@[simp] theorem State.readDone_pending (k t r c) : (s.readDone k t r c).pending = s.pending := by
  simp only [State.readDone]
  repeat' split
  all_goals simp

@[simp] theorem State.stepPassed_pending (k t r c corrected learn) : (s.stepPassed k t r c corrected learn).pending = s.pending := by
  unfold State.stepPassed
  extract_lets die q limit s1 s2 s3 sample put s4 s5 s6
  have h4 : s4.pending = s3.pending := by
    simp only [s4]
    repeat' split
    all_goals rfl
  simp [s6, s5, h4, s3, s2, s1]

@[simp] theorem State.admitDecodes_pending (fuel) : (s.admitDecodes fuel).pending = s.pending := by
  induction fuel generalizing s with
  | zero => rfl
  | succ n ih =>
    simp only [State.admitDecodes]
    split
    · exact ih _
    · rfl

@[simp] theorem State.toDecoder_pending (k) : (s.toDecoder k).pending = s.pending := by simp [State.toDecoder]

@[simp] theorem execDecodeDone_keepsQueue (slot out) : s.KeepsQueue (execDecodeDone slot out s) := by
  simp only [execDecodeDone]
  repeat' split
  all_goals simp

@[simp] theorem execStitchRebuild_keepsQueue (slot k) : s.KeepsQueue (execStitchRebuild slot k s) := by
  simp only [execStitchRebuild]
  repeat' split
  all_goals simp

@[simp] theorem State.histDone_pending (k t r h) : (s.histDone k t r h).pending = s.pending := by
  simp only [State.histDone]
  repeat' split
  all_goals simp

@[simp] theorem execXferComplete_keepsQueue (ch crcOk hist) : s.KeepsQueue (execXferComplete ch crcOk hist s) := by
  unfold execXferComplete
  split
  all_goals simp

@[simp] theorem execLoadComplete_keepsQueue (ch crcOk) : s.KeepsQueue (execLoadComplete ch crcOk s) := by
  simp only [execLoadComplete]
  repeat' split
  all_goals simp

@[simp] theorem execSenseIssue_keepsQueue (ch d guardOver) : s.KeepsQueue (execSenseIssue ch d guardOver s) := by simp [execSenseIssue]

@[simp] theorem State.reinit_pending (k) : (s.reinit k).pending = s.pending := by
  simp only [State.reinit]
  repeat' split
  all_goals simp

@[simp] theorem State.loseDie_pending (k) : (s.loseDie k).pending = s.pending := by simp [State.loseDie]
@[simp] theorem State.configDie_pending (k fast) : (s.configDie k fast).pending = s.pending := by rfl
@[simp] theorem State.reinitDone_pending (k refs) : (s.reinitDone k refs).pending = s.pending := by simp [State.reinitDone]
@[simp] theorem execDieTimeout_keepsQueue (ch d k) : s.KeepsQueue (execDieTimeout ch d k s) := by simp [execDieTimeout]
@[simp] theorem execAlertAsserted_keepsQueue (ch reports internal) : s.KeepsQueue (execAlertAsserted ch reports internal s) := by
  simp [execAlertAsserted]
@[simp] theorem execAlertStuck_keepsQueue (ch) : s.KeepsQueue (execAlertStuck ch s) := by simp [execAlertStuck]
@[simp] theorem execAlertStuckEnd_keepsQueue (ch) : s.KeepsQueue (execAlertStuckEnd ch s) := by simp [execAlertStuckEnd]
@[simp] theorem State.alertEnds_pending (ch) : (s.alertEnds ch).pending = s.pending := by simp [State.alertEnds]
@[simp] theorem State.judgeHot_pending (k) : (s.judgeHot k).pending = s.pending := by rfl
@[simp] theorem State.markWaited_pending (die) : (s.markWaited die).pending = s.pending := by simp [State.markWaited]
@[simp] theorem State.dieAlert_pending (ch d x) : (s.dieAlert ch d x).pending = s.pending := by simp [State.dieAlert]

@[simp] theorem State.statusClear_pending (ch d) : (s.statusClear ch d).pending = s.pending := by
  simp only [State.statusClear]
  repeat' split
  all_goals simp

@[simp] theorem State.rvalidDie_pending (k) : (s.rvalidDie k).pending = s.pending := by simp [State.rvalidDie]
@[simp] theorem State.rvalidScan_pending (ch) : (s.rvalidScan ch).pending = s.pending := by simp [State.rvalidScan]
@[simp] theorem State.ardyDie_pending (ch i) : (s.ardyDie ch i).pending = s.pending := by simp [State.ardyDie]
@[simp] theorem State.ardyScan_pending (ch) : (s.ardyScan ch).pending = s.pending := by simp [State.ardyScan]
@[simp] theorem State.pollDie_pending (ch i) : (s.pollDie ch i).pending = s.pending := by simp [State.pollDie]
@[simp] theorem State.takeTemp_pending (ch d temp) : (s.takeTemp ch d temp).pending = s.pending := by simp [State.takeTemp]

@[simp] theorem execHousekeepingWindow_keepsQueue (ch temp) : s.KeepsQueue (execHousekeepingWindow ch temp s) := by
  simp only [execHousekeepingWindow]
  repeat' split
  all_goals simp

@[simp] theorem State.writeMediaCtrl_pending (v) : (s.writeMediaCtrl v).pending = s.pending := by simp [State.writeMediaCtrl]
@[simp] theorem execRetrainAll_keepsQueue (v) : s.KeepsQueue (execRetrainAll v s) := by simp [execRetrainAll]
@[simp] theorem State.writeChCtrl_pending (ch v) : (s.writeChCtrl ch v).pending = s.pending := by simp [State.writeChCtrl]
@[simp] theorem execRetrain_keepsQueue (ch v) : s.KeepsQueue (execRetrain ch v s) := by simp [execRetrain]
@[simp] theorem State.trained_pending (ch trim deskew) : (s.trained ch trim deskew).pending = s.pending := by simp [State.trained]

@[simp] theorem State.startTemps_pending (ch temps) : (s.startTemps ch temps).pending = s.pending := by
  refine State.foldl_pending s (fun s x => ?_) _
  split
  all_goals simp

@[simp] theorem State.dropPhase_pending (ch) : (s.dropPhase ch).pending = s.pending := by rfl
@[simp] theorem State.failChannel_pending (ch) : (s.failChannel ch).pending = s.pending := by simp [State.failChannel]
@[simp] theorem execRetrainDone_keepsQueue (ch ok trim deskew ck temps) : s.KeepsQueue (execRetrainDone ch ok trim deskew ck temps s) := by
  simp [execRetrainDone]

/-! ### Block life -/

@[simp] theorem State.openPosition_pending (slot copy j die) : (s.openPosition slot copy j die).pending = s.pending := by
  unfold State.openPosition
  split
  all_goals simp

@[simp] theorem execStitchForm_keepsQueue (copy) : s.KeepsQueue (execStitchForm copy s) := by
  unfold execStitchForm
  split
  all_goals simp

@[simp] theorem State.takeLeaves_pending (slot m) : (s.takeLeaves slot m).pending = s.pending := by
  unfold State.takeLeaves
  extract_lets x b all os offers cws what s' refresh
  have hs : s'.pending = s.pending := s.setBlocks_pending _
  split
  · rfl
  extract_lets p pg media t
  split
  · simp [hs]
  split
  · rename_i h
    simp [State.pending_of_eq h, hs]
  · rfl

@[simp] theorem execMemberProgram_keepsQueue (stitch member) : s.KeepsQueue (execMemberProgram stitch member s) := by
  simp [execMemberProgram]
@[simp] theorem execPadTimeout_keepsQueue (stitch member) : s.KeepsQueue (execPadTimeout stitch member s) := by simp [execPadTimeout]

@[simp] theorem State.programParity_pending (slot x row q) : (s.programParity slot x row q).pending = s.pending := by
  unfold State.programParity
  split
  all_goals simp

@[simp] theorem execParityRowProgram_keepsQueue (stitch) : s.KeepsQueue (execParityRowProgram stitch s) := by
  simp only [execParityRowProgram]
  repeat' split
  all_goals simp

@[simp] theorem State.burnishOn_pending (key) : (s.burnishOn key).pending = s.pending := by
  unfold State.burnishOn
  split
  all_goals simp

@[simp] theorem execBurnishMember_keepsQueue (stitch member) : s.KeepsQueue (execBurnishMember stitch member s) := by
  simp only [execBurnishMember]
  repeat' split
  all_goals simp

@[simp] theorem execBurnishResult_keepsQueue (stitch member k0 k1) : s.KeepsQueue (execBurnishResult stitch member k0 k1 s) := by
  simp only [execBurnishResult]
  split
  · simp
  · simp

@[simp] theorem State.pumpJob_pending (j fuel) : (s.pumpJob j fuel).1.pending = s.pending := by
  induction fuel generalizing s j with
  | zero => rfl
  | succ n ih =>
    unfold State.pumpJob
    split
    · rfl
    split
    · rfl
    split
    · rename_i h
      simp [ih, State.pending_of_eq h]
    · rfl

@[simp] theorem State.pumpImages_pending (j) : (s.pumpImages j).pending = s.pending := by
  refine State.foldl_pending s (fun s g => ?_) _
  split
  · rfl
  split
  all_goals simp

@[simp] theorem State.pumpJobs_pending : s.pumpJobs.pending = s.pending := by simp [State.pumpJobs]
@[simp] theorem State.recount_pending (db) : (s.recount db).pending = s.pending := by rfl

@[simp] theorem State.closeFill_pending (db) : (s.closeFill db).pending = s.pending := by
  unfold State.closeFill
  split
  all_goals simp

@[simp] theorem State.startJob_pending (db refresh) : (s.startJob db refresh).pending = s.pending := by simp [State.startJob]

@[simp] theorem execSkiverVictimSelect_keepsQueue : s.KeepsQueue (execSkiverVictimSelect s) := by
  simp only [execSkiverVictimSelect]
  repeat' split
  all_goals simp

@[simp] theorem execSkiverCopyProgram_keepsQueue : s.KeepsQueue (execSkiverCopyProgram s) := by
  simp only [execSkiverCopyProgram]
  repeat' split
  all_goals simp

@[simp] theorem State.leaveOffline_pending (db) : (s.leaveOffline db).pending = s.pending := by simp [State.leaveOffline]

@[simp] theorem State.passEmptied_pending (db) : (s.passEmptied db).pending = s.pending := by
  unfold State.passEmptied
  split
  all_goals simp

@[simp] theorem execVictimErase_keepsQueue : s.KeepsQueue (execVictimErase s) := by
  simp only [execVictimErase]
  repeat' split
  all_goals simp

@[simp] theorem execRefreshJob_keepsQueue : s.KeepsQueue (execRefreshJob s) := by
  simp only [execRefreshJob]
  repeat' split
  all_goals simp

@[simp] theorem State.scrubOn_pending (db) : (s.scrubOn db).pending = s.pending := by
  unfold State.scrubOn
  split
  all_goals simp

@[simp] theorem execScrubPatrol_keepsQueue (dieBlock k0 k1) : s.KeepsQueue (execScrubPatrol dieBlock k0 k1 s) := by
  unfold execScrubPatrol
  extract_lets db b pages run s1
  have h1 : s1.pending = s.pending := by
    simp only [s1]
    split
    · rfl
    · simp
  split
  · simp [h1]
  · simp

@[simp] theorem execSystemCopyRefresh_keepsQueue : s.KeepsQueue (execSystemCopyRefresh s) := by
  simp only [execSystemCopyRefresh]
  repeat' split
  all_goals simp

@[simp] theorem State.wearSnapshot_pending : s.wearSnapshot.pending = s.pending := by simp [State.wearSnapshot]
@[simp] theorem execWearSnapshot_keepsQueue : s.KeepsQueue (execWearSnapshot s) := by simp [execWearSnapshot]

/-! ### Segments, the map updater and welts -/

@[simp] theorem State.loseSegment_pending (g) : (s.loseSegment g).pending = s.pending := by
  unfold State.loseSegment
  refine (State.event_pending _ _ _ _ _ _).trans ((State.enterHoles_pending _ _).trans ?_)
  split
  · exact (State.setXlat_pending _ _).trans (State.leafState_pending _ _ _ _ _ _)
  · exact State.leafState_pending _ _ _ _ _ _

@[simp] theorem execSegReadDone_keepsQueue (seg k0 k1) : s.KeepsQueue (execSegReadDone seg k0 k1 s) := by
  unfold execSegReadDone
  extract_lets g slot
  clear_value slot
  split
  · simp
  split
  · simp
  extract_lets s1 x s2
  have h1 : s1.pending = s.pending := by simp [s1]
  have h2 : s2.pending = s.pending := by
    simp only [s2]
    split
    · simp [h1]
    · exact h1
  split
  · simp [h2]
  · simp [h2]

@[simp] theorem execSegWrite_keepsQueue (seg) : s.KeepsQueue (execSegWrite seg s) := by simp [execSegWrite]
@[simp] theorem State.jobSwitched_pending (a rseq) : (s.jobSwitched a rseq).pending = s.pending := by rfl

@[simp] theorem execLeafMapAppend_keepsQueue : s.KeepsQueue (execLeafMapAppend s) := by
  simp only [execLeafMapAppend]
  repeat' split
  all_goals simp

@[simp] theorem execJrnWindowExpiry_keepsQueue : s.KeepsQueue (execJrnWindowExpiry s) := by simp [execJrnWindowExpiry]
@[simp] theorem execJournalRingErase_keepsQueue (stream block) : s.KeepsQueue (execJournalRingErase stream block s) := by
  simp [execJournalRingErase]
@[simp] theorem State.markWelt_pending (clean) : (s.markWelt clean).pending = s.pending := by simp [State.markWelt]
@[simp] theorem State.resumeWelt_pending (erasing streams) : (s.resumeWelt erasing streams).pending = s.pending := by
  simp [State.resumeWelt]

@[simp] theorem State.startWelt_pending (clean) : (s.startWelt clean).pending = s.pending := by
  unfold State.startWelt
  split
  all_goals simp

@[simp] theorem execWeltStart_keepsQueue : s.KeepsQueue (execWeltStart s) := by
  simp only [execWeltStart]
  repeat' split
  all_goals simp

@[simp] theorem execWeltPeriodExpiry_keepsQueue : s.KeepsQueue (execWeltPeriodExpiry s) := by simp [execWeltPeriodExpiry]
@[simp] theorem State.endWelt_pending (w) : (s.endWelt w).pending = s.pending := by simp [State.endWelt]

@[simp] theorem execWeltDone_keepsQueue : s.KeepsQueue (execWeltDone s) := by
  unfold execWeltDone
  split
  all_goals simp

@[simp] theorem State.writeXlatCtrl_pending (v) : (s.writeXlatCtrl v).pending = s.pending := by simp [State.writeXlatCtrl]
@[simp] theorem execWeltNow_keepsQueue (v) : s.KeepsQueue (execWeltNow v s) := by simp [execWeltNow]

@[simp] theorem State.remapLine_pending (line) : (s.remapLine line).pending = s.pending := by
  simp only [State.remapLine]
  repeat' split
  all_goals simp

@[simp] theorem execDirLineRebuild_keepsQueue (line out) : s.KeepsQueue (execDirLineRebuild line out s) := by simp [execDirLineRebuild]

@[simp] theorem execDirPatrol_keepsQueue (line found) : s.KeepsQueue (execDirPatrol line found s) := by
  unfold execDirPatrol
  split
  all_goals simp

@[simp] theorem State.peekEntry_pending (index crcOk) : (s.peekEntry index crcOk).pending = s.pending := by simp [State.peekEntry]
@[simp] theorem execDirPeek_keepsQueue (index crcOk) : s.KeepsQueue (execDirPeek index crcOk s) := by simp [execDirPeek]

end

end Sys2Proof.Machine
end

section
/-! SUPPORT. The queue of waiting commands, continued: power, command packets, firmware slots and boards. -/

namespace Sys2Proof.Machine

section
variable (s : State)

/-! ### The power steward -/

@[simp] theorem State.enableRail_pending (slot on) : (s.enableRail slot on).pending = s.pending := by rfl
@[simp] theorem State.railFailed_pending (slot) : (s.railFailed slot).pending = s.pending := by simp [State.railFailed]

@[simp] theorem State.startChannel_pending (ch) : (s.startChannel ch).pending = s.pending := by
  unfold State.startChannel
  split
  · rfl
  · exact (State.setChan_pending _ _ _).trans (State.foldl_pending s (fun s k => by simp) _)

@[simp] theorem State.startOctet_pending (k) : (s.startOctet k).pending = s.pending := by simp [State.startOctet]
@[simp] theorem State.darkOctet_pending (k) : (s.darkOctet k).pending = s.pending := by simp [State.darkOctet]
@[simp] theorem State.resumePrograms_pending : s.resumePrograms.pending = s.pending := by rfl
@[simp] theorem State.octetFails_pending (k) : (s.octetFails k).pending = s.pending := by simp [State.octetFails]
@[simp] theorem State.drive_pending (name level) : (s.drive name level).pending = s.pending := by rfl

@[simp] theorem State.powerDown_pending : s.powerDown.pending = s.pending := by
  simp only [State.powerDown]
  repeat' split
  all_goals simp

@[simp] theorem State.enterFault_pending (cause) : (s.enterFault cause).pending = s.pending := by
  simp only [State.enterFault]
  repeat' split
  all_goals simp

@[simp] theorem State.waitFault_pending (cause) : (s.waitFault cause).pending = s.pending := by simp [State.waitFault]

@[simp] theorem State.afterProgram_pending : s.afterProgram.pending = s.pending := by
  unfold State.afterProgram
  split
  all_goals simp

@[simp] theorem State.settleProvisional_pending : s.settleProvisional.pending = s.pending :=
  State.pending_of_kept (kept_settleProvisional ..)
@[simp] theorem State.enterCinch_pending (why fault) : (s.enterCinch why fault).pending = s.pending := by simp [State.enterCinch]

@[simp] theorem State.endCinch_pending (cause) : (s.endCinch cause).pending = s.pending := by
  simp only [State.endCinch]
  repeat' split
  all_goals simp

@[simp] theorem State.softFault_pending (cause) : (s.softFault cause).pending = s.pending := by
  unfold State.softFault
  split
  all_goals simp

@[simp] theorem State.offRequest_pending : s.offRequest.pending = s.pending := by
  unfold State.offRequest
  split
  all_goals simp

@[simp] theorem State.railsDone_pending : s.railsDone.pending = s.pending := by simp [State.railsDone]

@[simp] theorem State.nextOctet_pending (k) : (s.nextOctet k).pending = s.pending := by
  unfold State.nextOctet
  split
  all_goals simp

@[simp] theorem State.setEnergy_pending (e) : (s.setEnergy e).pending = s.pending := by simp [State.setEnergy]
@[simp] theorem State.startCharging_pending : s.startCharging.pending = s.pending := by simp [State.startCharging]
@[simp] theorem State.mediaRails_pending : s.mediaRails.pending = s.pending := by simp [State.mediaRails]
@[simp] theorem State.loadBd_pending (b) : (s.loadBd b).pending = s.pending := by simp [State.loadBd]

@[simp] theorem State.verdict_pending : s.verdict.pending = s.pending := by
  simp only [State.verdict]
  repeat' split
  all_goals simp

@[simp] theorem State.stepUp_pending (ok) : (s.stepUp ok).pending = s.pending := by
  simp only [State.stepUp]
  repeat' split
  all_goals simp

@[simp] theorem State.standby_pending : s.standby.pending = s.pending := by simp [State.standby]

@[simp] theorem State.lowerNext_pending : s.lowerNext.pending = s.pending := by
  unfold State.lowerNext
  split
  all_goals simp

@[simp] theorem State.dropRails_pending : s.dropRails.pending = s.pending := by simp [State.dropRails]

/-! ### Power and its faults -/

@[simp] theorem execOnRequest_keepsQueue (darkSeconds) : s.KeepsQueue (execOnRequest darkSeconds s) := by simp [execOnRequest]
@[simp] theorem execShelfEnLow_keepsQueue : s.KeepsQueue (execShelfEnLow s) := by simp [execShelfEnLow]
@[simp] theorem State.offReq_pending : s.offReq.pending = s.pending := by simp [State.offReq]
@[simp] theorem execOffReq_keepsQueue : s.KeepsQueue (execOffReq s) := by simp [execOffReq]
@[simp] theorem State.endMeasCommands_pending : s.endMeasCommands.pending = s.pending := by simp [State.endMeasCommands]
@[simp] theorem State.saveBank_pending : s.saveBank.pending = s.pending := by simp [State.saveBank]
@[simp] theorem State.measured_pending (m dt va) : (s.measured m dt va).pending = s.pending := by simp [State.measured]
@[simp] theorem State.measFailed_pending (m) : (s.measFailed m).pending = s.pending := by simp [State.measFailed]
@[simp] theorem State.startMeasure_pending : s.startMeasure.pending = s.pending := by simp [State.startMeasure]

@[simp] theorem State.measConv_pending (prev mv) : (s.measConv prev mv).pending = s.pending := by
  simp only [State.measConv]
  repeat' split
  all_goals simp

@[simp] theorem State.chargeConv_pending (mv) : (s.chargeConv mv).pending = s.pending := by simp [State.chargeConv]
@[simp] theorem State.holdConv_pending (mv) : (s.holdConv mv).pending = s.pending := by simp [State.holdConv]
@[simp] theorem State.restoreDie_pending (d) : (s.restoreDie d).pending = s.pending := by simp [State.restoreDie]

/-- The state once `State.restoreUnit` has brought back one die of its unit (R229). -/
def State.renewed (d : Nat) : State :=
  (((s.setCtl d { DieCtl.init with present := true, online := true, seen := 2 }).setDie d { Die.init with st := .idle }).configDie
    d true).restoreDie d

theorem State.renewed_pending (d) : (s.renewed d).pending = s.pending := by simp [State.renewed]

@[simp] theorem State.restoreUnit_pending (level first n) : (s.restoreUnit level first n).pending = s.pending := by
  unfold State.restoreUnit
  extract_lets on ours _ s1 ds _ _ s2 s3 s4 chs _ s5 _ s6
  have hs : s2 = ds.foldl State.renewed s1 := rfl
  have h2 : s2.pending = s1.pending := hs ▸ State.foldl_pending s1 State.renewed_pending ds
  have h5 : s5.pending = s4.pending := by
    refine State.foldl_pending s4 (fun s c => ?_) chs
    split
    · rfl
    · rfl
  simp [s6, h5, s4, s3, h2, s1]

@[simp] theorem State.railsRestored_pending (k ok) : (s.railsRestored k ok).pending = s.pending := by simp [State.railsRestored]

@[simp] theorem State.pfw_pending : s.pfw.pending = s.pending := by
  simp only [State.pfw]
  repeat' split
  all_goals simp

@[simp] theorem State.railFault_pending (slot mv) : (s.railFault slot mv).pending = s.pending := by simp [State.railFault]
@[simp] theorem State.watch_pending (slot mv ok) : (s.watch slot mv ok).pending = s.pending := by simp [State.watch]

@[simp] theorem State.railUp_pending : s.railUp.pending = s.pending := by
  unfold State.railUp
  split
  all_goals simp

@[simp] theorem State.railConv_pending (slot mv) : (s.railConv slot mv).pending = s.pending := by simp [State.railConv]
@[simp] theorem execAdcConversion_keepsQueue (mv) : s.KeepsQueue (execAdcConversion mv s) := by simp [execAdcConversion]

@[simp] theorem execRailTimeout_keepsQueue : s.KeepsQueue (execRailTimeout s) := by
  unfold execRailTimeout
  split
  all_goals simp

@[simp] theorem execPowerDown_keepsQueue : s.KeepsQueue (execPowerDown s) := by
  unfold execPowerDown
  split
  all_goals simp

@[simp] theorem State.dieAnswers_pending (k) : (s.dieAnswers k).pending = s.pending := by simp [State.dieAnswers]
@[simp] theorem State.channelAnswers_pending (ch) : (s.channelAnswers ch).pending = s.pending := by simp [State.channelAnswers]

@[simp] theorem execDiePor_keepsQueue (ch d) : s.KeepsQueue (execDiePor ch d s) := by
  simp only [execDiePor]
  repeat' split
  all_goals simp

@[simp] theorem execDieResetEnd_keepsQueue (ch d) : s.KeepsQueue (execDieResetEnd ch d s) := by
  simp only [execDieResetEnd]
  repeat' split
  all_goals simp

@[simp] theorem execDieProgramEnd_keepsQueue (ch d fail) : s.KeepsQueue (execDieProgramEnd ch d fail s) := by simp [execDieProgramEnd]

@[simp] theorem execChannelStartTimeout_keepsQueue (ch) : s.KeepsQueue (execChannelStartTimeout ch s) := by
  unfold execChannelStartTimeout
  split
  all_goals simp

@[simp] theorem execMeasurementTimeout_keepsQueue : s.KeepsQueue (execMeasurementTimeout s) := by
  unfold execMeasurementTimeout
  split
  all_goals simp

@[simp] theorem execMeasurementPeriod_keepsQueue : s.KeepsQueue (execMeasurementPeriod s) := by simp [execMeasurementPeriod]
@[simp] theorem execMeasure_keepsQueue : s.KeepsQueue (execMeasure s) := by simp [execMeasure]

@[simp] theorem execMeasurementDrainDone_keepsQueue : s.KeepsQueue (execMeasurementDrainDone s) := by
  unfold execMeasurementDrainDone
  split
  all_goals simp

@[simp] theorem execDrainTimeout_keepsQueue : s.KeepsQueue (execDrainTimeout s) := by
  unfold execDrainTimeout
  split
  all_goals simp

@[simp] theorem execEnergyEstimate_keepsQueue : s.KeepsQueue (execEnergyEstimate s) := by
  unfold execEnergyEstimate
  split
  all_goals simp

@[simp] theorem execPfw_keepsQueue : s.KeepsQueue (execPfw s) := by simp [execPfw]
@[simp] theorem execPfwRearm_keepsQueue : s.KeepsQueue (execPfwRearm s) := by simp [execPfwRearm]
@[simp] theorem execAonSwitch_keepsQueue (mv) : s.KeepsQueue (execAonSwitch mv s) := by simp [execAonSwitch]
@[simp] theorem execAonReturn_keepsQueue : s.KeepsQueue (execAonReturn s) := by simp [execAonReturn]
@[simp] theorem execAonReset_keepsQueue (cut evt) : s.KeepsQueue (execAonReset cut evt s) := by simp [execAonReset]

@[simp] theorem execAonBoot_keepsQueue : s.KeepsQueue (execAonBoot s) := by
  simp only [execAonBoot]
  repeat' split
  all_goals simp

@[simp] theorem execPllLost_keepsQueue : s.KeepsQueue (execPllLost s) := by simp [execPllLost]
@[simp] theorem execPllHoldoverExpiry_keepsQueue : s.KeepsQueue (execPllHoldoverExpiry s) := by simp [execPllHoldoverExpiry]
@[simp] theorem State.setCinchStep_pending (c) : (s.setCinchStep c).pending = s.pending := by rfl
@[simp] theorem execCinchAcceptEnd_keepsQueue : s.KeepsQueue (execCinchAcceptEnd s) := by simp [execCinchAcceptEnd]
@[simp] theorem execCinchWritebackComplete_keepsQueue : s.KeepsQueue (execCinchWritebackComplete s) := by simp [execCinchWritebackComplete]
@[simp] theorem execCinchParityComplete_keepsQueue : s.KeepsQueue (execCinchParityComplete s) := by simp [execCinchParityComplete]
@[simp] theorem execCinchJournalComplete_keepsQueue : s.KeepsQueue (execCinchJournalComplete s) := by simp [execCinchJournalComplete]
@[simp] theorem execCinchDeltaCommitted_keepsQueue : s.KeepsQueue (execCinchDeltaCommitted s) := by simp [execCinchDeltaCommitted]
@[simp] theorem execCinchBudgetExpiry_keepsQueue : s.KeepsQueue (execCinchBudgetExpiry s) := by simp [execCinchBudgetExpiry]
@[simp] theorem execCritLockoutEnd_keepsQueue : s.KeepsQueue (execCritLockoutEnd s) := by simp [execCritLockoutEnd]

/-! ### Command packets -/

theorem State.pending_of_arrive {port : Port} {p : Packet} {t : State} {c : Cmd} (h : s.arrive port p = some (t, c)) :
    t.pending = s.pending := by
  have ha : ∀ x ∈ s.arrive port p, x.1.pending = s.pending := by
    unfold State.arrive
    repeat' split
    all_goals simp [State.enterCmd, State.fetchEntry]
  exact ha _ h

@[simp] theorem State.enterCmd_pending (port p) : (s.enterCmd port p).1.pending = s.pending := by rfl
@[simp] theorem State.fetchEntry_pending (q p) : (s.fetchEntry q p).1.pending = s.pending := by rfl

@[simp] theorem State.run_pending (code port p) {act : State → Cmd → State} (h : ∀ s c, (act s c).pending = s.pending) :
    (s.run code port p act).pending = s.pending := by
  unfold State.run
  split
  · rfl
  split
  · rfl
  rename_i ha
  have hp := s.pending_of_arrive ha
  split
  · exact hp
  split
  · simp [hp]
  · simp [h, hp]

@[simp] theorem State.ok_pending (c) : (s.ok c).pending = s.pending := by simp [State.ok]
@[simp] theorem State.fail_pending (c code) : (s.fail c code).pending = s.pending := by simp [State.fail]
@[simp] theorem State.answer_pending (c bs) : (s.answer c bs).pending = s.pending := by simp [State.answer]
@[simp] theorem State.await_pending (c st) : (s.await c st).pending = s.pending := by rfl

/-! ### Health and reports -/

@[simp] theorem State.formRecord_pending (level first path h) : (s.formRecord level first path h).1.pending = s.pending := by rfl

/-! ### Firmware slots -/

@[simp] theorem State.acceptHeader_pending : s.acceptHeader.pending = s.pending := by
  unfold State.acceptHeader
  extract_lets slot p s1 _ s2
  have h2 : s2.pending = s.pending := by simp [s2, s1]
  rw [State.imageOn_pending]
  refine (State.foldl_pending s2 (fun s p => ?_) _).trans h2
  split
  all_goals simp

@[simp] theorem State.takeImage_pending (c bs back) : (s.takeImage c bs back).pending = s.pending := by
  simp only [State.takeImage]
  repeat' split
  all_goals simp

@[simp] theorem State.endChunk_pending (c) : (s.endChunk c).pending = s.pending := by simp [State.endChunk]
@[simp] theorem State.startChunk_pending (c) : (s.startChunk c).pending = s.pending := by simp [State.startChunk]
@[simp] theorem State.dropPartial_pending : s.dropPartial.pending = s.pending := by simp [State.dropPartial]

@[simp] theorem State.stage_pending (c chunk) : (s.stage c chunk).pending = s.pending := by
  simp only [State.stage]
  repeat' split
  all_goals simp

@[simp] theorem execImageVerify_keepsQueue (good) : s.KeepsQueue (execImageVerify good s) := by simp [execImageVerify]
@[simp] theorem execImageStatus_keepsQueue (port pkt) : s.KeepsQueue (execImageStatus port pkt s) := by simp [execImageStatus]

@[simp] theorem State.discardImage_pending (c) : (s.discardImage c).pending = s.pending := by
  unfold State.discardImage
  split
  all_goals simp

@[simp] theorem execImageDiscard_keepsQueue (port pkt) : s.KeepsQueue (execImageDiscard port pkt s) := by simp [execImageDiscard]
@[simp] theorem State.activate_pending (c) : (s.activate c).pending = s.pending := by simp [State.activate]
@[simp] theorem execImageActivate_keepsQueue (port pkt) : s.KeepsQueue (execImageActivate port pkt s) := by simp [execImageActivate]

/-! ### The board description -/

@[simp] theorem execBoardGet_keepsQueue (port pkt) : s.KeepsQueue (execBoardGet port pkt s) := by simp [execBoardGet]
@[simp] theorem State.writePending_pending (off bs) : (s.writePending off bs).pending = s.pending := by simp [State.writePending]
@[simp] theorem State.commitBoard_pending : s.commitBoard.1.pending = s.pending := by simp [State.commitBoard]

@[simp] theorem State.boardCommit_pending (c) : (s.boardCommit c).pending = s.pending := by
  unfold State.boardCommit
  split
  all_goals simp

@[simp] theorem execBoardCommit_keepsQueue (port pkt) : s.KeepsQueue (execBoardCommit port pkt s) := by simp [execBoardCommit]

end

end Sys2Proof.Machine
end

section
/-! SUPPORT. The queue of waiting commands, continued: contexts, harnesses, start-up, ports and queues. -/

namespace Sys2Proof.Machine

section
variable (s : State)

/-! ### Context and key commands -/

@[simp] theorem State.bindFor_pending (c first n) : (s.bindFor c first n).pending = s.pending := by simp [State.bindFor]
@[simp] theorem State.ctxCreate_pending (c) : (s.ctxCreate c).pending = s.pending := by simp [State.ctxCreate]
@[simp] theorem execCtxCreate_keepsQueue (port pkt) : s.KeepsQueue (execCtxCreate port pkt s) := by simp [execCtxCreate]
@[simp] theorem State.repin_pending (ctx id) : (s.repin ctx id).pending = s.pending := by simp [State.repin]
@[simp] theorem State.pushDirty_pending (ctx id) : (s.pushDirty ctx id).pending = s.pending := by simp [State.pushDirty]
@[simp] theorem State.endWt_pending (ctx) : (s.endWt ctx).pending = s.pending := by rfl

@[simp] theorem State.ctxModify_pending (c) : (s.ctxModify c).pending = s.pending := by
  unfold State.ctxModify
  extract_lets ctx old x bind first n fresh s1 s2 s3
  have h2 : s2.pending = s.pending := by simp [s2, s1]
  have h3 : s3.pending = s.pending := by simp [s3, h2]
  clear_value bind s3
  split
  · simp
  split
  · simp
  split
  · simp
  split
  · simp
  split
  all_goals simp [h3]

@[simp] theorem execCtxModify_keepsQueue (port pkt) : s.KeepsQueue (execCtxModify port pkt s) := by simp [execCtxModify]
@[simp] theorem State.ctxDelete_pending (c) : (s.ctxDelete c).pending = s.pending := by simp [State.ctxDelete]
@[simp] theorem execCtxDelete_keepsQueue (port pkt) : s.KeepsQueue (execCtxDelete port pkt s) := by simp [execCtxDelete]
@[simp] theorem execCtxQuery_keepsQueue (port pkt) : s.KeepsQueue (execCtxQuery port pkt s) := by simp [execCtxQuery]

@[simp] theorem State.keyLoad_pending (c blob) : (s.keyLoad c blob).pending = s.pending := by
  simp only [State.keyLoad]
  repeat' split
  all_goals simp

@[simp] theorem execKeyLoad_keepsQueue (port pkt blob) : s.KeepsQueue (execKeyLoad port pkt blob s) := by simp [execKeyLoad]
@[simp] theorem State.keyDestroy_pending (c) : (s.keyDestroy c).pending = s.pending := by simp [State.keyDestroy]
@[simp] theorem execKeyDestroy_keepsQueue (port pkt) : s.KeepsQueue (execKeyDestroy port pkt s) := by simp [execKeyDestroy]

/-! ### Write-back, tags and the range engine -/

@[simp] theorem State.startWriteback_pending (k) : (s.startWriteback k).pending = s.pending := by
  unfold State.startWriteback
  split
  · rfl
  dsimp only
  split
  · rename_i h
    simp [State.pending_of_eq h]
  · rfl

@[simp] theorem execWritebackStart_keepsQueue : s.KeepsQueue (execWritebackStart s) := by
  unfold execWritebackStart
  split
  all_goals simp

@[simp] theorem execWbAgeExpiry_keepsQueue : s.KeepsQueue (execWbAgeExpiry s) := by simp [execWbAgeExpiry]
@[simp] theorem execAllocationRetry_keepsQueue : s.KeepsQueue (execAllocationRetry s) := by simp [execAllocationRetry]

@[simp] theorem execTagRebuild_keepsQueue (set way copies) : s.KeepsQueue (execTagRebuild set way copies s) := by
  simp only [execTagRebuild]
  repeat' split
  all_goals simp

@[simp] theorem State.birthRange_pending (r) : (s.birthRange r).pending = s.pending := by
  simp only [State.birthRange]
  split
  all_goals rename_i h; simp [State.pending_of_eq h]

@[simp] theorem execRangeEngineLeaf_keepsQueue : s.KeepsQueue (execRangeEngineLeaf s) := by
  unfold execRangeEngineLeaf
  split
  all_goals simp

@[simp] theorem State.submitRange_pending (r) : (s.submitRange r).pending = s.pending := by simp [State.submitRange]
@[simp] theorem State.writeRngCtrl_pending (v) : (s.writeRngCtrl v).pending = s.pending := by simp [State.writeRngCtrl]
@[simp] theorem execRangeGoClean_keepsQueue (v) : s.KeepsQueue (execRangeGoClean v s) := by simp [execRangeGoClean]
@[simp] theorem execRangeGoInvalidate_keepsQueue (v) : s.KeepsQueue (execRangeGoInvalidate v s) := by simp [execRangeGoInvalidate]
@[simp] theorem execRangeGoDiscard_keepsQueue (v) : s.KeepsQueue (execRangeGoDiscard v s) := by simp [execRangeGoDiscard]
@[simp] theorem execRangeGoLock_keepsQueue (v) : s.KeepsQueue (execRangeGoLock v s) := by simp [execRangeGoLock]
@[simp] theorem execRangeGoUnlock_keepsQueue (v) : s.KeepsQueue (execRangeGoUnlock v s) := by simp [execRangeGoUnlock]
@[simp] theorem execRangeGoPrefetch_keepsQueue (v) : s.KeepsQueue (execRangeGoPrefetch v s) := by simp [execRangeGoPrefetch]
@[simp] theorem State.disableCache_pending : s.disableCache.pending = s.pending := by simp [State.disableCache]
@[simp] theorem State.enableCache_pending : s.enableCache.pending = s.pending := by simp [State.enableCache]
@[simp] theorem State.writeCacheCtrl_pending (v) : (s.writeCacheCtrl v).pending = s.pending := by simp [State.writeCacheCtrl]
@[simp] theorem execCacheCtrlEnable_keepsQueue (v) : s.KeepsQueue (execCacheCtrlEnable v s) := by simp [execCacheCtrlEnable]
@[simp] theorem execCacheCtrlDisable_keepsQueue (v) : s.KeepsQueue (execCacheCtrlDisable v s) := by simp [execCacheCtrlDisable]
@[simp] theorem execCacheDrainDone_keepsQueue : s.KeepsQueue (execCacheDrainDone s) := by simp [execCacheDrainDone]

/-! ### Harnesses -/

@[simp] theorem State.rejoin_pending : s.rejoin.pending = s.pending := by
  unfold State.rejoin
  split
  all_goals simp

@[simp] theorem State.ownWrite_pending (addr bs) : (s.ownWrite addr bs).pending = s.pending := by simp [State.ownWrite]
@[simp] theorem State.readSlot_pending (m) : (s.readSlot m).pending = s.pending := by simp [State.readSlot]
@[simp] theorem State.leaderRead_pending : s.leaderRead.pending = s.pending := by simp [State.leaderRead]
@[simp] theorem State.formHarness_pending : s.formHarness.1.pending = s.pending := by rfl
@[simp] theorem State.leaderEnds_pending : s.leaderEnds.pending = s.pending := by simp [State.leaderEnds]

@[simp] theorem State.leaderBegins_pending (owner) : (s.leaderBegins owner).pending = s.pending := by
  unfold State.leaderBegins
  split
  all_goals simp

@[simp] theorem execHarnessLeaderRead_keepsQueue : s.KeepsQueue (execHarnessLeaderRead s) := by simp [execHarnessLeaderRead]
@[simp] theorem State.endPushCommands_pending : s.endPushCommands.pending = s.pending := by simp [State.endPushCommands]
@[simp] theorem State.pushFailed_pending : s.pushFailed.pending = s.pending := by simp [State.pushFailed]

@[simp] theorem State.startPush_pending : s.startPush.pending = s.pending := by
  simp only [State.startPush]
  repeat' split
  all_goals simp

@[simp] theorem State.pushRead_pending (r) : (s.pushRead r).pending = s.pending := by
  unfold State.pushRead
  split
  all_goals simp

@[simp] theorem execHarnessPush_keepsQueue : s.KeepsQueue (execHarnessPush s) := by simp [execHarnessPush]
@[simp] theorem execHarnessPushReadback_keepsQueue (r) : s.KeepsQueue (execHarnessPushReadback r s) := by simp [execHarnessPushReadback]
@[simp] theorem execHarnessJoin_keepsQueue (port pkt) : s.KeepsQueue (execHarnessJoin port pkt s) := by simp [execHarnessJoin]
@[simp] theorem execHarnessLeave_keepsQueue (port pkt) : s.KeepsQueue (execHarnessLeave port pkt s) := by simp [execHarnessLeave]
@[simp] theorem execHarnessQuery_keepsQueue (port pkt) : s.KeepsQueue (execHarnessQuery port pkt s) := by simp [execHarnessQuery]
@[simp] theorem execGetHealth_keepsQueue (port pkt) : s.KeepsQueue (execGetHealth port pkt s) := by simp [execGetHealth]

/-! ### Start-up and mount -/

@[simp] theorem State.loadProfile_pending (slot) : (s.loadProfile slot).pending = s.pending := by rfl

@[simp] theorem State.pointTrial_pending : s.pointTrial.pending = s.pending := by
  unfold State.pointTrial
  split
  all_goals simp

@[simp] theorem State.beginAttempt_pending : s.beginAttempt.1.pending = s.pending := by
  simp only [State.beginAttempt]
  repeat' split
  all_goals simp

@[simp] theorem State.copyBad_pending (slot x) : (s.copyBad slot x).pending = s.pending := by simp [State.copyBad]

@[simp] theorem State.bootAttempt_pending (parts) : (s.bootAttempt parts).pending = s.pending := by
  simp only [State.bootAttempt]
  split
  · rfl
  split
  · simp
  split
  all_goals rename_i h; simp [State.pending_of_eq h]

@[simp] theorem execBootAttempt_keepsQueue (parts) : s.KeepsQueue (execBootAttempt parts s) := by simp [execBootAttempt]
@[simp] theorem execBootAttemptTimeout_keepsQueue : s.KeepsQueue (execBootAttemptTimeout s) := by simp [execBootAttemptTimeout]

@[simp] theorem State.restoreCtxs_pending : s.restoreCtxs.pending = s.pending := by
  refine State.foldl_pending s (fun s x => ?_) _
  split
  all_goals simp

@[simp] theorem State.restoreSpares_pending : s.restoreSpares.pending = s.pending := by
  unfold State.restoreSpares
  split
  all_goals simp

@[simp] theorem State.restoreSpace_pending : s.restoreSpace.pending = s.pending := by rfl

@[simp] theorem State.restoreStaged_pending : s.restoreStaged.pending = s.pending := by
  simp only [State.restoreStaged]
  repeat' split
  all_goals simp

@[simp] theorem State.endActivation_pending : s.endActivation.pending = s.pending := by
  unfold State.endActivation
  split
  all_goals simp

@[simp] theorem State.bootSucceeds_pending : s.bootSucceeds.pending = s.pending := by simp [State.bootSucceeds]
@[simp] theorem execBootReady_keepsQueue : s.KeepsQueue (execBootReady s) := by simp [execBootReady]
@[simp] theorem execActivationPauseLimit_keepsQueue : s.KeepsQueue (execActivationPauseLimit s) := by simp [execActivationPauseLimit]
@[simp] theorem State.resumeSweeps_pending : s.resumeSweeps.pending = s.pending := State.foldl_pending s (fun s n => by rfl) _
@[simp] theorem State.resumeSalvage_pending : s.resumeSalvage.pending = s.pending := by simp [State.resumeSalvage]
@[simp] theorem State.endPass2_pending : s.endPass2.pending = s.pending := by simp [State.endPass2]
@[simp] theorem State.enterServing_pending : s.enterServing.pending = s.pending := by simp [State.enterServing]

@[simp] theorem State.mountBlank_pending : s.mountBlank.pending = s.pending := by
  unfold State.mountBlank
  refine (State.enterServing_pending _).trans ((State.setXlat_pending _ _).trans ?_)
  exact State.foldl_pending _ (fun s k => by simp) _

@[simp] theorem State.restoreAges_pending (w) : (s.restoreAges w).pending = s.pending :=
  (State.limitOffsets_pending _).trans (State.foldl_pending s (fun s e => by rfl) _)

@[simp] theorem State.chooseWelt_pending (reads) : (s.chooseWelt reads).pending = s.pending := by
  simp only [State.chooseWelt]
  repeat' split
  all_goals simp

@[simp] theorem execMountWeltChoice_keepsQueue (reads) : s.KeepsQueue (execMountWeltChoice reads s) := by simp [execMountWeltChoice]
@[simp] theorem State.assess_pending (k rows) : (s.assess k rows).pending = s.pending := by simp [State.assess]

@[simp] theorem State.pass1_pending : s.pass1.pending = s.pending := by
  unfold State.pass1
  extract_lets _ s1 s2 u s3
  have h2 : s2.pending = s.pending := by simp [s2, s1]
  have h3 : s3.pending = s2.pending := State.foldl_pending s2 (fun s k => by simp) _
  simp [h3, h2]

@[simp] theorem execBrandPass1_keepsQueue (k) : s.KeepsQueue (execBrandPass1 k s) := by simp [execBrandPass1]
@[simp] theorem State.reassessNext_pending (k) : (s.reassessNext k).pending = s.pending := by simp [State.reassessNext]
@[simp] theorem execBrandPass2Die_keepsQueue (die) : s.KeepsQueue (execBrandPass2Die die s) := by simp [execBrandPass2Die]
@[simp] theorem State.reassessAll_pending : s.reassessAll.pending = s.pending := by simp [State.reassessAll]

@[simp] theorem State.writeDriftCtrl_pending (v) : (s.writeDriftCtrl v).pending = s.pending := by
  simp only [State.writeDriftCtrl]
  repeat' split
  all_goals simp

@[simp] theorem execReassess_keepsQueue (v k) : s.KeepsQueue (execReassess v k s) := by simp [execReassess]
@[simp] theorem execLearnClear_keepsQueue (v) : s.KeepsQueue (execLearnClear v s) := by simp [execLearnClear]

@[simp] theorem State.replayBlock_pending (kept sub die index planes use erases) :
    (s.replayBlock kept sub die index planes use erases).pending = s.pending := by
  unfold State.replayBlock
  extract_lets db on counts
  have hc (s : State) : (counts s).pending = s.pending := by simp [counts]
  split
  · simp [hc]
  · simp [hc]
  · split
    · rfl
    refine State.foldl_pending s (fun s p => ?_) _
    extract_lets own
    split
    · extract_lets s1
      have h1 : s1.pending = s.pending := by simp [s1]
      split
      · simp [h1]
      · refine (State.foldl_pending s1 (fun s k => ?_) _).trans h1
        split
        all_goals simp
    · simp
  · simp
  · simp

@[simp] theorem State.granuleAt_pending (g rseq e) : (s.granuleAt g rseq e).pending = s.pending := by rfl

@[simp] theorem State.replayGranule_pending (rseq sub ctx first n) : (s.replayGranule rseq sub ctx first n).pending = s.pending := by
  unfold State.replayGranule
  split
  all_goals simp

@[simp] theorem State.replayHole_pending (ctx first n reason) : (s.replayHole ctx first n reason).pending = s.pending := by
  simp [State.replayHole]

@[simp] theorem State.replayAge_pending (die counter) : (s.replayAge die counter).pending = s.pending := by
  simp only [State.replayAge]
  repeat' split
  all_goals simp

@[simp] theorem State.replay1_pending (kept e) : (State.replay1 kept s e).pending = s.pending := by
  unfold State.replay1
  split
  · dsimp only
    split
    all_goals simp
  all_goals simp

@[simp] theorem State.replay2_pending (e) : (s.replay2 e).pending = s.pending := by
  unfold State.replay2
  split
  all_goals simp

@[simp] theorem State.settleBlocks_pending (kept) : (s.settleBlocks kept).pending = s.pending := by simp [State.settleBlocks]
@[simp] theorem State.placeMember_pending (i m db p) : (s.placeMember i m db p).pending = s.pending := by simp [State.placeMember]
@[simp] theorem State.placePointers_pending (recs delta) : (s.placePointers recs delta).pending = s.pending := by simp [State.placePointers]
@[simp] theorem State.pinAll_pending : s.pinAll.pending = s.pending := by rfl
@[simp] theorem State.replay_pending (w) : (s.replay w).pending = s.pending := by simp [State.replay]

@[simp] theorem execJournalReplay_keepsQueue : s.KeepsQueue (execJournalReplay s) := by
  unfold execJournalReplay
  split
  all_goals simp

@[simp] theorem execDirectoryWrite_keepsQueue : s.KeepsQueue (execDirectoryWrite s) := by simp [execDirectoryWrite]

/-! ### Observation -/

@[simp] theorem State.writeObsCtrl_pending (v) : (s.writeObsCtrl v).pending = s.pending := by simp [State.writeObsCtrl]
@[simp] theorem execSlotSnap_keepsQueue (v) : s.KeepsQueue (execSlotSnap v s) := by simp [execSlotSnap]
@[simp] theorem execSlotClear_keepsQueue (v) : s.KeepsQueue (execSlotClear v s) := by simp [execSlotClear]
@[simp] theorem execCntClear_keepsQueue (v) : s.KeepsQueue (execCntClear v s) := by simp [execCntClear]
@[simp] theorem State.writeSmpCfg_pending (v) : (s.writeSmpCfg v).pending = s.pending := by simp [State.writeSmpCfg]
@[simp] theorem execSampleRingClear_keepsQueue (v) : s.KeepsQueue (execSampleRingClear v s) := by simp [execSampleRingClear]
@[simp] theorem State.writeSmpTail_pending (v) : (s.writeSmpTail v).pending = s.pending := by simp [State.writeSmpTail]
@[simp] theorem execSampleTailWrite_keepsQueue (v) : s.KeepsQueue (execSampleTailWrite v s) := by simp [execSampleTailWrite]
@[simp] theorem execCounterLoRead_keepsQueue (k) : s.KeepsQueue (execCounterLoRead k s) := by simp [execCounterLoRead]
@[simp] theorem execCounterOverflow_keepsQueue (k inc) : s.KeepsQueue (execCounterOverflow k inc s) := by simp [execCounterOverflow]

@[simp] theorem execSampleEntryWrite_keepsQueue (times) : s.KeepsQueue (execSampleEntryWrite times s) := by
  unfold execSampleEntryWrite
  split
  all_goals simp

@[simp] theorem execSampleWriteTimeout_keepsQueue : s.KeepsQueue (execSampleWriteTimeout s) := by
  unfold execSampleWriteTimeout
  split
  all_goals simp

@[simp] theorem execTraceFrameSend_keepsQueue : s.KeepsQueue (execTraceFrameSend s) := by
  simp only [execTraceFrameSend]
  repeat' split
  all_goals simp

@[simp] theorem execTraceTime_keepsQueue (cycles) : s.KeepsQueue (execTraceTime cycles s) := by simp [execTraceTime]

/-! ### Device, cache, map and media commands -/

@[simp] theorem execIdentify_keepsQueue (port pkt) : s.KeepsQueue (execIdentify port pkt s) := by simp [execIdentify]
@[simp] theorem execGetState_keepsQueue (port pkt) : s.KeepsQueue (execGetState port pkt s) := by simp [execGetState]
@[simp] theorem State.setWall_pending (t) : (s.setWall t).pending = s.pending := by rfl
@[simp] theorem execSetWalltime_keepsQueue (port pkt) : s.KeepsQueue (execSetWalltime port pkt s) := by simp [execSetWalltime]
@[simp] theorem execEnterMaintenance_keepsQueue (port pkt) : s.KeepsQueue (execEnterMaintenance port pkt s) := by
  simp [execEnterMaintenance]
@[simp] theorem execLeaveMaintenance_keepsQueue (port pkt) : s.KeepsQueue (execLeaveMaintenance port pkt s) := by
  simp [execLeaveMaintenance]
@[simp] theorem State.drainRange_pending : s.drainRange.pending = s.pending := by simp [State.drainRange]

@[simp] theorem State.stopCmd_pending (c) : (s.stopCmd c).1.pending = s.pending := by
  simp only [State.stopCmd]
  repeat' split
  all_goals simp

@[simp] theorem State.dropRangeOf_pending (id) : (s.dropRangeOf id).pending = s.pending := by rfl

@[simp] theorem execAbort_keepsQueue (port pkt) : s.KeepsQueue (execAbort port pkt s) := by
  refine (s.keepsQueue_done s _).mpr (s.run_pending _ _ _ fun s c => ?_)
  split
  all_goals simp

@[simp] theorem execPrepareShelfDown_keepsQueue (port pkt) : s.KeepsQueue (execPrepareShelfDown port pkt s) := by
  simp [execPrepareShelfDown]
@[simp] theorem State.cacheRange_pending (c) : (s.cacheRange c).pending = s.pending := by simp [State.cacheRange]
@[simp] theorem State.runRange_pending (op port pkt) : (s.runRange op port pkt).pending = s.pending := by simp [State.runRange]
@[simp] theorem execCacheRangeClean_keepsQueue (port pkt) : s.KeepsQueue (execCacheRangeClean port pkt s) := by simp [execCacheRangeClean]
@[simp] theorem execCacheRangeInvalidate_keepsQueue (port pkt) : s.KeepsQueue (execCacheRangeInvalidate port pkt s) := by
  simp [execCacheRangeInvalidate]
@[simp] theorem execCacheRangeDiscard_keepsQueue (port pkt) : s.KeepsQueue (execCacheRangeDiscard port pkt s) := by
  simp [execCacheRangeDiscard]
@[simp] theorem execCacheRangeLock_keepsQueue (port pkt) : s.KeepsQueue (execCacheRangeLock port pkt s) := by simp [execCacheRangeLock]
@[simp] theorem execCacheRangeUnlock_keepsQueue (port pkt) : s.KeepsQueue (execCacheRangeUnlock port pkt s) := by
  simp [execCacheRangeUnlock]
@[simp] theorem execCacheRangePrefetch_keepsQueue (port pkt) : s.KeepsQueue (execCacheRangePrefetch port pkt s) := by
  simp [execCacheRangePrefetch]
@[simp] theorem execCacheEnable_keepsQueue (port pkt) : s.KeepsQueue (execCacheEnable port pkt s) := by simp [execCacheEnable]
@[simp] theorem execCacheDisable_keepsQueue (port pkt) : s.KeepsQueue (execCacheDisable port pkt s) := by simp [execCacheDisable]
@[simp] theorem execCacheStatus_keepsQueue (port pkt) : s.KeepsQueue (execCacheStatus port pkt s) := by simp [execCacheStatus]
@[simp] theorem State.clearRange_pending (zero c) : (s.clearRange zero c).pending = s.pending := by simp [State.clearRange]
@[simp] theorem execUnmapRange_keepsQueue (port pkt) : s.KeepsQueue (execUnmapRange port pkt s) := by simp [execUnmapRange]
@[simp] theorem execZeroRange_keepsQueue (port pkt) : s.KeepsQueue (execZeroRange port pkt s) := by simp [execZeroRange]
@[simp] theorem execMapQuery_keepsQueue (port pkt) : s.KeepsQueue (execMapQuery port pkt s) := by simp [execMapQuery]
@[simp] theorem execPinSegments_keepsQueue (port pkt) : s.KeepsQueue (execPinSegments port pkt s) := by simp [execPinSegments]
@[simp] theorem execUnpinSegments_keepsQueue (port pkt) : s.KeepsQueue (execUnpinSegments port pkt s) := by simp [execUnpinSegments]
@[simp] theorem execGetHoles_keepsQueue (port pkt) : s.KeepsQueue (execGetHoles port pkt s) := by simp [execGetHoles]
@[simp] theorem execClearReadOnly_keepsQueue (port pkt) : s.KeepsQueue (execClearReadOnly port pkt s) := by simp [execClearReadOnly]
@[simp] theorem execScrubNow_keepsQueue (port pkt) : s.KeepsQueue (execScrubNow port pkt s) := by simp [execScrubNow]
@[simp] theorem execBurnishNow_keepsQueue (port pkt) : s.KeepsQueue (execBurnishNow port pkt s) := by simp [execBurnishNow]
@[simp] theorem execRefreshNow_keepsQueue (port pkt) : s.KeepsQueue (execRefreshNow port pkt s) := by simp [execRefreshNow]
@[simp] theorem execRetireUnit_keepsQueue (port pkt) : s.KeepsQueue (execRetireUnit port pkt s) := by simp [execRetireUnit]
@[simp] theorem execRestoreUnit_keepsQueue (port pkt) : s.KeepsQueue (execRestoreUnit port pkt s) := by simp [execRestoreUnit]
@[simp] theorem execMediaReport_keepsQueue (port pkt) : s.KeepsQueue (execMediaReport port pkt s) := by simp [execMediaReport]
@[simp] theorem execRetentionReport_keepsQueue (port pkt) : s.KeepsQueue (execRetentionReport port pkt s) := by simp [execRetentionReport]
@[simp] theorem execPowerStatus_keepsQueue (port pkt) : s.KeepsQueue (execPowerStatus port pkt s) := by simp [execPowerStatus]
@[simp] theorem execHoldupMeasure_keepsQueue (port pkt) : s.KeepsQueue (execHoldupMeasure port pkt s) := by simp [execHoldupMeasure]
@[simp] theorem execSetLimits_keepsQueue (port pkt) : s.KeepsQueue (execSetLimits port pkt s) := by simp [execSetLimits]
@[simp] theorem execParamGet_keepsQueue (port pkt) : s.KeepsQueue (execParamGet port pkt s) := by simp [execParamGet]
@[simp] theorem execParamSet_keepsQueue (port pkt) : s.KeepsQueue (execParamSet port pkt s) := by simp [execParamSet]
@[simp] theorem execCounterConfig_keepsQueue (port pkt) : s.KeepsQueue (execCounterConfig port pkt s) := by simp [execCounterConfig]
@[simp] theorem execCounterRead_keepsQueue (port pkt) : s.KeepsQueue (execCounterRead port pkt s) := by simp [execCounterRead]
@[simp] theorem execSampleConfig_keepsQueue (port pkt) : s.KeepsQueue (execSampleConfig port pkt s) := by simp [execSampleConfig]
@[simp] theorem execEventRead_keepsQueue (port pkt) : s.KeepsQueue (execEventRead port pkt s) := by simp [execEventRead]
@[simp] theorem execEventClear_keepsQueue (port pkt) : s.KeepsQueue (execEventClear port pkt s) := by simp [execEventClear]

/-! ### The service port -/

@[simp] theorem State.msgError_pending : s.msgError.pending = s.pending := by rfl
@[simp] theorem State.pecError_pending : s.pecError.pending = s.pending := by rfl

@[simp] theorem State.transact_pending (pecOk) {act : State → State} (h : ∀ s, (act s).pending = s.pending) :
    (s.transact pecOk act).pending = s.pending := by
  unfold State.transact
  split
  · rfl
  · simp [h]

@[simp] theorem State.endRun_pending (c code detail) : (s.endRun c code detail).pending = s.pending := by simp [State.endRun]
@[simp] theorem State.runDone_pending (c) : (s.runDone c).pending = s.pending := by simp [State.runDone]

@[simp] theorem State.feed_pending (fuel) : (s.feed fuel).pending = s.pending := by
  induction fuel generalizing s with
  | zero => rfl
  | succ n ih =>
    simp only [State.feed]
    split
    · rfl
    split
    · simp
    split
    · rfl
    · simp [ih]

@[simp] theorem State.pushByte_pending (b) : (s.pushByte b).pending = s.pending := by simp [State.pushByte]
@[simp] theorem State.flushFifo_pending : s.flushFifo.pending = s.pending := by rfl
@[simp] theorem execImageStage_keepsQueue (port pkt chunk) : s.KeepsQueue (execImageStage port pkt chunk s) := by simp [execImageStage]

@[simp] theorem execBoardSet_keepsQueue (port pkt data) : s.KeepsQueue (execBoardSet port pkt data s) := by
  unfold execBoardSet
  split
  all_goals simp

@[simp] theorem State.writeSvcCtrl_pending (v) : (s.writeSvcCtrl v).pending = s.pending := by simp [State.writeSvcCtrl]
@[simp] theorem execFifoFlush_keepsQueue (v) : s.KeepsQueue (execFifoFlush v s) := by simp [execFifoFlush]

@[simp] theorem execFifoTimeout_keepsQueue : s.KeepsQueue (execFifoTimeout s) := by
  unfold execFifoTimeout
  split
  all_goals simp

@[simp] theorem State.answerMessage_pending (cid code detail) : (s.answerMessage cid code detail).pending = s.pending := by rfl
@[simp] theorem State.brokenMessage_pending (cid) : (s.brokenMessage cid).pending = s.pending := by rfl

@[simp] theorem State.takeRequest_pending (body) : (s.takeRequest body).pending = s.pending := by
  simp only [State.takeRequest]
  repeat' split
  all_goals simp

@[simp] theorem execSvcRequest_keepsQueue (body pecOk) : s.KeepsQueue (execSvcRequest body pecOk s) := by simp [execSvcRequest]
@[simp] theorem State.takeData_pending (body) : (s.takeData body).pending = s.pending := by simp [State.takeData]
@[simp] theorem execSvcData_keepsQueue (body pecOk) : s.KeepsQueue (execSvcData body pecOk s) := by simp [execSvcData]
@[simp] theorem execSetEndpointId_keepsQueue (eid) : s.KeepsQueue (execSetEndpointId eid s) := by simp [execSetEndpointId]
@[simp] theorem execGetEndpointId_keepsQueue : s.KeepsQueue (execGetEndpointId s) :=
  (s.keepsQueue_done s _).mpr (s.transact_pending true fun s => by simp)
@[simp] theorem execGetMctpVersionSupport_keepsQueue : s.KeepsQueue (execGetMctpVersionSupport s) :=
  (s.keepsQueue_done s _).mpr (s.transact_pending true fun s => by simp)
@[simp] theorem execGetMessageTypeSupport_keepsQueue : s.KeepsQueue (execGetMessageTypeSupport s) :=
  (s.keepsQueue_done s _).mpr (s.transact_pending true fun s => by simp)
@[simp] theorem execGetVendorDefinedMessageSupport_keepsQueue : s.KeepsQueue (execGetVendorDefinedMessageSupport s) :=
  (s.keepsQueue_done s _).mpr (s.transact_pending true fun s => by simp)
@[simp] theorem execOtherMessageType_keepsQueue (ty) : s.KeepsQueue (execOtherMessageType ty s) := by simp [execOtherMessageType]
@[simp] theorem State.assignAddr_pending (addr pecOk) : (s.assignAddr addr pecOk).pending = s.pending := by simp [State.assignAddr]
@[simp] theorem execEntdaa_keepsQueue (addr pecOk) : s.KeepsQueue (execEntdaa addr pecOk s) := by simp [execEntdaa]
@[simp] theorem execSetdasa_keepsQueue (addr pecOk) : s.KeepsQueue (execSetdasa addr pecOk s) := by simp [execSetdasa]
@[simp] theorem execRstdaa_keepsQueue : s.KeepsQueue (execRstdaa s) := by simp [execRstdaa]

/-! ### Queue pairs -/

@[simp] theorem State.writeQStatus_pending (q v) : (s.writeQStatus q v).pending = s.pending := by rfl
@[simp] theorem State.disablePair_pending (q) : (s.disablePair q).pending = s.pending := by simp [State.disablePair]
@[simp] theorem State.writeQctrl_pending (q v) : (s.writeQctrl q v).pending = s.pending := by simp [State.writeQctrl]

@[simp] theorem State.writeQueueReg_pending (q off v) : (s.writeQueueReg q off v).pending = s.pending := by
  unfold State.writeQueueReg
  split
  all_goals simp

@[simp] theorem execQueueEnable_keepsQueue (q v) : s.KeepsQueue (execQueueEnable q v s) := by simp [execQueueEnable]
@[simp] theorem execQueueDisable_keepsQueue (q v) : s.KeepsQueue (execQueueDisable q v s) := by simp [execQueueDisable]
@[simp] theorem State.refuseDoorbell_pending (q) : (s.refuseDoorbell q).pending = s.pending := by rfl
@[simp] theorem State.writeSqTail_pending (q v) : (s.writeSqTail q v).pending = s.pending := by simp [State.writeSqTail]
@[simp] theorem State.writeCqHead_pending (q v) : (s.writeCqHead q v).pending = s.pending := by simp [State.writeCqHead]
@[simp] theorem execSqTailDoorbell_keepsQueue (q v) : s.KeepsQueue (execSqTailDoorbell q v s) := by simp [execSqTailDoorbell]
@[simp] theorem execCqHeadDoorbell_keepsQueue (q v) : s.KeepsQueue (execCqHeadDoorbell q v s) := by simp [execCqHeadDoorbell]
@[simp] theorem State.takeTurn_pending (q) : (s.takeTurn q).pending = s.pending := by simp [State.takeTurn]
@[simp] theorem State.failFetch_pending (q) : (s.failFetch q).pending = s.pending := by simp [State.failFetch]

@[simp] theorem execSqFetch_keepsQueue (read) : s.KeepsQueue (execSqFetch read s) := by
  unfold execSqFetch
  split
  all_goals simp

@[simp] theorem execCompletionPost_keepsQueue (q) : s.KeepsQueue (execCompletionPost q s) := by simp [execCompletionPost]
@[simp] theorem execCoalesceTimeout_keepsQueue (q) : s.KeepsQueue (execCoalesceTimeout q s) := by simp [execCoalesceTimeout]

/-! ### The clean shutdown -/

@[simp] theorem State.setShutdown_pending (x) : (s.setShutdown x).pending = s.pending := by rfl
@[simp] theorem State.stopEngines_pending : s.stopEngines.pending = s.pending := by simp [State.stopEngines]
@[simp] theorem State.sealAll_pending : s.sealAll.pending = s.pending := by simp [State.sealAll]

@[simp] theorem State.flushPath_pending : s.flushPath.1.pending = s.pending := by
  unfold State.flushPath
  extract_lets s1 s2
  have h2 : s2.pending = s.pending := by simp [s1, s2]
  split
  · simp [s1]
  split
  · simp [h2]
  · split
    · simp [h2]
    · split
      all_goals simp [h2]

@[simp] theorem State.storePath_pending : s.storePath.pending = s.pending := by simp [State.storePath]
@[simp] theorem State.goDark_pending : s.goDark.pending = s.pending := by rfl
@[simp] theorem State.brandAll_pending (dies) : (s.brandAll dies).1.pending = s.pending := by simp [State.brandAll]

@[simp] theorem State.hold_pending : s.hold.pending = s.pending := by
  simp only [State.hold]
  repeat' split
  all_goals simp

@[simp] theorem State.shutdownPath_pending : s.shutdownPath.pending = s.pending := by
  unfold State.shutdownPath
  split
  · rfl
  · rfl
  · split
    · rename_i h
      simp [State.pending_of_eq h]
    · rename_i h
      simp [State.pending_of_eq h]
  · split
    all_goals simp
  · split
    all_goals simp
  · split
    all_goals rename_i h; simp [State.pending_of_eq h]
  · split
    all_goals simp

@[simp] theorem execCleanShutdown_keepsQueue : s.KeepsQueue (execCleanShutdown s) := by simp [execCleanShutdown]

/-! ### The host link and the mailbox -/

@[simp] theorem execLinkTraining_keepsQueue (rate width flit cxl) : s.KeepsQueue (execLinkTraining rate width flit cxl s) := by
  simp [execLinkTraining]
@[simp] theorem execPmStateChange_keepsQueue (d3hot) : s.KeepsQueue (execPmStateChange d3hot s) := by simp [execPmStateChange]
@[simp] theorem execAspmL1Entry_keepsQueue : s.KeepsQueue (execAspmL1Entry s) := by simp [execAspmL1Entry]
@[simp] theorem State.dropReads_pending : s.dropReads.pending = s.pending := State.pending_of_still (still_dropReads ..)
@[simp] theorem State.resetCmdq_pending : s.resetCmdq.pending = s.pending := by rfl
@[simp] theorem State.resetHostRoutes_pending : s.resetHostRoutes.pending = s.pending := by rfl
@[simp] theorem State.hostPortReset_pending (cause) : (s.hostPortReset cause).pending = s.pending := by simp [State.hostPortReset]
@[simp] theorem execHostPortReset_keepsQueue (cause) : s.KeepsQueue (execHostPortReset cause s) := by simp [execHostPortReset]

@[simp] theorem State.readTimeout_pending (who) : (s.readTimeout who).pending = s.pending := by
  simp only [State.readTimeout]
  repeat' split
  all_goals simp

@[simp] theorem execCompletionTimeout_keepsQueue (who) : s.KeepsQueue (execCompletionTimeout who s) := by simp [execCompletionTimeout]
@[simp] theorem State.mailbox_pending (st fields records) : (s.mailbox st fields records).pending = s.pending := by rfl
@[simp] theorem execCxlIdentifyMemoryDevice_keepsQueue : s.KeepsQueue (execCxlIdentifyMemoryDevice s) := by
  simp [execCxlIdentifyMemoryDevice]
@[simp] theorem execCxlGetHealthInfo_keepsQueue : s.KeepsQueue (execCxlGetHealthInfo s) := by simp [execCxlGetHealthInfo]
@[simp] theorem execCxlGetPoisonList_keepsQueue (dpa len) : s.KeepsQueue (execCxlGetPoisonList dpa len s) := by simp [execCxlGetPoisonList]
@[simp] theorem execCxlSetTimestamp_keepsQueue (ns) : s.KeepsQueue (execCxlSetTimestamp ns s) := by simp [execCxlSetTimestamp]
@[simp] theorem execCxlGetEventRecords_keepsQueue (log) : s.KeepsQueue (execCxlGetEventRecords log s) := by simp [execCxlGetEventRecords]
@[simp] theorem execCxlClearEventRecords_keepsQueue (log count) : s.KeepsQueue (execCxlClearEventRecords log count s) := by
  simp [execCxlClearEventRecords]
@[simp] theorem execMailboxUnsupportedOpcode_keepsQueue (opcode) : s.KeepsQueue (execMailboxUnsupportedOpcode opcode s) := by
  simp [execMailboxUnsupportedOpcode]
@[simp] theorem execAgeLoRead_keepsQueue (ch d) : s.KeepsQueue (execAgeLoRead ch d s) := by simp [execAgeLoRead]

/-! ### Writes of registers -/

@[simp] theorem State.writeRw_pending (off mask v) : (s.writeRw off mask v).pending = s.pending := by rfl
@[simp] theorem State.writeW1c_pending (off mask v) : (s.writeW1c off mask v).pending = s.pending := by rfl
@[simp] theorem State.writeNear_pending (off lo w a b v) : (s.writeNear off lo w a b v).pending = s.pending := by rfl

@[simp] theorem State.writeIntc_pending (off v) : (s.writeIntc off v).pending = s.pending := by
  simp only [State.writeIntc]
  repeat' split
  all_goals simp

@[simp] theorem State.writeTickets_pending (ch i v) : (s.writeTickets ch i v).pending = s.pending := by simp [State.writeTickets]

@[simp] theorem State.writeArb_pending (off v) : (s.writeArb off v).pending = s.pending := by
  simp only [State.writeArb]
  repeat' split
  all_goals simp

@[simp] theorem State.writeMedia_pending (off v) : (s.writeMedia off v).pending = s.pending := by
  simp only [State.writeMedia]
  repeat' split
  all_goals simp

@[simp] theorem State.writeDrift_pending (off v) : (s.writeDrift off v).pending = s.pending := by simp [State.writeDrift]
@[simp] theorem State.writeXlat_pending (off v) : (s.writeXlat off v).pending = s.pending := by simp [State.writeXlat]
@[simp] theorem State.writeRngReg_pending (off mask v) : (s.writeRngReg off mask v).pending = s.pending := by simp [State.writeRngReg]
@[simp] theorem State.writeCache_pending (off v) : (s.writeCache off v).pending = s.pending := by simp [State.writeCache]

@[simp] theorem State.writeCtxWord_pending (off v) : (s.writeCtxWord off v).pending = s.pending := by
  unfold State.writeCtxWord
  split
  all_goals simp

@[simp] theorem State.writePwr_pending (off v) : (s.writePwr off v).pending = s.pending := by simp [State.writePwr]
@[simp] theorem State.writeTherm_pending (off v) : (s.writeTherm off v).pending = s.pending := by simp [State.writeTherm]
@[simp] theorem State.writePstore_pending (off v) : (s.writePstore off v).pending = s.pending := by simp [State.writePstore]
@[simp] theorem State.writeTrcCfg_pending (v) : (s.writeTrcCfg v).pending = s.pending := by simp [State.writeTrcCfg]
@[simp] theorem State.writeObs_pending (off v) : (s.writeObs off v).pending = s.pending := by simp [State.writeObs]
@[simp] theorem State.writeSvc_pending (off v) : (s.writeSvc off v).pending = s.pending := by simp [State.writeSvc]

@[simp] theorem State.writeCmdq_pending (off v) : (s.writeCmdq off v).pending = s.pending := by
  simp only [State.writeCmdq]
  repeat' split
  all_goals simp

@[simp] theorem State.writeHdm_pending (i off v) : (s.writeHdm i off v).pending = s.pending := by simp [State.writeHdm]
@[simp] theorem State.writeCxl_pending (off v) : (s.writeCxl off v).pending = s.pending := by simp [State.writeCxl]
@[simp] theorem State.writeBar0_pending (off v) : (s.writeBar0 off v).pending = s.pending := by simp [State.writeBar0]

@[simp] theorem State.writeBar_pending (i v) : (s.writeBar i v).pending = s.pending := by
  unfold State.writeBar
  split
  case h_7 => rfl
  all_goals exact s.setHost_pending _

@[simp] theorem State.writeAer_pending (off v) : (s.writeAer off v).pending = s.pending := by
  unfold State.writeAer
  split
  all_goals simp

@[simp] theorem State.writeConfig_pending (off v) : (s.writeConfig off v).pending = s.pending := by simp [State.writeConfig]
@[simp] theorem State.writeMsix_pending (off v) : (s.writeMsix off v).pending = s.pending := by simp [State.writeMsix]
@[simp] theorem State.writeReg_pending (off v) : (s.writeReg off v).pending = s.pending := by simp [State.writeReg]
@[simp] theorem execRegisterWrite_keepsQueue (off v) : s.KeepsQueue (execRegisterWrite off v s) := by simp [execRegisterWrite]

/-! ### Thermal management -/

@[simp] theorem State.noteSuspects_pending (l xs) : (s.noteSuspects l xs).pending = s.pending := by simp [State.noteSuspects]
@[simp] theorem State.judgeJunction_pending (j fell) : (s.judgeJunction j fell).pending = s.pending := by simp [State.judgeJunction]

@[simp] theorem State.critical_pending (j first) : (s.critical j first).pending = s.pending := by
  simp only [State.critical]
  repeat' split
  all_goals simp

@[simp] theorem State.dramTemp_pending (n t) : (s.dramTemp n t).pending = s.pending := by rfl

@[simp] theorem execThermalSample_keepsQueue (sensors diode dram0 dram1) :
    s.KeepsQueue (execThermalSample sensors diode dram0 dram1 s) := by
  simp [execThermalSample]

@[simp] theorem execDramRefresh_keepsQueue (stack) : s.KeepsQueue (execDramRefresh stack s) := by simp [execDramRefresh]
@[simp] theorem State.ageDie_pending (k) : (s.ageDie k).pending = s.pending := by rfl
@[simp] theorem execThermalAgeTick_keepsQueue : s.KeepsQueue (execThermalAgeTick s) := by simp [execThermalAgeTick]
@[simp] theorem execTempPoll_keepsQueue : s.KeepsQueue (execTempPoll s) := by simp [execTempPoll]

end

end Sys2Proof.Machine
end

section
/-! SUPPORT. What every command leaves of the queue of waiting commands: O54. -/

namespace Sys2Proof.Machine

/-- Each command has its rule. -/
theorem State.keepsQueue_exec (s : State) (c : Instr) : s.KeepsQueue (exec c s) := by
  cases c
  all_goals simp [exec]

/-- Settles O54: a command by its own rule, which its meaning has from the functions that it calls. -/
theorem noCommandTouchesTheQueue : Obligations.NoCommandTouchesTheQueue := fun c s => s.keepsQueue_exec c

end Sys2Proof.Machine
end
